-- ==== Sys2Proof/Word.lean ====
section
/-! DEFINITION. The widths the manual names (R7, R12, R13) and the one shape of thirty-two lane values.
Arithmetic, byte order and bit fields stand in Machine/Ops.lean, where a later repair can mend them. -/

namespace Sys2Proof

/-- A byte of memory. -/
abbrev Byte := BitVec 8
/-- A 32-bit register or memory word (R12). -/
abbrev Word := BitVec 32
/-- A 64-bit pair (R13). -/
abbrev DWord := BitVec 64
/-- One bit for each lane of a wave, bit i for lane i (R16). -/
abbrev Mask := BitVec 32

/-- One value for each of the 32 lanes of a wave (R12). -/
abbrev Lanes (α : Type) := Vector α 32

/-- The lanes of a wave in ascending order. -/
def laneList : List (Fin 32) :=
  [0, 1, 2, 3, 4, 5, 6, 7, 8, 9, 10, 11, 12, 13, 14, 15,
   16, 17, 18, 19, 20, 21, 22, 23, 24, 25, 26, 27, 28, 29, 30, 31]

/-- The lane values given by a function of the lane. -/
def Lanes.ofFn {α : Type} (f : Fin 32 → α) : Lanes α := ⟨⟨laneList.map f⟩, rfl⟩

/-- The same value in every lane. -/
def Lanes.all {α : Type} (x : α) : Lanes α := Lanes.ofFn fun _ => x

@[simp] theorem Lanes.ofFn_get {α : Type} (f : Fin 32 → α) (i : Fin 32) : (Lanes.ofFn f)[i] = f i := by
  revert i
  simp only [Fin.forall_fin_succ]
  simp [Lanes.ofFn, laneList]

@[simp] theorem Lanes.ofFn_get_nat {α : Type} (f : Fin 32 → α) (i : Nat) (h : i < 32) :
    (Lanes.ofFn f)[i] = f ⟨i, h⟩ := Lanes.ofFn_get f ⟨i, h⟩

@[simp] theorem Lanes.all_get {α : Type} (x : α) (i : Fin 32) : (Lanes.all x)[i] = x := by
  simp [Lanes.all]

end Sys2Proof
end

