-- ==== Sys2Proof/Syntax.lean ====
section
/-! DEFINITION. The syntax of the machine: one constructor for each row of the opcode table. A row with a word has the
fields of its word as arguments; a row with no word is an event (a completion, a scheduler decision, a message of a link,
an access of the host), whose arguments are what the event carries. -/

namespace Sys2Proof

/-- What a configuration record carries (R446): the values loaded at boot (R11). -/
structure ConfigRecord where
  permits     : List (List Nat)   -- per link, the permits of channels 0 to 3 (R433), whose sum is its GLOWTOTAL (R416)
  frameTable  : Nat               -- base of the frame table (R398)
  poolBase    : Nat               -- base of the save pool (R413)
  poolPerCore : Nat               -- bytes of the save pool for each core (R413)
  exports     : List Nat          -- the context that each Gollys link exports (R390)
  capHead     : Nat               -- CAPHEAD (R447)
  capList     : List (Nat × Nat × Nat × List (BitVec 8))  -- window offset, ID, VER and body of each capability entry (R449)
  capability  : List (BitVec 128) -- the capability beat of each stack (R442)
  deriving DecidableEq, Repr

/-- The contents of an image or record, by its kind (R445, R446); an image's manifest names its records by KIND and VERSION (R444). -/
inductive RecordBody where
  | image (minVersions : List (Nat × Nat)) (manifest : List (Nat × Nat))
  | configuration (c : ConfigRecord)
  | spareMap (physical0 physical1 : List Nat)
  | repair (rows : List (Nat × Nat)) (links lanes : List Nat)
  | identity (key serial : Nat)
  deriving DecidableEq, Repr

/-- An image or a record with the header of R445. -/
structure SignedObject where
  kind    : Nat
  version : Nat
  len     : Nat
  sig     : Nat
  body    : RecordBody
  deriving DecidableEq, Repr

/-- One constructor for each row of the opcode table. -/
inductive Instr where
  /-- R51. -/
  | dictionaryCode (s : Fin 2) (i : Fin 1024) (l : Fin 16)
  /-- R103. -/
  | addB32 (d : Fin 128) (a : Fin 128) (b : Fin 128)
  /-- R103. -/
  | addSatI32 (d : Fin 128) (a : Fin 128) (b : Fin 128)
  /-- R103. -/
  | addSatN32 (d : Fin 128) (a : Fin 128) (b : Fin 128)
  /-- R103. -/
  | subB32 (d : Fin 128) (a : Fin 128) (b : Fin 128)
  /-- R103. -/
  | subSatI32 (d : Fin 128) (a : Fin 128) (b : Fin 128)
  /-- R103. -/
  | subSatN32 (d : Fin 128) (a : Fin 128) (b : Fin 128)
  /-- R103. -/
  | mulLoB32 (d : Fin 128) (a : Fin 128) (b : Fin 128)
  /-- R103. -/
  | mulHiI32 (d : Fin 128) (a : Fin 128) (b : Fin 128)
  /-- R103. -/
  | mulHiN32 (d : Fin 128) (a : Fin 128) (b : Fin 128)
  /-- R103. -/
  | madB32 (d : Fin 128) (a : Fin 128) (b : Fin 128)
  /-- R103. -/
  | minI32 (d : Fin 128) (a : Fin 128) (b : Fin 128)
  /-- R103. -/
  | minN32 (d : Fin 128) (a : Fin 128) (b : Fin 128)
  /-- R103. -/
  | maxI32 (d : Fin 128) (a : Fin 128) (b : Fin 128)
  /-- R103. -/
  | maxN32 (d : Fin 128) (a : Fin 128) (b : Fin 128)
  /-- R109. -/
  | addB64 (d : Fin 128) (a : Fin 128) (b : Fin 128)
  /-- R109. -/
  | subB64 (d : Fin 128) (a : Fin 128) (b : Fin 128)
  /-- R104. -/
  | addi (d : Fin 128) (a : Fin 128) (i : BitVec 9)
  /-- R104. -/
  | muli (d : Fin 128) (a : Fin 128) (i : BitVec 9)
  /-- R104. -/
  | andi (d : Fin 128) (a : Fin 128) (i : BitVec 9)
  /-- R104. -/
  | ori (d : Fin 128) (a : Fin 128) (i : BitVec 9)
  /-- R104. -/
  | xori (d : Fin 128) (a : Fin 128) (i : BitVec 9)
  /-- R104. -/
  | shli (d : Fin 128) (a : Fin 128) (i : BitVec 9)
  /-- R104. -/
  | shri (d : Fin 128) (a : Fin 128) (i : BitVec 9)
  /-- R104. -/
  | sari (d : Fin 128) (a : Fin 128) (i : BitVec 9)
  /-- R105. -/
  | andB32 (d : Fin 128) (a : Fin 128) (b : Fin 128)
  /-- R105. -/
  | orB32 (d : Fin 128) (a : Fin 128) (b : Fin 128)
  /-- R105. -/
  | xorB32 (d : Fin 128) (a : Fin 128) (b : Fin 128)
  /-- R105. -/
  | andnB32 (d : Fin 128) (a : Fin 128) (b : Fin 128)
  /-- R105. -/
  | shlB32 (d : Fin 128) (a : Fin 128) (b : Fin 128)
  /-- R105. -/
  | shrN32 (d : Fin 128) (a : Fin 128) (b : Fin 128)
  /-- R105. -/
  | sarI32 (d : Fin 128) (a : Fin 128) (b : Fin 128)
  /-- R105. -/
  | rotB32 (d : Fin 128) (a : Fin 128) (b : Fin 128)
  /-- R106. -/
  | popcB32 (d : Fin 128) (a : Fin 128)
  /-- R106. -/
  | clzB32 (d : Fin 128) (a : Fin 128)
  /-- R106. -/
  | ctzB32 (d : Fin 128) (a : Fin 128)
  /-- R106. -/
  | brevB32 (d : Fin 128) (a : Fin 128)
  /-- R107. -/
  | bfeN32 (d : Fin 128) (a : Fin 128) (b : Fin 128)
  /-- R107. -/
  | bfeI32 (d : Fin 128) (a : Fin 128) (b : Fin 128)
  /-- R108. -/
  | bfiB32 (d : Fin 128) (a : Fin 128) (b : Fin 128)
  /-- R115. -/
  | permB8 (d : Fin 128) (a : Fin 128) (b : Fin 128)
  /-- R116. -/
  | lutN4 (d : Fin 128) (a : Fin 128) (b : Fin 128)
  /-- R117. -/
  | movB32 (d : Fin 128) (a : Fin 128)
  /-- R117. -/
  | movB64 (d : Fin 128) (a : Fin 128)
  /-- R117. -/
  | movs (d : Fin 128) (a : Fin 128)
  /-- R111. -/
  | cmpEqB32 (d : Fin 128) (a : Fin 128) (b : Fin 128)
  /-- R111. -/
  | cmpEqF32 (d : Fin 128) (a : Fin 128) (b : Fin 128)
  /-- R111. -/
  | cmpNeB32 (d : Fin 128) (a : Fin 128) (b : Fin 128)
  /-- R111. -/
  | cmpNeF32 (d : Fin 128) (a : Fin 128) (b : Fin 128)
  /-- R111. -/
  | cmpLtI32 (d : Fin 128) (a : Fin 128) (b : Fin 128)
  /-- R111. -/
  | cmpLtN32 (d : Fin 128) (a : Fin 128) (b : Fin 128)
  /-- R111. -/
  | cmpLtF32 (d : Fin 128) (a : Fin 128) (b : Fin 128)
  /-- R111. -/
  | cmpLeI32 (d : Fin 128) (a : Fin 128) (b : Fin 128)
  /-- R111. -/
  | cmpLeN32 (d : Fin 128) (a : Fin 128) (b : Fin 128)
  /-- R111. -/
  | cmpLeF32 (d : Fin 128) (a : Fin 128) (b : Fin 128)
  /-- R113. -/
  | sel (d : Fin 128) (a : Fin 128) (b : Fin 128) (p : Fin 4)
  /-- R120. -/
  | xlaneFrom (d : Fin 128) (a : Fin 128) (b : Fin 128)
  /-- R120. -/
  | xlaneBack (d : Fin 128) (a : Fin 128) (b : Fin 128)
  /-- R120. -/
  | xlaneFwd (d : Fin 128) (a : Fin 128) (b : Fin 128)
  /-- R120. -/
  | xlaneSwap (d : Fin 128) (a : Fin 128) (b : Fin 128)
  /-- R121. -/
  | lshB32 (d : Fin 128) (a : Fin 128) (b : Fin 128)
  /-- R121. -/
  | lshB8 (d : Fin 128) (a : Fin 128) (b : Fin 128)
  /-- R122. -/
  | bcast (d : Fin 128) (a : Fin 128) (l : Fin 128)
  /-- R123. -/
  | wtestEvery (d : Fin 128) (a : Fin 128)
  /-- R123. -/
  | wtestSome (d : Fin 128) (a : Fin 128)
  /-- R123. -/
  | wtestAgree (d : Fin 128) (a : Fin 128)
  /-- R124. -/
  | ballot (d : Fin 128) (a : Fin 128)
  /-- R150. -/
  | faddF32 (d : Fin 128) (a : Fin 128) (b : Fin 128) (r : Fin 4)
  /-- R150. -/
  | fsubF32 (d : Fin 128) (a : Fin 128) (b : Fin 128) (r : Fin 4)
  /-- R150. -/
  | fmulF32 (d : Fin 128) (a : Fin 128) (b : Fin 128) (r : Fin 4)
  /-- R150. -/
  | ffmaF32 (d : Fin 128) (a : Fin 128) (b : Fin 128) (r : Fin 4)
  /-- R151. -/
  | fminF32 (d : Fin 128) (a : Fin 128) (b : Fin 128)
  /-- R151. -/
  | fminNumF32 (d : Fin 128) (a : Fin 128) (b : Fin 128)
  /-- R151. -/
  | fmaxF32 (d : Fin 128) (a : Fin 128) (b : Fin 128)
  /-- R151. -/
  | fmaxNumF32 (d : Fin 128) (a : Fin 128) (b : Fin 128)
  /-- R152. -/
  | fabsF32 (d : Fin 128) (a : Fin 128)
  /-- R152. -/
  | fnegF32 (d : Fin 128) (a : Fin 128)
  /-- R152. -/
  | fcopysignF32 (d : Fin 128) (a : Fin 128) (b : Fin 128)
  /-- R154. -/
  | frcpF32 (d : Fin 128) (a : Fin 128) (l : Fin 16)
  /-- R154. -/
  | frsqF32 (d : Fin 128) (a : Fin 128) (l : Fin 16)
  /-- R154. -/
  | fsqrtF32 (d : Fin 128) (a : Fin 128) (r : Fin 4) (l : Fin 16)
  /-- R154. -/
  | fexp2F32 (d : Fin 128) (a : Fin 128) (l : Fin 16)
  /-- R154. -/
  | flog2F32 (d : Fin 128) (a : Fin 128) (l : Fin 16)
  /-- R154. -/
  | fsinF32 (d : Fin 128) (a : Fin 128) (l : Fin 16)
  /-- R154. -/
  | fcosF32 (d : Fin 128) (a : Fin 128) (l : Fin 16)
  /-- R158. -/
  | cvtf (d : Fin 128) (a : Fin 128) (y : Fin 8) (x : Fin 8) (r : Fin 4)
  /-- R158. -/
  | cvti (d : Fin 128) (a : Fin 128) (y : Fin 8) (x : Fin 8) (r : Fin 4)
  /-- R159. -/
  | sbpackSb3 (d : Fin 128) (a : Fin 128)
  /-- R159. -/
  | sbpackSb5 (d : Fin 128) (a : Fin 128)
  /-- R159. -/
  | sbpackSb8 (d : Fin 128) (a : Fin 128)
  /-- R160. -/
  | sbunpSb3 (d : Fin 128) (a : Fin 128)
  /-- R160. -/
  | sbunpSb5 (d : Fin 128) (a : Fin 128)
  /-- R160. -/
  | sbunpSb8 (d : Fin 128) (a : Fin 128)
  /-- R161. -/
  | ckAccB32 (h : Fin 128) (a : Fin 128)
  /-- R161. -/
  | ckAccB64 (h : Fin 128) (a : Fin 128)
  /-- R171. -/
  | ldN8 (d : Fin 128) (a : Fin 128) (b : Fin 32) (l : Fin 16)
  /-- R171. -/
  | ldI8 (d : Fin 128) (a : Fin 128) (b : Fin 32) (l : Fin 16)
  /-- R171. -/
  | ldN16 (d : Fin 128) (a : Fin 128) (b : Fin 32) (l : Fin 16)
  /-- R171. -/
  | ldB32 (d : Fin 128) (a : Fin 128) (b : Fin 32) (l : Fin 16)
  /-- R171. -/
  | ldB64 (d : Fin 128) (a : Fin 128) (b : Fin 32) (l : Fin 16)
  /-- R174. -/
  | ldRoB32 (d : Fin 128) (a : Fin 128) (b : Fin 32) (l : Fin 16)
  /-- R174. -/
  | ldRoB64 (d : Fin 128) (a : Fin 128) (b : Fin 32) (l : Fin 16)
  /-- R171. -/
  | stB8 (s : Fin 128) (a : Fin 128) (b : Fin 32)
  /-- R171. -/
  | stB16 (s : Fin 128) (a : Fin 128) (b : Fin 32)
  /-- R171. -/
  | stB32 (s : Fin 128) (a : Fin 128) (b : Fin 32)
  /-- R171. -/
  | stB64 (s : Fin 128) (a : Fin 128) (b : Fin 32)
  /-- R175. -/
  | stNtB32 (s : Fin 128) (a : Fin 128) (b : Fin 32)
  /-- R175. -/
  | stNtB64 (s : Fin 128) (a : Fin 128) (b : Fin 32)
  /-- R185. -/
  | tst (s : Fin 128) (a : Fin 128) (b : Fin 32)
  /-- R186. -/
  | retract (p : Fin 128) (a : Fin 128) (b : Fin 32) (l : Fin 16)
  /-- R171. -/
  | ldsN8 (d : Fin 128) (a : Fin 128) (b : Fin 32) (l : Fin 16)
  /-- R171. -/
  | ldsN16 (d : Fin 128) (a : Fin 128) (b : Fin 32) (l : Fin 16)
  /-- R171. -/
  | ldsB32 (d : Fin 128) (a : Fin 128) (b : Fin 32) (l : Fin 16)
  /-- R171. -/
  | ldsB64 (d : Fin 128) (a : Fin 128) (b : Fin 32) (l : Fin 16)
  /-- R171. -/
  | stsB8 (s : Fin 128) (a : Fin 128) (b : Fin 32)
  /-- R171. -/
  | stsB16 (s : Fin 128) (a : Fin 128) (b : Fin 32)
  /-- R171. -/
  | stsB32 (s : Fin 128) (a : Fin 128) (b : Fin 32)
  /-- R171. -/
  | stsB64 (s : Fin 128) (a : Fin 128) (b : Fin 32)
  /-- R196. -/
  | atomAdd (d : Fin 128) (a : Fin 128) (b : Fin 8) (o : Fin 4) (l : Fin 16)
  /-- R196. -/
  | atomMin (d : Fin 128) (a : Fin 128) (b : Fin 8) (o : Fin 4) (l : Fin 16)
  /-- R196. -/
  | atomMax (d : Fin 128) (a : Fin 128) (b : Fin 8) (o : Fin 4) (l : Fin 16)
  /-- R196. -/
  | atomAnd (d : Fin 128) (a : Fin 128) (b : Fin 8) (o : Fin 4) (l : Fin 16)
  /-- R196. -/
  | atomOr (d : Fin 128) (a : Fin 128) (b : Fin 8) (o : Fin 4) (l : Fin 16)
  /-- R196. -/
  | atomXor (d : Fin 128) (a : Fin 128) (b : Fin 8) (o : Fin 4) (l : Fin 16)
  /-- R196. -/
  | atomXchg (d : Fin 128) (a : Fin 128) (b : Fin 8) (o : Fin 4) (l : Fin 16)
  /-- R196. -/
  | atomCas (d : Fin 128) (a : Fin 128) (b : Fin 8) (o : Fin 4) (l : Fin 16)
  /-- R187. -/
  | settle (a : Fin 128) (b : Fin 32)
  /-- R200. -/
  | redF32 (s : Fin 128) (a : Fin 128) (b : Fin 32)
  /-- R201. -/
  | redBf16 (s : Fin 128) (a : Fin 128) (b : Fin 32)
  /-- R201. -/
  | redE4m3 (s : Fin 128) (a : Fin 128) (b : Fin 32)
  /-- R201. -/
  | redE5m2 (s : Fin 128) (a : Fin 128) (b : Fin 32)
  /-- R248. -/
  | combLd (d : Fin 128) (a : Fin 128) (b : Fin 32) (l : Fin 16)
  /-- R248. -/
  | combSt (s : Fin 128) (a : Fin 128) (b : Fin 32)
  /-- R224. -/
  | epiSt (f : Fin 8) (t : Fin 16) (a : Fin 128) (b : Fin 32)
  /-- R219. -/
  | mma (t : Fin 16) (x : Fin 8) (y : Fin 8) (s : Fin 256) (l : Fin 16)
  /-- R219. -/
  | mmaZ (t : Fin 16) (x : Fin 8) (y : Fin 8) (s : Fin 256) (l : Fin 16)
  /-- R222. -/
  | accZero (t : Fin 16) (s : Fin 2)
  /-- R222. -/
  | accMov (d : Fin 16) (a : Fin 16) (s : Fin 2)
  /-- R222. -/
  | accRd (d : Fin 128) (t : Fin 16) (c : Fin 128)
  /-- R222. -/
  | accWr (t : Fin 16) (a : Fin 128) (c : Fin 128)
  /-- R267. -/
  | gets (d : Fin 128) (n : Fin 512)
  /-- R236. -/
  | qpush (s : Fin 128) (q : Fin 16)
  /-- R236. -/
  | qpop (d : Fin 128) (q : Fin 16) (l : Fin 16)
  /-- R103. -/
  | gAddB32 (d : Fin 128) (a : Fin 128) (b : Fin 128)
  /-- R103. -/
  | gAddSatI32 (d : Fin 128) (a : Fin 128) (b : Fin 128)
  /-- R103. -/
  | gAddSatN32 (d : Fin 128) (a : Fin 128) (b : Fin 128)
  /-- R103. -/
  | gSubB32 (d : Fin 128) (a : Fin 128) (b : Fin 128)
  /-- R103. -/
  | gSubSatI32 (d : Fin 128) (a : Fin 128) (b : Fin 128)
  /-- R103. -/
  | gSubSatN32 (d : Fin 128) (a : Fin 128) (b : Fin 128)
  /-- R103. -/
  | gMulLoB32 (d : Fin 128) (a : Fin 128) (b : Fin 128)
  /-- R103. -/
  | gMulHiI32 (d : Fin 128) (a : Fin 128) (b : Fin 128)
  /-- R103. -/
  | gMulHiN32 (d : Fin 128) (a : Fin 128) (b : Fin 128)
  /-- R103. -/
  | gMadB32 (d : Fin 128) (a : Fin 128) (b : Fin 128)
  /-- R103. -/
  | gMinI32 (d : Fin 128) (a : Fin 128) (b : Fin 128)
  /-- R103. -/
  | gMinN32 (d : Fin 128) (a : Fin 128) (b : Fin 128)
  /-- R103. -/
  | gMaxI32 (d : Fin 128) (a : Fin 128) (b : Fin 128)
  /-- R103. -/
  | gMaxN32 (d : Fin 128) (a : Fin 128) (b : Fin 128)
  /-- R109. -/
  | gAddB64 (d : Fin 128) (a : Fin 128) (b : Fin 128)
  /-- R109. -/
  | gSubB64 (d : Fin 128) (a : Fin 128) (b : Fin 128)
  /-- R104. -/
  | gAddi (d : Fin 128) (a : Fin 128) (i : BitVec 9)
  /-- R104. -/
  | gMuli (d : Fin 128) (a : Fin 128) (i : BitVec 9)
  /-- R104. -/
  | gAndi (d : Fin 128) (a : Fin 128) (i : BitVec 9)
  /-- R104. -/
  | gOri (d : Fin 128) (a : Fin 128) (i : BitVec 9)
  /-- R104. -/
  | gXori (d : Fin 128) (a : Fin 128) (i : BitVec 9)
  /-- R104. -/
  | gShli (d : Fin 128) (a : Fin 128) (i : BitVec 9)
  /-- R104. -/
  | gShri (d : Fin 128) (a : Fin 128) (i : BitVec 9)
  /-- R104. -/
  | gSari (d : Fin 128) (a : Fin 128) (i : BitVec 9)
  /-- R105. -/
  | gAndB32 (d : Fin 128) (a : Fin 128) (b : Fin 128)
  /-- R105. -/
  | gOrB32 (d : Fin 128) (a : Fin 128) (b : Fin 128)
  /-- R105. -/
  | gXorB32 (d : Fin 128) (a : Fin 128) (b : Fin 128)
  /-- R105. -/
  | gAndnB32 (d : Fin 128) (a : Fin 128) (b : Fin 128)
  /-- R105. -/
  | gShlB32 (d : Fin 128) (a : Fin 128) (b : Fin 128)
  /-- R105. -/
  | gShrN32 (d : Fin 128) (a : Fin 128) (b : Fin 128)
  /-- R105. -/
  | gSarI32 (d : Fin 128) (a : Fin 128) (b : Fin 128)
  /-- R105. -/
  | gRotB32 (d : Fin 128) (a : Fin 128) (b : Fin 128)
  /-- R106. -/
  | gPopcB32 (d : Fin 128) (a : Fin 128)
  /-- R106. -/
  | gClzB32 (d : Fin 128) (a : Fin 128)
  /-- R106. -/
  | gCtzB32 (d : Fin 128) (a : Fin 128)
  /-- R106. -/
  | gBrevB32 (d : Fin 128) (a : Fin 128)
  /-- R107. -/
  | gBfeN32 (d : Fin 128) (a : Fin 128) (b : Fin 128)
  /-- R107. -/
  | gBfeI32 (d : Fin 128) (a : Fin 128) (b : Fin 128)
  /-- R108. -/
  | gBfiB32 (d : Fin 128) (a : Fin 128) (b : Fin 128)
  /-- R117. -/
  | gMovB32 (d : Fin 128) (a : Fin 128)
  /-- R117. -/
  | gMovB64 (d : Fin 128) (a : Fin 128)
  /-- R110. -/
  | lcLo (d : Fin 128) (i : BitVec 16)
  /-- R110. -/
  | lcHi (d : Fin 128) (i : BitVec 16)
  /-- R112. -/
  | gCmpEqB32 (d : Fin 128) (a : Fin 128) (b : Fin 128)
  /-- R112. -/
  | gCmpEqF32 (d : Fin 128) (a : Fin 128) (b : Fin 128)
  /-- R112. -/
  | gCmpNeB32 (d : Fin 128) (a : Fin 128) (b : Fin 128)
  /-- R112. -/
  | gCmpNeF32 (d : Fin 128) (a : Fin 128) (b : Fin 128)
  /-- R112. -/
  | gCmpLtI32 (d : Fin 128) (a : Fin 128) (b : Fin 128)
  /-- R112. -/
  | gCmpLtN32 (d : Fin 128) (a : Fin 128) (b : Fin 128)
  /-- R112. -/
  | gCmpLtF32 (d : Fin 128) (a : Fin 128) (b : Fin 128)
  /-- R112. -/
  | gCmpLeI32 (d : Fin 128) (a : Fin 128) (b : Fin 128)
  /-- R112. -/
  | gCmpLeN32 (d : Fin 128) (a : Fin 128) (b : Fin 128)
  /-- R112. -/
  | gCmpLeF32 (d : Fin 128) (a : Fin 128) (b : Fin 128)
  /-- R150. -/
  | gFaddF32 (d : Fin 128) (a : Fin 128) (b : Fin 128) (r : Fin 4)
  /-- R150. -/
  | gFsubF32 (d : Fin 128) (a : Fin 128) (b : Fin 128) (r : Fin 4)
  /-- R150. -/
  | gFmulF32 (d : Fin 128) (a : Fin 128) (b : Fin 128) (r : Fin 4)
  /-- R150. -/
  | gFfmaF32 (d : Fin 128) (a : Fin 128) (b : Fin 128) (r : Fin 4)
  /-- R128. -/
  | br (f : BitVec 23)
  /-- R129. -/
  | call (f : BitVec 23)
  /-- R130. -/
  | jmp (a : Fin 128)
  /-- R131. -/
  | ret (a : Fin 128)
  /-- R62. -/
  | guard (p : Fin 8) (n : Fin 16)
  /-- R62. -/
  | guardN (p : Fin 8) (n : Fin 16)
  /-- R132. -/
  | exit
  /-- R137. -/
  | yield
  /-- R139. -/
  | join (k : Fin 16)
  /-- R140. -/
  | leave (k : Fin 16)
  /-- R141. -/
  | wait (k : Fin 16)
  /-- R206. -/
  | barG
  /-- R207. -/
  | barC
  /-- R145. -/
  | kmov (a : Fin 16) (d : Fin 16)
  /-- R280. -/
  | trap (c : BitVec 8)
  /-- R281. -/
  | rett
  /-- R282. -/
  | nop
  /-- R282. -/
  | sleep (a : Fin 128)
  /-- R267. -/
  | gGets (d : Fin 128) (n : Fin 512)
  /-- R268. -/
  | sets (s : Fin 128) (n : Fin 512) (x : Fin 2)
  /-- R277. -/
  | acquire
  /-- R277. -/
  | acquireExplicit (a : Fin 128)
  /-- R272. -/
  | spawn (r : Fin 128) (n : Fin 128)
  /-- R273. -/
  | joindec (r : Fin 128)
  /-- R275. -/
  | cancel (d : Fin 128)
  /-- R271. -/
  | submit (d : Fin 128) (p : Fin 128)
  /-- R235. -/
  | qbind (p : Fin 16) (q : Fin 16)
  /-- R204. -/
  | fenceAcq
  /-- R204. -/
  | fenceRel
  /-- R204. -/
  | fenceFull
  /-- R175. -/
  | drainNt
  /-- R177. -/
  | wbRange (a : Fin 128) (b : Fin 128)
  /-- R178. -/
  | invRange (a : Fin 128) (b : Fin 128)
  /-- R171. -/
  | ldgB32 (d : Fin 128) (a : Fin 128) (i : BitVec 9)
  /-- R171. -/
  | ldgB64 (d : Fin 128) (a : Fin 128) (i : BitVec 9)
  /-- R171. -/
  | stgB32 (d : Fin 128) (a : Fin 128) (i : BitVec 9)
  /-- R171. -/
  | stgB64 (d : Fin 128) (a : Fin 128) (i : BitVec 9)
  /-- R179. -/
  | cpSc (a : Fin 128) (b : Fin 128)
  /-- R181. -/
  | waitAny (a : Fin 128)
  /-- R181. -/
  | waitAll (a : Fin 128)
  /-- R181. -/
  | ffrTag (d : Fin 128) (a : Fin 128)
  /-- R181. -/
  | ffrTagHeld (d : Fin 128) (a : Fin 128)
  /-- R182. -/
  | prefetch (a : Fin 128)
  /-- R182. -/
  | prefetchL2 (a : Fin 128)
  /-- R171. -/
  | ldsgB32 (d : Fin 128) (a : Fin 128) (i : BitVec 9)
  /-- R171. -/
  | stsgB32 (d : Fin 128) (a : Fin 128) (i : BitVec 9)
  /-- R118. -/
  | rdlane (d : Fin 128) (a : Fin 128) (l : Fin 32) (k : Fin 16)
  /-- R241. -/
  | cpy (d : Fin 128) (s : Fin 128) (l : Fin 32)
  /-- R240. -/
  | relayout (d : Fin 128) (s : Fin 128) (t : Fin 32)
  /-- R246. -/
  | pub (b : Fin 128)
  /-- R245. -/
  | pubOpen (b : Fin 128) (l : Fin 128)
  /-- R244. -/
  | pubDrop (b : Fin 128)
  /-- R244. -/
  | pubClose (b : Fin 128)
  /-- R118. -/
  | wrlane (d : Fin 128) (a : Fin 128) (l : Fin 32)
  /-- R118. -/
  | votec (d : Fin 128) (p : Fin 8) (k : Fin 16)
  /-- R164. -/
  | ckChk (m : Fin 4) (b : Fin 4) (a : Fin 16)
  /-- R211. -/
  | obres (a : Fin 128) (n : Fin 8)
  /-- R214. -/
  | obfill (a : Fin 128) (b : Fin 128) (n : Fin 8)
  /-- R215. -/
  | obfillX (a : Fin 128) (b : Fin 128) (n : Fin 8)
  /-- R229. -/
  | cmergeSoft (r : Fin 16) (o : Fin 2) (t : Fin 16) (l : Fin 16)
  /-- R229. -/
  | cmergeSum (r : Fin 16) (o : Fin 2) (t : Fin 16) (l : Fin 16)
  /-- R229. -/
  | cmergeIsum (r : Fin 16) (o : Fin 2) (t : Fin 16) (l : Fin 16)
  /-- R251. -/
  | attnQk (h : Fin 64) (t : Fin 16) (q : Fin 8) (n : Fin 32) (l : Fin 16)
  /-- R252. -/
  | attnPv (h : Fin 64) (o : Fin 16) (p : Fin 16) (n : Fin 32) (l : Fin 16)
  /-- R254. -/
  | combSum (h : Fin 64) (t : Fin 16) (q : Fin 8) (n : Fin 32) (l : Fin 16)
  /-- R255. -/
  | topk (d : Fin 128) (k : Fin 32) (t : Fin 16) (l : Fin 16)
  /-- R255. -/
  | topkC (d : Fin 128) (k : Fin 32) (t : Fin 16) (l : Fin 16)
  /-- R256. -/
  | gatherComb (h : Fin 64) (m : Fin 32) (q : Fin 16)
  /-- R212. -/
  | obrel (m : BitVec 8)
  /-- R260. -/
  | fabStr (c : Fin 64) (q : Fin 16)
  /-- R261. -/
  | fabA2a (c : Fin 64) (q : Fin 16)
  /-- R262. -/
  | fabRing (c : Fin 64) (q : Fin 16)
  /-- R237. -/
  | qstat (d : Fin 128) (q : Fin 16)
  /-- R394. -/
  | tlbinv (v : Fin 64) (s : Fin 4)
  /-- R196. -/
  | atomgAdd (d : Fin 128) (a : Fin 128) (i : BitVec 9)
  /-- R196. -/
  | atomgCas (d : Fin 128) (a : Fin 128) (i : BitVec 9)
  /-- R112. -/
  | cmpiEq (d : Fin 128) (a : Fin 128) (i : BitVec 9)
  /-- R112. -/
  | cmpiLt (d : Fin 128) (a : Fin 128) (i : BitVec 9)
  /-- R114. -/
  | selz (d : Fin 128) (a : Fin 128) (b : Fin 128)
  /-- R146. -/
  | popk (d : Fin 128) (k : Fin 16)
  /-- R187. -/
  | settleAll
  /-- R395. -/
  | migrate (v : Fin 64) (p : Fin 64) (d : Fin 128)
  /-- R282. -/
  | icinv
  /-- R403. -/
  | combInv (h : Fin 64) (s : Fin 4)
  /-- R280. -/
  | bkpt
  /-- R282. -/
  | halt
  /-- R56. -/
  | longLatencyCompletion (i : Nat)
  /-- R407. -/
  | handlerEntry
  /-- R274. -/
  | groupEnd
  /-- R332. -/
  | groupAdmission (core : Nat)
  /-- R327. -/
  | distributorRefill (die : Nat)
  /-- R328. -/
  | stealRequest (die : Nat)
  /-- R328. -/
  | stealAnswer (die : Nat)
  /-- R329. -/
  | queueBalancing (die : Nat)
  /-- R278. -/
  | acquireGrant (core : Nat)
  /-- R333. -/
  | acquireDeadlockSave (core : Nat)
  /-- R335. -/
  | latencyTakeBack (die : Nat)
  /-- R340. -/
  | drainTimeout (uid : Nat)
  /-- R412. -/
  | groupSave (uid : Nat)
  /-- R413. -/
  | groupRestore (core i : Nat)
  /-- R338. -/
  | budgetExhausted (die i : Nat)
  /-- R338. -/
  | deadlineExpiry (die i : Nat)
  /-- R339. -/
  | floorLost (die : Nat)
  /-- R339. -/
  | floorRegained (die : Nat)
  /-- R343. -/
  | midgeStart (uid : Nat)
  /-- R344. -/
  | midgeEnd (uid : Nat)
  /-- R282. -/
  | sleepExpiry
  /-- R451. -/
  | haltResume (uid : Nat)
  /-- R451. -/
  | haltedGroupCancel (uid : Nat)
  /-- R180. -/
  | copyCompletion (i : Nat)
  /-- R225. -/
  | epilogueRowStore (i : Nat)
  /-- R257. -/
  | gatherCommand (i : Nat)
  /-- R259. -/
  | fabricCommandCompletion (i status : Nat)
  /-- R350. -/
  | missFillArrival (core i : Nat)
  /-- R353. -/
  | ownershipRevocation (core word : Nat)
  /-- R355. -/
  | l2Replacement (line : Nat)
  /-- R356. -/
  | guestFill (agent line : Nat)
  /-- R358. -/
  | directoryFanOut (agent addr : Nat) (data : List (BitVec 8))
  /-- R358. -/
  | invalidation (link line : Nat)
  /-- R358. -/
  | invalidationAnswer (agent line : Nat) (present : Bool)
  /-- R361. -/
  | invtoExpiry (agent line : Nat)
  /-- R362. -/
  | rejoin (agent : Nat)
  /-- R372. -/
  | sourceProbe (line : Nat)
  /-- R374. -/
  | baseDieMaterialise (i : Nat)
  /-- R388. -/
  | faultSlotFreed (ctx : Nat)
  /-- R389. -/
  | engineWalkRetry (i : Nat)
  /-- R390. -/
  | leaseRequest (link window : Nat)
  /-- R390. -/
  | leaseAnswer (link window frame : Nat) (writable nc refused : Bool)
  /-- R392. -/
  | recall (link frame : Nat)
  /-- R392. -/
  | recallAcknowledgement (link frame : Nat)
  /-- R391. -/
  | leaseRelease (link frame : Nat)
  /-- R395. -/
  | migrationCopyDone (i code : Nat)
  /-- R432. -/
  | gollysRead (link addr len tag : Nat)
  /-- R432. -/
  | gollysWrite (link addr tag : Nat) (data : List (BitVec 8))
  /-- R432. -/
  | gollysAtomic (link op addr tag : Nat) (x y : BitVec 32)
  /-- R432. -/
  | gollysResponse (link tag status : Nat) (data : List (BitVec 8))
  /-- R432. -/
  | fabricData (link dst msg op : Nat) (data : List (BitVec 8))
  /-- R432: `msg` is eight times the number of the message answered, plus the status of R259 that it reports. -/
  | fabricAcknowledgement (link msg : Nat)
  /-- R415. -/
  | gollysAuditMarker (link : Nat)
  /-- R415. -/
  | gollysAuditEcho (link occupied : Nat)
  /-- R434. -/
  | idle (link ack : Nat) (permits : Nat × Nat) (own : Bool)
  /-- R434. -/
  | idleSend (link : Nat)
  /-- R436. -/
  | bridgeMessage (dir : Nat) (payload : List (BitVec 8))
  /-- R434: the link, the last flit or message that has arrived, and the flit that fails. -/
  | crcFailureReplay (event : Nat × Nat × List (BitVec 8))
  /-- R434. -/
  | linkDown (link : Nat)
  /-- R415. -/
  | glowwormAudit (link : Nat)
  /-- R435. -/
  | liveRecalibration (link : Nat)
  /-- R435. -/
  | recalibrationTimeout (link : Nat)
  /-- R438. -/
  | isaisRead (stack tag addr : Nat)
  /-- R438. -/
  | maskedWrite (stack tag addr : Nat) (mask : BitVec 64) (data : List (BitVec 8)) (marks : BitVec 16)
  /-- R423: the beats are the data and the raw bits expected. -/
  | compareWrite (stack : Nat) (tag : Option Nat) (addr : Nat) (beats : List (BitVec 8) × List (BitVec 8))
  /-- R438. -/
  | poisonReport (stack addr : Nat) (marks : BitVec 16)
  /-- R438: the place is an address and its row. -/
  | scrubReport (stack : Nat) (place : Nat × Nat) (corrected kind : Nat)
  /-- R438: the step is its TAG, where it asks for an answer, and LEN. -/
  | calibration (stack : Nat) (step : Option Nat × Nat)
  /-- R443. -/
  | script (stack tag : Nat) (cmds : List (BitVec 128)) (fromControl : Bool)
  /-- R442. -/
  | capabilityRead (stack tag : Nat)
  /-- R438. -/
  | isaisReply (stack tag status : Nat)
  /-- R439. -/
  | isaisAuditMarker (stack : Nat)
  /-- R439. -/
  | isaisAuditEcho (stack occupied : Nat)
  /-- R441. -/
  | isaisRequestTimeout (stack tag : Nat)
  /-- R423. -/
  | weevilBurst (channel : Nat) (corrected uncorrectable : Bool)
  /-- R420. -/
  | uncorrectableStateError (uid array index : Nat)
  /-- R425. -/
  | deviceFault (kind index : Nat)
  /-- R425. -/
  | freezeL
  /-- R444. -/
  | deviceReset (objects : List SignedObject)
  /-- R444. -/
  | bootRetry (objects : List SignedObject)
  /-- R447. -/
  | devcmdReset (objects : List SignedObject)
  /-- R447. -/
  | devcmdFreeze
  /-- R429. -/
  | hostsub (value : BitVec 64)
  /-- R429. -/
  | hostSubmitRetry
  /-- R429. -/
  | hoststatRejoin
  /-- R428: the head is the tag and the kind. -/
  | hostAccess (head : Nat × Nat) (addr : Nat) (data : List (BitVec 8))
  /-- R448. -/
  | ctxctlCreate (ctx : Nat)
  /-- R448. -/
  | ctxctlTearDown (ctx : Nat)
  /-- R448. -/
  | contextTeardownDone (ctx : Nat)
  /-- R363. -/
  | cohcfgWrite (die : Nat) (value : BitVec 32)
  /-- R450. -/
  | attestationNonce (nonce : BitVec 256)
  /-- R450. -/
  | attestationReportReady
  /-- R10. -/
  | registerWrite (privileged : Bool) (offset : Nat) (value : BitVec 64)
  /-- R451. -/
  | firmwareUpdate (image : SignedObject)
  /-- R451. -/
  | spareCoreSwap (core : Nat) (record : SignedObject)
  /-- R451. -/
  | rowSparing (record : SignedObject)
  /-- R451. -/
  | configurationRecord (record : SignedObject)
  /-- R362. -/
  | linkUp (link : Nat)
  /-- R430. -/
  | laneFailure (link : Nat)
  /-- R340. -/
  | takeBackRequest (uid : Nat)
  /-- R428. -/
  | cxlCacheResponse (line : Nat) (exclusive : Bool) (data : List (BitVec 8))
  deriving DecidableEq, Repr

end Sys2Proof
end

