-- ==== Sys2Proof/Config.lean ====
section
/-! DEFINITION. What an implementation fixes and the values the manual leaves open. Every opaque constant here has no body:
no proof can see its value, and each is named in a log entry. -/

namespace Sys2Proof.Config

/-- The n-th choice that the manual leaves to the device: which of several allowed orders or values (R466, R234, R298). -/
opaque pick : Nat → Nat

/-- Ticks of the reference clock that pass, beyond one, during the n-th step (R38: no latency is fixed). -/
opaque ticks : Nat → Nat

/-- Arithmetic-clock cycles of a core charged for the n-th step (R337; the clock of R5 is not fixed tick for tick, and may differ from core to core). -/
opaque cycles : Nat → Nat → Nat

/-- The approximations of R154, whose last bits R155 leaves to the device within the bounds of R154. -/
opaque frcp : BitVec 32 → BitVec 32
opaque frsq : BitVec 32 → BitVec 32
opaque fexp2 : BitVec 32 → BitVec 32
opaque flog2 : BitVec 32 → BitVec 32
opaque fsin : BitVec 32 → BitVec 32
opaque fcos : BitVec 32 → BitVec 32

/-- Whether the signature of an object verifies against the certified key (R444 step 3); RSA-4096 is not unfolded. -/
opaque verifies : SignedObject → Bool

/-- Whether the n-th training of links at boot succeeds (R444 step 5). -/
opaque trains : Nat → Bool

/-- The SHA-512 digest of an object, and the n-th signature by the identity key over the bytes of a report (R450). -/
opaque digest : SignedObject → List (BitVec 8)
opaque signature : Nat → Nat → List (BitVec 8) → List (BitVec 8)

/-- The errors that the codes of the arrays on the compute dies correct during the n-th step (R418). -/
opaque corrected : Nat → Nat

/-- The check bits that an array keeps beside its data, by the array's code (R418, R426). -/
opaque checkBits : Nat → List (BitVec 8) → List (BitVec 8)

/-- The raw 80-byte codeword that a DRAM burst holds for its 64 data bytes (R418: the code is not given). -/
opaque codeword : List (BitVec 8) → List (BitVec 8)

/-- The row of its channel that a burst of a stack lies in (R422, R441): the manual gives no such map. -/
opaque rowOf : Nat → Nat

/-- The burst of a channel that stands at a place of a row, the bursts of a row and the rows of a channel (R422): the manual gives no such map. -/
opaque burstAt : Nat → Nat → Nat → Nat
opaque burstsPerRow : Nat
opaque rowsPerChannel : Nat

/-- The raw bits of a burst whose codeword is in error, as the n-th read finds them (R423). -/
opaque rawBits : Nat → List (BitVec 8) → List (BitVec 8)

/-- The element of a channel that the source block of a gather reference does not hold, by address and channel: R257 and R401
state no value where the source's format is narrower than its reader's (log entry 9). -/
opaque noElement : Nat → Nat → BitVec 32

/-- Cores of a die, waves and groups of a core (R2, R31). -/
def coresPerDie : Nat := 144
/-- Cores of a die with its six spares (R1). -/
def physicalPerDie : Nat := 150
def groupsPerCore : Nat := 32
def wavesPerCore : Nat := 64
/-- Lane registers of a core in wave-registers, tiles, operand-buffer KiB and scratch in 4 KiB units (R31). -/
def coreVregs : Nat := 4096
def coreTiles : Nat := 64
def coreObuf : Nat := 48
def coreScratch : Nat := 64
/-- Slices of a die, cells, side bands and Scarab entries of a slice (R4, R203, R365). -/
def slicesPerDie : Nat := 160
def cellsPerSlice : Nat := 128
def bandsPerSlice : Nat := 32
def l2Ways : Nat := 16
def l2Sets : Nat := 256
def aliasesPerSlice : Nat := 256
/-- Directory entries of a slice (R357). -/
def regionsPerSlice : Nat := 2048
def blocksPerSlice : Nat := 256

end Sys2Proof.Config
end

