-- ==== Sys2Proof/Machine/State.lean ====
section
/-! DEFINITION. The state of the machine as plain data: everything the manual gives a wave, a group, a core, a die, a context
and the package, and the machine right after reset. -/

namespace Sys2Proof.Machine

/-- Memory by address: strictly rising addresses, no entry equal to what an unlisted address reads as. -/
abbrev Mem := List Host.Cell

/-- What an unlisted address of memory reads as. DESIGN CHOICE (log entry 4): 0. -/
def Mem.blank : Byte := 0

/-- The canonical form of memory. -/
def Mem.wf : Mem → Bool
  | [] => true
  | [c] => c.2 != Mem.blank
  | c :: d :: m => c.2 != Mem.blank && decide (c.1 < d.1) && Mem.wf (d :: m)

/-- STATE of a PC-table entry, with KIDX for a waiting lane (R24). -/
inductive LaneState where
  | ready
  | waiting (k : Fin 16)
  | parked
  | exited
  | inactive
  deriving DecidableEq, Repr

/-- The guard window of a lane (R62). -/
structure Guard where
  count : Nat
  pred  : Fin 8
  neg   : Bool
  deriving DecidableEq, Repr

/-- The trap record of a lane (R407): the word of %trapcause, the address, the faulting PC and the saved entry, with the
guard state before the entry's instruction and before the faulting one, whether the lane was enabled at the issue (R62), and whether the windows
of what was pending then counted the faulting instruction (R61, R408). -/
structure TrapRecord where
  cause   : Word
  addr    : DWord
  pc      : DWord
  entry   : DWord
  guard   : Guard
  guardAt : Guard
  enabled : Bool
  passed  : Bool
  deriving DecidableEq, Repr

/-- The lanes that parked at one issue, with its identity (R407). -/
structure SubWave where
  lanes : Mask
  issue : Nat
  deriving DecidableEq, Repr

/-- A register that a field of an instruction names (R55, R57). -/
inductive Reg where
  | v (n : Nat)
  | p (n : Nat)
  | s (n : Nat)
  | tile (n : Nat)
  | retcode
  deriving DecidableEq, Repr

/-- One row of an accumulator tile with its side registers (R20). -/
structure Row where
  cells : Lanes Word
  max   : Word
  sum   : Word
  deriving DecidableEq, Repr

/-- An accumulator tile (R20, R21). -/
structure Tile where
  rows   : Lanes Row
  header : DWord
  deriving DecidableEq, Repr

/-- A result that waits for its instruction to complete: a register with the lanes it is written in and their values. -/
inductive RegWrite where
  | v (n : Fin 128) (m : Mask) (x : Lanes Word)
  | p (n : Nat) (m : Mask) (x : Mask)
  | s (n : Fin 128) (x : Word)
  | retcode (m : Mask) (x : Lanes (BitVec 2))
  | rows (tile : Fin 16) (m : Mask) (x : Lanes Row)
  | header (tile : Fin 16) (x : DWord)
  deriving DecidableEq, Repr

/-- A fault of a lane in execution: CAUSE and the address it presents (R405, R169). -/
structure LaneFault where
  lane  : Fin 32
  cause : Nat
  addr  : DWord
  deriving DecidableEq, Repr

/-- What a pending instruction waits for beside its own time: the n-th merge of its launch, or with pick the n-th selection (R228, R255). -/
inductive PendingOn where
  | time
  | merge (launch : DWord) (pick : Bool) (n : Nat)
  deriving DecidableEq, Repr

/-- A pending long-latency instruction (R56): the identity of its issue, its address, the lanes of its run with the number of instructions each has
issued since, its lookahead, its pending destinations, the results and faults it will deliver, whether its ordering class
is not none (R204), whether it is a global load (R343), the accesses of lanes that have not performed, in which space they are and whether they write (R288), and whether its faults restart (R230). -/
structure Pending where
  id      : Nat
  issue   : Nat
  pc      : DWord
  lanes   : Mask
  enabled : Mask
  issued  : Lanes Nat
  look    : Nat
  dests   : List Reg
  writes  : List RegWrite
  faults  : List LaneFault
  ordered : Bool
  load    : Bool
  reach   : List (Fin 32 × Nat × Nat)
  space   : Nat
  stores  : Bool
  restart : Bool
  on      : PendingOn
  deriving DecidableEq, Repr

/-- A run chosen for issue (R134): its lanes, the address and length of its instruction, for a replay the lanes that
execute (R411), the identity of the issue (R407), and COUNT, the rotation pointer and the yield bits cleared as they were before
the choice, which a save at this boundary gives back (R412). -/
structure Issue where
  run    : Mask
  pc     : BitVec 56
  len    : Nat
  replay : Option Mask
  id     : Nat
  count  : Nat
  rotation : Fin 32
  cleared : Mask
  deriving DecidableEq, Repr

/-- What holds a wave's next issue. -/
inductive Hold where
  | barG
  | barC
  | sleep (tick : Nat)
  | acquire
  | migrate
  deriving DecidableEq, Repr

/-- How a wave runs: as a wave of its group, as a midge context (R343), or ahead of a fault (R387). -/
inductive WaveMode where
  | normal
  | midge
  | ahead
  deriving DecidableEq, Repr

/-- The replay that a rett with RESTART 1 owes (R411): the address, the lanes reinserted ready, and those of them that execute
(R62). -/
structure Replay where
  pc      : BitVec 56
  lanes   : Mask
  enabled : Mask
  deriving DecidableEq, Repr

/-- A queue register (R19, R234 to R237): its port, the words of a partial command, the completion words held, the discard
count, and how often it has been bound. -/
structure Queue where
  port    : Nat
  partials : List Word
  done    : List Word
  discard : Nat
  binding : Nat
  deriving DecidableEq, Repr

/-- A non-temporal store not yet performed (R175). -/
structure NtStore where
  addr : Nat
  data : List Byte
  deriving DecidableEq, Repr

/-- A page that a run-ahead found missing (R387): address and KIND of its record. -/
structure BatchPage where
  addr  : DWord
  kind  : Nat
  first : Bool
  single : Bool
  deriving DecidableEq, Repr

/-- A wave: its index in its group, its wave slot of the core, its lane registers, predicates, masks, checksums, queues, tiles, PC table, issue state and trap
state; pushed names, by their places, the words that the issue under way has pushed to its port while it waits for more places (R19), and walked the granule whose
KIND 5 record has been served for a copy of the wave under way (R389); loading is the
identity of the last issue of a global load that had to wait, with the tick at which it began to (R343). -/
structure Wave where
  uid       : Nat
  idx       : Nat
  slot      : Nat
  mode      : WaveMode
  v         : Vector (Lanes Word) 128
  p         : Vector Mask 7
  k         : Vector Mask 12
  h         : Vector DWord 4
  q         : Vector Queue 16
  tiles     : Vector Tile 16
  pc        : Lanes (BitVec 56)
  st        : Lanes LaneState
  guard     : Lanes Guard
  yieldMask : Mask
  rotation  : Fin 32
  fairness  : Nat
  count     : Nat
  promise   : Bool
  retcode   : Lanes (BitVec 2)
  trapcause : Word
  trapaddr  : DWord
  trapmask  : Mask
  trappc    : DWord
  trapent   : Lanes DWord
  recs      : Lanes TrapRecord
  subs      : List SubWave
  handler   : Option SubWave
  pending   : List Pending
  hold      : Option Hold
  chosen    : Option Issue
  replay    : Option Replay
  halted    : Mask
  nt        : List NtStore
  pushed    : Nat × List Nat
  unknown   : List Reg
  batch     : List BatchPage
  batchNo   : Nat
  aheadDue  : Bool
  own       : Option (Vector Word 128)
  walked    : Option Nat
  loading   : Nat × Nat
  issues    : Nat
  deriving DecidableEq, Repr

/-- A copy of cp.sc under way (R179, R180, R414): what is left of it, its tag, the wave that issued it, whether its walk waits on a record, and the granule
whose record has been served (R389). -/
structure Copy where
  src  : DWord
  soff : Nat
  left : Nat
  tag  : Nat
  wave : Nat
  waiting : Bool
  walked : Option Nat
  deriving DecidableEq, Repr

/-- An epilogue entry (R225, R414): the converted rows, their addresses with the physical ones and the page types that
translation gave, the rows still to store, wave, tile and format, the address of the instruction that filled it, and the rows
whose lanes are parked. -/
structure Epilogue where
  rows  : Lanes (List Byte)
  addrs : Lanes DWord
  phys  : Lanes Nat
  nc    : Mask
  left  : Mask
  wave  : Nat
  tile  : Nat
  form  : Nat
  pc    : DWord
  parked : Mask
  deriving DecidableEq, Repr

/-- An acquire held (R277, R332): whether EXPL, the allotment it requests and its place in the order of requests. -/
structure Acquire where
  explicit : Bool
  request  : DWord
  order    : Nat
  wave     : Nat
  deriving DecidableEq, Repr

/-- A task record as the scheduler holds it (R32, R325): its address, context and launch, the fields of R32 and the tick at
which it became ready; head is 0, or its place in the order in which records and saved groups came back to the head of their queue (R342). -/
structure Record where
  addr      : DWord
  ctx       : Nat
  launch    : DWord
  index     : Nat
  code      : DWord
  frame     : DWord
  join      : Nat
  prio      : Nat
  idem      : Bool
  repl      : Bool
  clus      : Bool
  waves     : Nat
  lastLanes : Nat
  parent    : DWord
  latency   : Bool
  since     : Nat
  head      : Nat
  deriving DecidableEq, Repr

/-- A group on a core, or a saved one: its record, allotment, group registers, scratch, operand buffer, barriers, copies,
epilogue entries and waves. A group being taken back drains until a tick or is to be saved, each with whether its image goes into
its core's own area (R340, R413). -/
structure Group where
  live      : Bool
  uid       : Nat
  core      : Nat
  slot      : Nat
  task      : Record
  handler   : DWord
  sys       : Bool
  s         : Vector Word 128
  ob        : Vector DWord 8
  obuf      : Mem
  scratch   : Mem
  allot     : DWord
  tags      : BitVec 64
  kernel    : Nat
  dict      : List Word
  failed    : Bool
  barG      : List Nat
  barC      : List Nat
  arrivedC  : Bool
  barsC     : Nat
  merges    : Nat
  picks     : Nat
  acquire   : Option Acquire
  copies    : List Copy
  failedTags : List (Nat × DWord)
  epilogues : List Epilogue
  started   : Nat
  drainBy   : Option (Nat × Bool)
  saving    : Option Bool
  stop      : Option Nat
  scratchPoison : List Nat
  obufPoison : List Nat
  wave      : Wave
  waves     : List Wave
  deriving DecidableEq, Repr

/-- An arrival at a cluster merge or selection (R228, R255): the participant's core, the wave and tile, MODE, ONE, ROOT (or
k and the enabled rows of topk). -/
structure MergeArrival where
  launch : DWord
  n      : Nat
  core   : Nat
  group  : Nat
  wave   : Nat
  tile   : Nat
  mode   : Nat
  one    : Bool
  root   : Nat
  rows   : Mask
  dest   : Nat
  deriving DecidableEq, Repr

/-- A word of an L1 line (R347). -/
structure L1Word where
  val         : Word
  valid       : Bool
  owned       : Bool
  provisional : Bool
  dirty       : BitVec 4
  deriving DecidableEq, Repr

/-- A line of an L1: its physical line address and its words by word address; nc for a page typed non-coherent. -/
structure L1Line where
  line  : Nat
  nc    : Bool
  words : List (Nat × L1Word)
  deriving DecidableEq, Repr

/-- A miss-status entry (R350): sector address, the mask of the words requested, whether the page is typed non-coherent, how many requests wait on it
and whether its fill has left the core. -/
structure Miss where
  sector : Nat
  mask   : BitVec 16
  nc     : Bool
  waits  : Nat
  gone   : Bool
  deriving DecidableEq, Repr

/-- What a core holds beside its groups: %tagmap, L1 lines from the most recently used,
parcels of the instruction cache, miss-status entries, the local queue, whether the core takes records, and the slot of the wave that the group pipe served last (R466). -/
structure Core where
  tagmap : BitVec 64
  l1     : List L1Line
  icache : List (Nat × BitVec 16)
  icSeq  : Nat
  misses : List Miss
  local_ : List Record
  open_  : Bool
  pipe   : Nat
  deriving DecidableEq, Repr

/-- An entry of the kernel table (R334): context and CODE, header, declared allotment, dictionary copy, failure mark,
launches that pin it, and AVG (R341). -/
structure Kernel where
  id       : Nat
  ctx      : Nat
  code     : DWord
  dictAddr : DWord
  dictLen  : Nat
  sliceOff : Nat
  declared : DWord
  dict     : List Word
  failed   : Bool
  pins     : List DWord
  avg      : Option Nat
  deriving DecidableEq, Repr

/-- An entry of the reservation table (R336). -/
structure Job where
  desc   : DWord
  ctx    : Nat
  budget : Nat
  deadline : Nat
  floorLost : Bool
  deriving DecidableEq, Repr

/-- A descriptor that the scheduler owns (R269): its context, level, die and UP, whether it runs, whether it is cancelled and
with which STATUS, the next launch index, NREC, FIRST, HANDLER, bits 31:0 with STATE and STATUS 0, COUNT, the STATUS written so
far, DONEAT, whether its records carry CLUS or REPL, and for a replayable node its records, how often it was re-queued and the
buffers its groups wrote; and where the log of overwritten words stood when the launch was accepted (R298). -/
structure Owned where
  desc      : DWord
  ctx       : Nat
  level     : Nat
  die       : Nat
  up        : DWord
  running   : Bool
  cancelled : Bool
  status    : Nat
  next      : Nat
  nrec      : Nat
  first     : DWord
  handler   : DWord
  low       : Nat
  count     : Nat
  now       : Nat
  doneAt    : Nat
  clus      : Bool
  repl      : Bool
  records   : List Record
  requeues  : Nat
  wrote     : List DWord
  roFrom    : Nat
  deriving DecidableEq, Repr

/-- A saved group (R412, R413): the core in whose own area its image lies, if any, the address and the bytes of its image, the %tagmap bits
of its tags, and its place in the order in which groups and records came back to the head of their queue (R342). -/
structure Saved where
  group : Group
  area  : Option Nat
  base  : Nat
  size  : Nat
  bits  : BitVec 64
  order : Nat
  deriving DecidableEq, Repr

/-- A migration in progress (R395): claimed with leases being recalled, then copying; writes and walks wait while it copies. -/
structure Migration where
  copying : Bool
  group : Nat
  wave  : Nat
  ctx   : Nat
  va    : DWord
  leaf  : Nat
  old   : Nat
  new   : Nat
  size  : Nat
  dest  : Nat
  deriving DecidableEq, Repr

/-- The scheduler and configuration registers of a die. -/
structure Die where
  ready      : Vector (List Record) 4
  waiting    : List Record
  kernels    : List Kernel
  jobs       : List Job
  saved      : List Saved
  migrations : List Migration
  schedcfg   : DWord
  cohcfg     : Word
  stealing   : Bool
  stealAfter : Nat
  balanced   : Nat
  floorSince : Nat
  owed       : Option Record
  deriving DecidableEq, Repr

/-- A shadowed buffer (R244 to R246): its start, length, and its shadow bytes by virtual address. -/
structure Shadow where
  base  : Nat
  len   : Nat
  bytes : List (Nat × Byte)
  deriving DecidableEq, Repr

/-- STATE of a context (R448). -/
inductive CtxState where
  | free
  | live
  | tearing
  deriving DecidableEq, Repr

/-- A context block: CTXTRANS, CTXALIAS, CTXTRAP and CTXCTL (R380, R367, R410, R448), the fault records written and the
batch number (R388), and its shadowed buffers. -/
structure Context where
  root       : DWord
  comb       : DWord
  fqbase     : DWord
  fqsize     : Nat
  fqprod     : Nat
  fqcount    : Nat
  batch      : Nat
  hot        : Nat
  basedie    : Bool
  quota      : Nat
  ceiling    : Nat
  defhandler : BitVec 56
  state      : CtxState
  shadows    : List Shadow
  deriving DecidableEq, Repr

/-- A provisional cell (R183), by its word's physical address; wave is the uid of the storing wave. -/
structure Prov where
  addr : Nat
  old  : Word
  new  : Word
  wave : Nat
  obs  : Bool
  deriving DecidableEq, Repr

/-- A side band (R201): the line, the format by the codes of R156, the FP32 shadows by element address, and the last use. -/
structure Band where
  line    : Nat
  form    : Nat
  shadows : List (Nat × Word)
  used    : Nat
  deriving DecidableEq, Repr

/-- A Scarab entry (R365). -/
structure Alias where
  slot  : Nat
  busy  : Bool
  dst   : Nat
  len   : Nat
  src   : Nat
  ctx   : Nat
  reads : Nat
  deriving DecidableEq, Repr

/-- A line that a slice's L2 holds (R352): as its home or proxy slice, or as a guest copy at the slice of the other die (R356); whether it is dirty (R355), and then
the bytes that DRAM still holds for it (R426). -/
structure L2Line where
  line  : Nat
  guest : Bool
  dirty : Bool
  old   : List Byte
  deriving DecidableEq, Repr

/-- A region entry of the directory with its line block, COHCFG when its waste count began (R363), and whether it is being evicted (R357). -/
structure Region where
  region : Nat
  vec    : BitVec 14
  waste  : Nat
  lines  : Option (List (BitVec 14))
  cfg    : Word
  evicting : Bool
  deriving DecidableEq, Repr

/-- A fan-out (R358): the line, the agents whose answers it awaits, its start, whether every answer so far was ABSENT, whether it
has begun, and the write or atomic that follows it when an agent outside the lanes made it: op 0 is a write of the data, op k + 1
the atomic operation k on the operands in data; write names the write that the data of several lines belong to; and COHCFG when it began (R363). -/
structure FanOut where
  line   : Nat
  agents : BitVec 14
  start  : Nat
  absent : Bool
  begun  : Bool
  agent  : Nat
  addr   : Nat
  op     : Nat
  tag    : Nat
  data   : List Byte
  write  : Nat
  cfg    : Word
  deriving DecidableEq, Repr

/-- A fill of device memory that an agent asked for while its line had a fan-out (R356, R358): a guest copy of the line with len 0, else the read
of a peer by its tag. -/
structure Fill where
  agent : Nat
  addr  : Nat
  len   : Nat
  tag   : Nat
  deriving DecidableEq, Repr

/-- An access under way at a peer's home agent (R197, R307): the link, its tag, the wave that made it, and the answer once it is here: its status and the
former value. A plain write is awaited until it is acknowledged (R293); an atomic or reduction is that of an issue and a lane. -/
structure Remote where
  write : Bool
  link  : Nat
  tag   : Nat
  wave  : Nat
  issue : Nat
  lane  : Nat
  reply : Option (Nat × Word)
  deriving DecidableEq, Repr

/-- A ring of log entries (R364, R421): the two words of each entry and the write position. -/
structure Ring where
  slots : List (DWord × DWord)
  pos     : Nat
  deriving DecidableEq, Repr

/-- A TLB (R385, R386): the L1 TLB of a core, the L2 TLB of a cluster, the L3 bank beside a package slice, or an engine's own on a die. -/
inductive TlbUnit where
  | core (n : Nat)
  | cluster (n : Nat)
  | bank (n : Nat)
  | engine (die n : Nat)
  deriving DecidableEq, Repr

/-- A lease granted to a peer (R390): the granule, the first frame of its page, the context and the address asked for, and the page that the leaf
there maps with its size. -/
structure Granted where
  frame  : Nat
  first  : Nat
  ctx    : Nat
  window : Nat
  page   : Nat
  size   : Nat
  deriving DecidableEq, Repr

/-- A lease in use (R390, R391): the context and the page, with its size, whose leaf names the peer, the link and the window address of the lease. -/
structure LeaseUse where
  ctx    : Nat
  page   : Nat
  size   : Nat
  link   : Nat
  window : Nat
  deriving DecidableEq, Repr

/-- A cached translation (R385) in its TLB, with the context, page and leaf; lease names the link of a leased leaf, and leaf the page that the leaf maps with its
size, of which an L3 bank keeps granules alone. -/
structure TlbEntry where
  unit  : TlbUnit
  ctx   : Nat
  page  : Nat
  size  : Nat
  pa    : Nat
  w     : Bool
  x     : Bool
  nc    : Bool
  lease : Option Nat
  leaf  : Nat × Nat
  deriving DecidableEq, Repr

/-- A cached header word, root entry or block entry of the comb walker (R403), by context and sequence, in the cache of the
walker port that keeps it. With no block, key 0
and 1 are the two words of the header and a higher key is a root; a block entry keeps the key of its root, its own address
and the address of its summary table. -/
structure CombLine where
  port  : Nat
  ctx   : Nat
  seq   : Nat
  block : Option Nat
  key   : Nat
  val   : DWord
  at_   : Nat
  sums  : Nat
  deriving DecidableEq, Repr

/-- An engine walk that waits on its fault record (R389). -/
structure EngineWait where
  engine : Nat
  item   : Nat
  ctx    : Nat
  slot   : Nat
  addr   : DWord
  deriving DecidableEq, Repr

/-- A gather command accepted (R257). -/
structure Gather where
  ctx   : Nat
  wave  : Nat
  q     : Nat
  binding : Nat
  core  : Nat
  src   : DWord
  dst   : DWord
  deriving DecidableEq, Repr

/-- A fabric command accepted (R258): the context, queue and core, the launch where it is a replayable node's (R306), the address of its block, the 64 bytes of the block once they
are read, whether its own bytes have been sent, the links and numbers of its messages not yet acknowledged, the peers of fab.a2a by rank once they are read, the headers of the
other participants by rank, the rows moved, whether its receive has performed, its status, whether a walk of it waits on a record, and the granule whose
record has been served (R389). -/
structure Fabric where
  id    : Nat
  ctx   : Nat
  wave  : Nat
  q     : Nat
  binding : Nat
  core  : Nat
  repl  : Option DWord
  addr  : DWord
  block : List Byte
  sent  : Bool
  acks  : List (Nat × Nat)
  peers : List Nat
  heads : List (Nat × List Byte)
  moved : Nat
  got   : Bool
  status : Nat
  waiting : Bool
  walked : Option Nat
  deriving DecidableEq, Repr

/-- A fabric message of a peer that has not performed yet (R258, R261, R389): its link, destination, number, kind and bytes, whether a walk for it
waits on a record, and the granule whose record has been served. -/
structure FabIn where
  link : Nat
  dst  : Nat
  msg  : Nat
  op   : Nat
  data : List Byte
  waiting : Bool
  walked : Option Nat
  deriving DecidableEq, Repr

/-- A flit of a link (R431): its channel, TYPE, SEQ, ACK, RVC, RCNT and payload bytes. -/
structure Flit where
  vc      : Nat
  type    : Nat
  seq     : Nat
  ack     : Nat
  rvc     : Nat
  rcnt    : Nat
  payload : List Byte
  deriving DecidableEq, Repr

/-- A message that waits for permits (R433), with the payloads of those of its flits that have not been sent. -/
structure Outgoing where
  type : Nat
  args : List Nat
  data : List Byte
  left : List (List Byte)
  deriving DecidableEq, Repr

/-- The recalibration of a link (R435): held senders, the start and the try. -/
structure Recal where
  start : Nat
  again : Bool
  deriving DecidableEq, Repr

/-- One direction of a permit-controlled link as this device sees it (R430 to R436): up, lanes, permits held by channel,
slots occupied by channel, SEQ of the next flit, last SEQ received intact, the replay buffer of flits not yet acknowledged, replays of the first of
them, failures in succession of the flit expected next, last tick of an intact flit and of an idle flit sent, the audit (h and permits returned since) with the tick of the last
one, the recalibration, the messages that wait for permits, the context exported, the leases granted over the link: granule, first frame of its page and window address. -/
structure Link where
  up       : Bool
  lanes    : Nat
  permits  : List Nat
  totals   : List Nat
  slots    : List Nat
  seq      : Nat
  ack      : Nat
  unacked  : List Flit
  replays  : Nat
  failed   : Nat
  heard    : Nat
  sentIdle : Nat
  audit    : Option (Nat × Nat)
  audited  : Nat
  recal    : Option Recal
  queue    : List Outgoing
  export_  : Nat
  leasesOut : List Granted
  deriving DecidableEq, Repr

/-- A message outstanding on an Isais port (R437): its TAG, the tick it was sent and its replays (R441). -/
structure IsaisMsg where
  tag  : Nat
  sent : Nat
  replays : Nat
  deriving DecidableEq, Repr

/-- An Isais port and the base die below it (R437 to R443): messages outstanding, messages the base die holds, the audit with the
tick of the last one, rows retired and not yet spared, rows spared, the capability beat, the recalibration, and the replay buffer: the last 64 messages
sent by the compute die, each its TAG and its beats (R441). -/
structure Isais where
  outstanding : List IsaisMsg
  held        : List Nat
  audit       : Option (Nat × Nat)
  audited     : Nat
  retired     : List Nat
  spared      : List Nat
  capability  : BitVec 128
  recal       : Option Recal
  buffer      : List (Nat × BitVec 128 × List Byte)
  deriving DecidableEq, Repr

/-- A burst of DRAM whose stored codeword is in error (R423): raw bits read for it, and whether the code can correct it. -/
structure RawError where
  burst   : Nat
  raw     : List Byte
  correct : Bool
  deriving DecidableEq, Repr

/-- A message or a signal that the device sends to another agent. On CXL.cache kind 0 asks for a line, 1 asks for it exclusive, 2 invalidates the
host's copy, 3 answers the host's snoop, with the line where it was held exclusive, 4 gives back a line that its slice replaces (R352, R428), and 5 writes bytes at an address
whose line the device does not hold. An Isais message is its header beat and the bytes of the beats
that follow (R437); a host answer carries the tag of its request (R427). On a link, replay sends flits again, and askReplay asks the peer to, from the flit after an ACK (R434). -/
inductive Sent where
  | flit (link type : Nat) (args : List Nat) (data : List Byte)
  | isais (stack : Nat) (head : BitVec 128) (beats : List Byte)
  | replay (link : Nat) (flits : List Flit)
  | askReplay (link ack : Nat)
  | msix (vector : Nat)
  | host (tag status : Nat) (data : List Byte)
  | cxl (line kind : Nat) (data : List Byte)
  deriving DecidableEq, Repr

/-- Attestation (R450). -/
structure Attestation where
  nonce : BitVec 256
  busy  : Bool
  ready : Bool
  report : List Byte
  deriving DecidableEq, Repr

/-- A host submission (R429): its descriptor, the fault record it waits on, and the addresses for which a record has been written. -/
structure HostSubmit where
  desc   : DWord
  ctx    : Nat
  waits  : Option Nat
  seen   : List Nat
  deriving DecidableEq, Repr

/-- Why the machine stops. -/
inductive Fault where
  /-- Raised by HOST_ACCESS for bytes beyond device memory: its physical addresses end at 2^48 (R381), and R428 gives no answer there. Safe. -/
  | noSuchAddress
  deriving DecidableEq, Repr

/-- Why an instruction has no meaning here. -/
inductive Refusal where
  /-- Raised by an arm of exec whose instruction has no meaning yet. Safe. -/
  | notModelled (mnemonic : String)
  deriving DecidableEq, Repr

/-- The machine: the group that issues next and the others, the run being issued, the word that a dictionary code of the step
under way stands for (R51), memory with the bytes stored by the step under way, and everything the package holds. -/
structure State where
  grp        : Group
  rest       : List Group
  iss        : Issue
  latch      : Option Word
  mem        : Mem
  stores     : List Host.Cell
  poison     : List Nat
  owners     : List (Nat × Nat)
  l2         : List L2Line
  provs      : List Prov
  bands      : List Band
  aliases    : List Alias
  regions    : List Region
  fanOuts    : List FanOut
  fills      : List Fill
  proxies    : List Nat
  exclusive  : List Nat
  asked      : List Nat
  noLines    : List Nat
  remotes    : List Remote
  cores      : List (Nat × Core)
  die0       : Die
  die1       : Die
  ctxs       : List (Nat × Context)
  owned      : List Owned
  merges     : List MergeArrival
  discards   : List (Nat × DWord)
  pokes      : List (Nat × Nat × Nat × List Byte)
  roLog      : List (Nat × Word)
  codeLog    : List (Nat × Option Byte)
  tlb        : List TlbEntry
  combs      : List CombLine
  waits      : List EngineWait
  gathers    : List Gather
  fabrics    : List Fabric
  fabIn      : List FabIn
  ringIn     : List (Nat × List Byte)
  rowsIn     : List (Nat × Nat × Bool)
  refsAt     : List (Nat × Nat)
  recalls    : List (Nat × Nat)
  leases     : List (Nat × Nat × Nat)
  leaseAsked : List (Nat × Nat)
  refused    : List (Nat × Nat)
  leaseWaits : List (Nat × Nat)
  leaseUses  : List LeaseUse
  recalled   : List (Nat × Nat)
  purposes   : List (Nat × Nat)
  links      : List Link
  isais      : List Isais
  raws       : List RawError
  weevil     : List (Nat × DWord)
  weevilAt   : List (Nat × Nat)
  contlog    : Ring
  contstat   : Word
  errlog     : Ring
  errstat    : DWord
  glowstat   : DWord
  glowtotal  : List Nat
  bootstat   : Word
  caphead    : Word
  caps       : List (Nat × Nat × Nat × List Byte)
  applied    : List SignedObject
  minVersions : List (Nat × Nat)
  slots      : List (Nat × Nat)
  spareMap   : List (List Nat)
  swaps      : List (Nat × SignedObject)
  linksOut   : List Nat
  lanesOut   : List Nat
  identity   : Nat
  serial     : Nat
  restarting : Option (Nat × SignedObject)
  retryAt    : Option Nat
  attestation : Attestation
  hostctx    : Nat
  hostresult : Nat
  hostbusy   : Option HostSubmit
  hostlanes  : Nat
  cxlRanges  : List (Nat × Nat)
  frameTable : Nat
  poolBase   : Nat
  poolPerCore : Nat
  frozen     : Bool
  clock      : Nat
  out        : List Sent
  inbox      : List Instr
  nextUid    : Nat
  nfree      : Nat
  deriving DecidableEq, Repr

/-- The issue of a run, its identity not yet given. -/
def Issue.of (run : Mask) (pc : BitVec 56) (len : Nat) (replay : Option Mask) : Issue := ⟨run, pc, len, replay, 0, 0, 31, 0⟩

/-- No guard window. -/
def Guard.none : Guard := ⟨0, 0, false⟩

/-- A trap record before any trap: 0. -/
def TrapRecord.none : TrapRecord := ⟨0, 0, 0, 0, Guard.none, Guard.none, false, false⟩

/-- An unbound, empty queue register (R12). -/
def Queue.unbound : Queue := ⟨0, [], [], 0, 0⟩

/-- A row as granted (R20). -/
def Row.granted : Row := ⟨Lanes.all 0, 0xFF800000, 0⟩

/-- A tile as granted (R20). -/
def Tile.granted : Tile := ⟨Lanes.all Row.granted, 0⟩

/-- A wave with every register at its start value of R12 and no lane active. -/
def Wave.blank : Wave where
  uid := 0
  idx := 0
  slot := 0
  mode := .normal
  v := Vector.replicate 128 (Lanes.all 0)
  p := Vector.replicate 7 0
  k := Vector.replicate 12 0
  h := Vector.replicate 4 0
  q := Vector.replicate 16 Queue.unbound
  tiles := Vector.replicate 16 Tile.granted
  pc := Lanes.all 0
  st := Lanes.all .inactive
  guard := Lanes.all Guard.none
  yieldMask := 0
  rotation := 31
  fairness := 48
  count := 0
  promise := false
  retcode := Lanes.all 0
  trapcause := 0
  trapaddr := 0
  trapmask := 0
  trappc := 0
  trapent := Lanes.all 0
  recs := Lanes.all TrapRecord.none
  subs := []
  handler := none
  pending := []
  hold := none
  chosen := none
  replay := none
  halted := 0
  nt := []
  pushed := (0, [])
  unknown := []
  batch := []
  batchNo := 0
  aheadDue := false
  own := none
  walked := none
  loading := (0, 0)
  issues := 0

/-- A record with every field 0. -/
def Record.blank : Record where
  addr := 0
  ctx := 0
  launch := 0
  index := 0
  code := 0
  frame := 0
  join := 0
  prio := 0
  idem := false
  repl := false
  clus := false
  waves := 1
  lastLanes := 1
  parent := 0
  latency := false
  since := 0
  head := 0

/-- The prologue of R31 as %allot reports it (R30). -/
def prologue : DWord := 0x400410

/-- No group: every register at its start value, the allotment of the prologue. -/
def Group.blank : Group where
  live := false
  uid := 0
  core := 0
  slot := 0
  task := Record.blank
  handler := 0
  sys := false
  s := Vector.replicate 128 0
  ob := Vector.replicate 8 0
  obuf := []
  scratch := []
  allot := prologue
  tags := 0
  kernel := 0
  dict := []
  failed := false
  barG := []
  barC := []
  arrivedC := false
  barsC := 0
  merges := 0
  picks := 0
  acquire := none
  copies := []
  failedTags := []
  epilogues := []
  started := 0
  drainBy := none
  saving := none
  stop := none
  scratchPoison := []
  obufPoison := []
  wave := Wave.blank
  waves := []

/-- A core after reset. -/
def Core.blank : Core where
  tagmap := 0
  l1 := []
  icache := []
  icSeq := 0
  misses := []
  local_ := []
  open_ := true
  pipe := 63

/-- A die after reset: SCHEDCFG at BALTHR 8, RESV 24, STEAL 1, MIDGE 1, FLOOR 1, STARVE 100 (R331), COHCFG at INVTO 20,
WASTE 4, LINEGRAIN 1 (R363). -/
def Die.blank : Die where
  ready := Vector.replicate 4 []
  waiting := []
  kernels := []
  jobs := []
  saved := []
  migrations := []
  schedcfg := 0x6400071808
  cohcfg := 0x1414
  stealing := false
  stealAfter := 0
  balanced := 0
  floorSince := 0
  owed := none

/-- A context block at the Reset values of R380, R367, R410 and R448. -/
def Context.blank : Context where
  root := 0
  comb := 0
  fqbase := 0
  fqsize := 0
  fqprod := 0
  fqcount := 0
  batch := 0
  hot := 8
  basedie := true
  quota := 4096
  ceiling := 4096
  defhandler := 0
  state := .free
  shadows := []

/-- A link before boot: down, no permits (its totals are loaded at boot, R433). -/
def Link.blank : Link where
  up := false
  lanes := 8
  permits := [0, 0, 0, 0]
  totals := [0, 0, 0, 0]
  slots := [0, 0, 0, 0]
  seq := 0
  ack := 4095
  unacked := []
  replays := 0
  failed := 0
  heard := 0
  sentIdle := 0
  audit := none
  audited := 0
  recal := none
  queue := []
  export_ := 0
  leasesOut := []

/-- An Isais port before boot. -/
def Isais.blank : Isais where
  outstanding := []
  held := []
  audit := none
  audited := 0
  retired := []
  spared := []
  capability := 0
  recal := none
  buffer := []

/-- An empty log ring of n entries. -/
def Ring.blank (n : Nat) : Ring := ⟨List.replicate n (0, 0), 0⟩

/-- The machine right after reset: before step 1 of the boot (R444), every register at its Reset value, the registers whose
Reset is L at 0 until the boot loads them (log entry 5), no group on any core. -/
def State.reset : State where
  grp := Group.blank
  rest := []
  iss := Issue.of 0 0 4 none
  latch := none
  mem := []
  stores := []
  poison := []
  owners := []
  l2 := []
  provs := []
  bands := []
  aliases := []
  regions := []
  fanOuts := []
  fills := []
  proxies := []
  exclusive := []
  asked := []
  noLines := []
  remotes := []
  cores := []
  die0 := Die.blank
  die1 := Die.blank
  ctxs := []
  owned := []
  merges := []
  discards := []
  pokes := []
  roLog := []
  codeLog := []
  tlb := []
  combs := []
  waits := []
  gathers := []
  fabrics := []
  fabIn := []
  ringIn := []
  rowsIn := []
  refsAt := []
  recalls := []
  leases := []
  leaseAsked := []
  refused := []
  leaseWaits := []
  leaseUses := []
  recalled := []
  purposes := []
  links := List.replicate 14 Link.blank
  isais := List.replicate 8 Isais.blank
  raws := []
  weevil := []
  weevilAt := []
  contlog := Ring.blank 16
  contstat := 0
  errlog := Ring.blank 32
  errstat := 0
  glowstat := 0
  glowtotal := List.replicate 22 0
  bootstat := 0
  caphead := 0
  caps := []
  applied := []
  minVersions := []
  slots := []
  spareMap := [[], []]
  swaps := []
  linksOut := []
  lanesOut := []
  identity := 0
  serial := 0
  restarting := none
  retryAt := none
  attestation := ⟨0, false, false, []⟩
  hostctx := 0
  hostresult := 0
  hostbusy := none
  hostlanes := 16
  cxlRanges := [(0, 2 ^ 48)]
  frameTable := 0
  poolBase := 0
  poolPerCore := 0
  frozen := false
  clock := 0
  out := []
  inbox := []
  nextUid := 1
  nfree := 0

end Sys2Proof.Machine
end

