-- ==== Sys2Proof/Machine/Ops.lean ====
section
/-! DEFINITION. The named operations over memory, registers and lanes; parking lanes, entering a handler and returning from
it; everything the families share. -/

namespace Sys2Proof.Machine

/-! ## Bits and bytes -/

/-- Bit i of a mask. -/
def bit (m : Mask) (i : Fin 32) : Bool := m.getLsbD i

/-- The mask of the lanes that a test holds for. -/
def maskOf (f : Fin 32 → Bool) : Mask :=
  laneList.foldr (fun i m => if f i then m ||| BitVec.twoPow 32 i else m) 0

/-- The lanes of a mask in ascending order. -/
def lanesOf (m : Mask) : List (Fin 32) := laneList.filter (bit m)

/-- The number of lanes of a mask. -/
def popMask (m : Mask) : Nat := (lanesOf m).length

/-- The lowest lane of a mask. -/
def lowest (m : Mask) : Option (Fin 32) := (lanesOf m).head?

/-- The natural number that bytes hold, little-endian (R7). -/
def leNat : List Byte → Nat
  | [] => 0
  | b :: bs => b.toNat + 256 * leNat bs

/-- The n low bytes of a number, little-endian (R7). -/
def leBytes : Nat → Nat → List Byte
  | 0, _ => []
  | n + 1, x => BitVec.ofNat 8 x :: leBytes n (x / 256)

/-- A number of bytes of a block. -/
def fieldAt (b : List Byte) (a n : Nat) : Nat := leNat ((b.drop a).take n)

/-- Bits hi to lo of a number. -/
def bitsOf (x lo n : Nat) : Nat := x / 2 ^ lo % 2 ^ n

/-- Whether bit i of a number is 1. -/
def testBit (x i : Nat) : Bool := x / 2 ^ i % 2 == 1

/-- The low and the high word of a pair (R13). -/
def loWord (x : DWord) : Word := x.setWidth 32
def hiWord (x : DWord) : Word := (x >>> 32).setWidth 32

/-- A pair from its words (R13). -/
def pairOf (lo hi : Word) : DWord := hi.setWidth 64 <<< 32 ||| lo.setWidth 64

/-- A 32-bit value as a signed 64-bit one. -/
def sx64 (x : Word) : DWord := x.signExtend 64

/-! ## Tables by number -/

/-- The entry of a table, or a default. -/
def look {α : Type} (l : List (Nat × α)) (k : Nat) (d : α) : α :=
  match l with
  | [] => d
  | (n, a) :: t => if n = k then a else look t k d

/-- A table with one entry replaced or added in key order. -/
def put {α : Type} (l : List (Nat × α)) (k : Nat) (a : α) : List (Nat × α) :=
  match l with
  | [] => [(k, a)]
  | (n, b) :: t => if n = k then (k, a) :: t else if k < n then (k, a) :: (n, b) :: t else (n, b) :: put t k a

/-- A list with its i-th item changed. -/
def modAt {α : Type} (l : List α) (i : Nat) (f : α → α) : List α :=
  match l, i with
  | [], _ => []
  | a :: t, 0 => f a :: t
  | a :: t, i + 1 => a :: modAt t i f

/-! ## Memory -/

/-- The byte at an address. -/
def Mem.read (m : Mem) (a : Nat) : Byte :=
  match m with
  | [] => Mem.blank
  | c :: t => if c.1 = a then c.2 else Mem.read t a

/-- Memory without the entry of an address. -/
def Mem.erase (m : Mem) (a : Nat) : Mem :=
  match m with
  | [] => []
  | c :: t => if c.1 = a then t else c :: Mem.erase t a

/-- Memory with an entry added or replaced in address order. -/
def Mem.insert (m : Mem) (a : Nat) (b : Byte) : Mem :=
  match m with
  | [] => [(a, b)]
  | c :: t => if c.1 = a then (a, b) :: t else if a < c.1 then (a, b) :: c :: t else c :: Mem.insert t a b

/-- Memory after a byte is written; a byte equal to what an unlisted address reads as leaves no entry. -/
def Mem.write (m : Mem) (a : Nat) (b : Byte) : Mem :=
  if b = Mem.blank then Mem.erase m a else Mem.insert m a b

/-- Bytes of a memory from an address. -/
def Mem.bytes (m : Mem) (a : Nat) : Nat → List Byte
  | 0 => []
  | n + 1 => Mem.read m a :: Mem.bytes m (a + 1) n

/-- Memory after bytes are written from an address. -/
def Mem.writes (m : Mem) (a : Nat) : List Byte → Mem
  | [] => m
  | b :: bs => Mem.writes (Mem.write m a b) (a + 1) bs

/-- Memory without the entries of a range. -/
def Mem.clear (m : Mem) (a n : Nat) : Mem := m.filter fun c => c.1 < a || a + n ≤ c.1

/-- The byte at an address under a log of stores, the latest first. -/
def logRead (m : Mem) (a : Nat) : List Host.Cell → Byte
  | [] => m.read a
  | c :: t => if c.1 = a then c.2 else logRead m a t

/-- The byte of physical memory at an address as the step under way sees it. -/
def State.byte (s : State) (a : Nat) : Byte := logRead s.mem a s.stores

/-- n bytes of physical memory. -/
def State.bytes (s : State) (a : Nat) : Nat → List Byte
  | 0 => []
  | n + 1 => s.byte a :: State.bytes s (a + 1) n

/-- n bytes of physical memory as a number. -/
def State.num (s : State) (a n : Nat) : Nat := leNat (s.bytes a n)

/-- The log after bytes are stored from an address. -/
def logBytes (l : List Host.Cell) (a : Nat) : List Byte → List Host.Cell
  | [] => l
  | b :: bs => logBytes ((a, b) :: l) (a + 1) bs

/-- Store bytes in physical memory. Every store of a step goes through this log; finish lays it into memory. -/
def State.poke (s : State) (a : Nat) (bs : List Byte) : State := { s with stores := logBytes s.stores a bs }

/-- Memory after a log of stores, the latest first, is laid into it. -/
def Mem.lay (m : Mem) : List Host.Cell → Mem
  | [] => m
  | c :: t => (Mem.lay m t).write c.1 c.2

/-- The end of a step: the bytes it stored are laid into the memory it began with. -/
def finish (f : State → State) (s : State) : State :=
  { f s with mem := s.mem.lay (f s).stores, stores := [] }

/-- A step that answers a next state. -/
def next (f : State → State) (s : State) : Host.Outcome State Fault Refusal := .next (finish f s)

/-! ## Choices the manual leaves open -/

/-- One of k choices; with one or none there is nothing to choose. -/
def State.choice (s : State) (k : Nat) : Nat := if k ≤ 1 then 0 else Config.pick s.nfree % k

/-- The counter of free values moves on. -/
def State.chose (s : State) (k : Nat) : State := if k ≤ 1 then s else { s with nfree := s.nfree + 1 }

/-! ## Waves, groups, cores, dies, contexts -/

/-- The wave that issues. -/
abbrev State.w (s : State) : Wave := s.grp.wave

/-- The state with the issuing wave changed. -/
def State.modW (s : State) (f : Wave → Wave) : State := { s with grp := { s.grp with wave := f s.grp.wave } }

/-- The state with the issuing group changed. -/
def State.modG (s : State) (f : Group → Group) : State := { s with grp := f s.grp }

/-- The waves of a group, the issuing one first. -/
def Group.all (g : Group) : List Wave := g.wave :: g.waves

/-- A group with every wave changed. -/
def Group.mapWaves (g : Group) (f : Wave → Wave) : Group := { g with wave := f g.wave, waves := g.waves.map f }

/-- The live groups on cores. -/
def State.groups (s : State) : List Group := (s.grp :: s.rest).filter (·.live)

/-- The state with every group on a core changed. -/
def State.mapGroups (s : State) (f : Group → Group) : State := { s with grp := f s.grp, rest := s.rest.map f }

/-- The first item of a list that a test holds for, with the others. -/
def pull {α : Type} (p : α → Bool) : List α → Option (α × List α)
  | [] => none
  | a :: t => if p a then some (a, t) else (pull p t).map fun r => (r.1, a :: r.2)

/-- The group with a uid made the issuing group; the others keep their order behind it. -/
def State.focus (s : State) (uid : Nat) : State :=
  if s.grp.live && s.grp.uid == uid then s
  else match pull (fun g => g.live && g.uid == uid) s.rest with
    | some (g, t) => { s with grp := g, rest := if s.grp.live then t ++ [s.grp] else t }
    | none => s

/-- A group with the wave of a uid made the issuing wave. -/
def Group.focus (g : Group) (uid : Nat) : Group :=
  if g.wave.uid == uid then g
  else match pull (fun w => w.uid == uid) g.waves with
    | some (w, t) => { g with wave := w, waves := t ++ [g.wave] }
    | none => g

/-- The die of a logical core (R2). -/
def dieOf (core : Nat) : Nat := core / Config.coresPerDie

/-- A core. -/
def State.core (s : State) (c : Nat) : Core := look s.cores c Core.blank

/-- The state with a core changed. -/
def State.modCore (s : State) (c : Nat) (f : Core → Core) : State := { s with cores := put s.cores c (f (s.core c)) }

/-- A die. -/
def State.die (s : State) (d : Nat) : Die := if d = 0 then s.die0 else s.die1

/-- The state with a die changed. -/
def State.modDie (s : State) (d : Nat) (f : Die → Die) : State :=
  if d = 0 then { s with die0 := f s.die0 } else { s with die1 := f s.die1 }

/-- A context block. -/
def State.ctx (s : State) (n : Nat) : Context := look s.ctxs n Context.blank

/-- The state with a context block changed. -/
def State.modCtx (s : State) (n : Nat) (f : Context → Context) : State := { s with ctxs := put s.ctxs n (f (s.ctx n)) }

/-- The channel of a message by its TYPE (R432). -/
def channelOf (type : Nat) : Nat :=
  if type = 1 ∨ type = 2 ∨ type = 3 ∨ type = 7 ∨ type = 0x14 then 0
  else if type = 4 ∨ type = 8 then 1
  else if type = 5 ∨ type = 6 ∨ type = 9 ∨ type = 10 ∨ type = 11 then 2
  else if type = 12 ∨ type = 13 then 3 else 4

/-- A CRC after one more byte, the most significant bit first: CRC-64 with the ECMA-182 polynomial (R431). -/
def crc64Byte (c : Nat) (b : Byte) : Nat :=
  (List.range 8).foldl (fun c _ => if testBit c 63 then (c * 2 % 2 ^ 64) ^^^ 0x42F0E1EBA9EA3693 else c * 2) (c ^^^ b.toNat * 2 ^ 56)

/-- The CRC of a flit (R431), from 0, the most significant bit first. PRESUMED (log entry 57). -/
def crc64 (bs : List Byte) : Nat := bs.foldl crc64Byte 0

/-- CRC-32C after one more byte, the least significant bit first (R437). -/
def crc32cByte (c : Nat) (b : Byte) : Nat :=
  (List.range 8).foldl (fun c _ => if testBit c 0 then c / 2 ^^^ 0x82F63B78 else c / 2) (c ^^^ b.toNat)

/-- CRC-32C (R437), as it is commonly computed. PRESUMED (log entry 57). -/
def crc32c (bs : List Byte) : Nat := bs.foldl crc32cByte 0xFFFFFFFF ^^^ 0xFFFFFFFF

/-- The 256 bytes of a flit (R431). -/
def Flit.bytes (f : Flit) : List Byte :=
  let b := leBytes 1 f.type ++ leBytes 1 f.vc ++ leBytes 2 f.seq ++ leBytes 2 f.ack ++ leBytes 1 f.rvc ++ leBytes 1 f.rcnt ++
    f.payload ++ List.replicate (240 - f.payload.length) 0
  b ++ leBytes 8 (crc64 b)

/-- Whether a TYPE is one of R432; 0x14 crosses the die bridge alone, and rejoin never does (R436). -/
def typeKnown (link type : Nat) : Bool :=
  (if link < 12 then type != 0x14 else type != 0x12) && ((decide (1 ≤ type) && decide (type ≤ 13)) || (decide (16 ≤ type) && decide (type ≤ 20)))

/-- Whether the bytes are a flit that a receiver of the link takes: its CRC fits, its TYPE is known and goes with its VC, and its reserved bits
are 0 (R431, R432). -/
def flitFits (link : Nat) (bs : List Byte) : Bool :=
  let at_ (i : Nat) : Nat := (bs.getD i 0).toNat
  bs.length == 256 && leNat (bs.drop 248) == crc64 (bs.take 248) && typeKnown link (at_ 0) && at_ 1 == channelOf (at_ 0) &&
    decide (at_ 3 < 16) && decide (at_ 5 < 16) && decide (at_ 6 < 8)

/-- The bytes of a message: its fields, 8 bytes each, then its data (log entry 20). -/
def messageBytes (args : List Nat) (data : List Byte) : List Byte := args.flatMap (leBytes 8) ++ data

/-- The flits of a message with k fields and its data, 240 payload bytes in each (R430, R431). -/
def flitsOf (k : Nat) (data : List Byte) : Nat := max 1 ((8 * k + data.length + 239) / 240)

/-- The payloads of a message's flits. -/
def payloads (args : List Nat) (data : List Byte) : List (List Byte) :=
  (List.range (flitsOf args.length data)).map fun i => ((messageBytes args data).drop (240 * i)).take 240

/-- Whether a sender may send a flit on a channel now: it holds a permit of it, its replay buffer of 512 flits has room and no recalibration
holds it (R433 to R435). -/
def Link.mayFlit (l : Link) (vc : Nat) : Bool := vc == 4 || (l.recal.isNone && decide (l.unacked.length < 512) && decide (0 < l.permits.getD vc 0))

/-- The first channel with slots whose permits are to be returned. -/
def owedChannel (l : Link) : Nat := ((List.range 4).find? fun i => l.slots.getD i 0 != 0).getD 0

/-- A flit sent: its permit spent, SEQ advanced, an acknowledgement awaited; it carries ACK and returns the permits of one channel, but for the
messages of an audit, whose count is taken already (R415, R431, R433, R434). -/
def Link.sendFlit (type : Nat) (payload : List Byte) (l : Link) : Link :=
  let vc := channelOf type
  let rvc := owedChannel l
  let rcnt := if type = 0x10 ∨ type = 0x11 then 0 else min 255 (l.slots.getD rvc 0)
  { l with
    permits := modAt l.permits vc fun p => p - 1, seq := (l.seq + 1) % 4096, slots := modAt l.slots rvc fun k => k - rcnt
    unacked := l.unacked ++ [⟨vc, type, l.seq, l.ack, rvc, rcnt, payload⟩] }

/-- Flits of one message sent while the link lets them: what is left. -/
def Link.sendFlits (type : Nat) : List (List Byte) → Link → Link × List (List Byte)
  | [], l => (l, [])
  | p :: t, l => if l.mayFlit (channelOf type) then Link.sendFlits type t (l.sendFlit type p) else (l, p :: t)

/-- Messages sent in their order as far as the link lets their flits: the link, what still waits, and the messages gone, the last first. A message
holds up those behind it on its own channel (R433, R434). -/
def Link.pump (i : Nat) : List Outgoing → List Nat → Link → Link × List Outgoing × List Sent
  | [], _, l => (l, [], [])
  | m :: t, held, l =>
    let vc := channelOf m.type
    if held.contains vc then
      let r := Link.pump i t held l
      (r.1, m :: r.2.1, r.2.2)
    else
      match l.sendFlits m.type m.left with
      | (l, []) =>
        let r := Link.pump i t held l
        (r.1, r.2.1, r.2.2 ++ [.flit i m.type m.args m.data])
      | (l, left) =>
        let r := Link.pump i t (vc :: held) l
        (r.1, { m with left := left } :: r.2.1, r.2.2)

/-- The messages that wait on a link, and further ones behind them, go out while it has permits for them. -/
def pumpLink (i : Nat) (more : List Outgoing) (s : State) : State :=
  match s.links[i]? with
  | none => s
  | some l =>
    let r := Link.pump i (l.queue ++ more) [] l
    { s with links := s.links.set i { r.1 with queue := r.2.1 }, out := r.2.2 ++ s.out }

/-- The messages that wait on a link go out while it has permits for them. -/
def flushLink (i : Nat) (s : State) : State := pumpLink i [] s

/-- Whether a link is up. -/
def State.linkUp (s : State) (i : Nat) : Bool := (s.links.getD i Link.blank).up

/-- The state with a message or signal sent. A flit message waits while its link lacks permits or recalibrates; on a link that is
down it is lost. -/
def State.send (s : State) (m : Sent) : State :=
  match m with
  | .flit i type args data => if s.linkUp i then pumpLink i [⟨type, args, data, payloads args data⟩] s else s
  | .isais _ _ _ => { s with out := m :: s.out }
  | .replay _ _ => { s with out := m :: s.out }
  | .askReplay _ _ => { s with out := m :: s.out }
  | .msix _ => { s with out := m :: s.out }
  | .host _ _ _ => { s with out := m :: s.out }
  | .cxl _ _ _ => { s with out := m :: s.out }

/-- An intact message arrives on a link: it takes slots of its channel until their permits are returned, and counts for ACK
(R431, R433). -/
def arrive (i vc n : Nat) (s : State) : State :=
  { s with links := modAt s.links i fun l =>
    { l with heard := s.clock, failed := 0, ack := (l.ack + n) % 4096, slots := if vc = 4 then l.slots else modAt l.slots vc fun k => k + n } }

/-- The header beat of an Isais message (R437), over the beats that follow it. -/
def isaisHead (op ch tag addr poison status : Nat) (beats : List Byte) : BitVec 128 :=
  let h := op % 2 ^ 4 + ch % 2 ^ 5 * 2 ^ 4 + tag % 2 ^ 11 * 2 ^ 9 + addr / 64 % 2 ^ 46 * 2 ^ 20 + poison % 2 ^ 16 * 2 ^ 66 + status % 2 ^ 3 * 2 ^ 82 +
    (beats.length / 16) % 2 ^ 7 * 2 ^ 85
  BitVec.ofNat 128 (h + crc32c (leBytes 16 h ++ beats) * 2 ^ 96)

/-- Flits of the die bridge are taken in at once by the other die, which acknowledges them and returns their permits (R436). -/
def Link.bridged (clock : Nat) (l : Link) : Link :=
  { l with
    heard := clock, ack := (l.seq + 4095) % 4096, unacked := []
    permits := l.permits.zipIdx.map fun p => p.1 + (l.unacked.filter fun f => f.vc == p.2).length }

/-- An internal message crosses the bridge from a die as TYPE 0x14 (R436); none while the bridge is down or recalibrates (R435). -/
def crossBridge (die : Nat) (payload : List Byte) (s : State) : Option State :=
  let l := s.links.getD (12 + die) Link.blank
  if l.up && l.recal.isNone then
    let t := s.send (.flit (12 + die) 0x14 [] payload)
    some { t with links := modAt t.links (12 + die) (Link.bridged s.clock) }
  else none

/-- A fresh identity. -/
def State.fresh (s : State) : State := { s with nextUid := s.nextUid + 1 }

/-! ## The allotment -/

/-- The fields of an allotment word (R30). -/
def vregsOf (a : DWord) : Nat := bitsOf a.toNat 0 8
def scratchOf (a : DWord) : Nat := bitsOf a.toNat 8 7
def tilesOf (a : DWord) : Nat := bitsOf a.toNat 15 5
def tagsOf (a : DWord) : Nat := bitsOf a.toNat 20 7
def obufOf (a : DWord) : Nat := bitsOf a.toNat 32 6

/-! ## Registers -/

/-- The odd register of a pair (R13). -/
def odd (n : Fin 128) : Fin 128 := ⟨(n.val + 1) % 128, Nat.mod_lt _ (by decide)⟩

/-- A lane register in a lane (R12). -/
def Wave.rdV (w : Wave) (n : Fin 128) (l : Fin 32) : Word := w.v[n][l]

/-- A lane pair in a lane (R13). -/
def Wave.rdVV (w : Wave) (n : Fin 128) (l : Fin 32) : DWord := pairOf (w.rdV n l) (w.rdV (odd n) l)

/-- A lane register written in the lanes of a mask. -/
def Wave.wrV (w : Wave) (n : Fin 128) (en : Mask) (f : Fin 32 → Word) : Wave :=
  { w with v := w.v.set n (Lanes.ofFn fun l => if bit en l then f l else w.v[n][l]) }

/-- A lane pair written in the lanes of a mask (R13). -/
def Wave.wrVV (w : Wave) (n : Fin 128) (en : Mask) (f : Fin 32 → DWord) : Wave :=
  (w.wrV n en fun l => loWord (f l)).wrV (odd n) en fun l => hiWord (f l)

/-- A predicate in a lane; p7 reads 1 (R16). -/
def Wave.rdP (w : Wave) (p : Nat) (l : Fin 32) : Bool := if h : p < 7 then bit w.p[p] l else true

/-- A predicate written in the lanes of a mask (R16); p7 is never written. -/
def Wave.wrP (w : Wave) (p : Nat) (en : Mask) (f : Fin 32 → Bool) : Wave :=
  if h : p < 7 then { w with p := w.p.set p (maskOf fun l => if bit en l then f l else bit w.p[p] l) } else w

/-- A mask register (R12). -/
def Wave.rdK (w : Wave) (k : Nat) : Mask := if h : k < 12 then w.k[k] else 0

/-- The lanes whose STATE is ready, waiting or parked (R138). -/
def Wave.present (w : Wave) : Mask := maskOf fun l => match w.st[l] with
  | .ready => true
  | .waiting _ => true
  | .parked => true
  | .exited => false
  | .inactive => false

/-- A mask register written whole: its value ANDed with the lanes present (R138). -/
def Wave.wrK (w : Wave) (k : Nat) (x : Mask) : Wave :=
  if h : k < 12 then { w with k := w.k.set k (x &&& w.present) } else w

/-- The group registers that the issuing wave names: its own copy in a midge context or a run-ahead (R343, R387). -/
def State.gregs (s : State) : Vector Word 128 := s.w.own.getD s.grp.s

/-- A group register (R12). -/
def State.rdS (s : State) (n : Fin 128) : Word := s.gregs[n]

/-- A group pair (R13). -/
def State.rdSS (s : State) (n : Fin 128) : DWord := pairOf (s.rdS n) (s.rdS (odd n))

/-- A group register written. -/
def State.wrS (s : State) (n : Fin 128) (x : Word) : State :=
  match s.w.own with
  | some r => s.modW fun w => { w with own := some (r.set n x) }
  | none => s.modG fun g => { g with s := g.s.set n x }

/-- A group pair written (R13). -/
def State.wrSS (s : State) (n : Fin 128) (x : DWord) : State := (s.wrS n (loWord x)).wrS (odd n) (hiWord x)

/-- A tile (R20). -/
def Wave.tile (w : Wave) (t : Fin 16) : Tile := w.tiles[t]

/-- Rows of a tile written in the lanes of a mask. -/
def Wave.wrRows (w : Wave) (t : Fin 16) (en : Mask) (f : Fin 32 → Row) : Wave :=
  let old := w.tiles[t]
  { w with tiles := w.tiles.set t { old with rows := Lanes.ofFn fun l => if bit en l then f l else old.rows[l] } }

/-- The header of a tile written. -/
def Wave.wrHeader (w : Wave) (t : Fin 16) (x : DWord) : Wave :=
  let old := w.tiles[t]
  { w with tiles := w.tiles.set t { old with header := x } }

/-- A result delivered to its register. -/
def RegWrite.apply (s : State) : RegWrite → State
  | .v n m x => s.modW fun w => w.wrV n m fun l => x[l]
  | .p n m x => s.modW fun w => w.wrP n m fun l => bit x l
  | .s n x => s.wrS n x
  | .retcode m x => s.modW fun w => { w with retcode := Lanes.ofFn fun l => if bit m l then x[l] else w.retcode[l] }
  | .rows t m x => s.modW fun w => w.wrRows t m fun l => x[l]
  | .header t x => s.modW fun w => w.wrHeader t x

/-- Results delivered in order. -/
def applyAll (s : State) (ws : List RegWrite) : State := ws.foldl RegWrite.apply s

/-! ## The PC table -/

/-- The PC, STATE and KIDX of a lane as an entry of R24. -/
def entryWord (pc : BitVec 56) (st : LaneState) : DWord :=
  let code : DWord := match st with
    | .ready => 0
    | .waiting k => 0x1 ||| BitVec.ofNat 64 (k.val * 16)
    | .parked => 2
    | .exited => 3
    | .inactive => 4
  pc.setWidth 64 ||| code <<< 56

/-- The PC of an entry; bit 0 is always 0 (R24). -/
def entryPc (e : DWord) : BitVec 56 := (e.setWidth 56 >>> 1) <<< 1

/-- STATE of an entry. -/
def entryState (e : DWord) : Nat := bitsOf e.toNat 56 3

/-- KIDX of an entry. -/
def entryKidx (e : DWord) : Nat := bitsOf e.toNat 60 4

/-- The state of a lane that an entry names. -/
def stateOf (e : DWord) : LaneState := match entryState e with
  | 0 => .ready
  | 1 => .waiting (Fin.ofNat 16 (entryKidx e))
  | 2 => .parked
  | 3 => .exited
  | _ => .inactive

/-- %progress (R34). -/
def progressWord (w : Wave) : Nat := (if w.promise then 1 else 0) + w.count * 2 ^ 16

/-- The word of qstat (R237). -/
def qstatWord (r : Queue) : Word := BitVec.ofNat 32 (r.done.length + r.partials.length * 2 ^ 8 + r.port * 2 ^ 16 + r.discard * 2 ^ 20)

/-- The lanes in a STATE. -/
def Wave.lanesIn (w : Wave) (p : LaneState → Bool) : Mask := maskOf fun l => p w.st[l]

/-- The ready lanes. -/
def Wave.ready (w : Wave) : Mask := w.lanesIn fun x => x == .ready

/-- The lanes of a mask given a STATE. -/
def Wave.setState (w : Wave) (m : Mask) (x : LaneState) : Wave :=
  { w with st := Lanes.ofFn fun l => if bit m l then x else w.st[l] }

/-- The lanes of a mask given a PC. -/
def Wave.setPc (w : Wave) (m : Mask) (f : Fin 32 → BitVec 56) : Wave :=
  { w with pc := Lanes.ofFn fun l => if bit m l then f l else w.pc[l] }

/-- The lanes of a mask given a guard window. -/
def Wave.setGuard (w : Wave) (m : Mask) (f : Fin 32 → Guard) : Wave :=
  { w with guard := Lanes.ofFn fun l => if bit m l then f l else w.guard[l] }

/-- Release of a mask (R142): the waiters become ready once every member waits on it. -/
def Wave.release (w : Wave) (k : Nat) : Wave :=
  let waiters := w.lanesIn fun x => match x with
    | .waiting j => j.val == k
    | _ => false
  if waiters ≠ 0 ∧ w.rdK k &&& ~~~waiters = 0 then
    { (w.setState waiters .ready) with yieldMask := w.yieldMask &&& ~~~waiters }
  else w

/-- Release evaluated for all twelve masks. -/
def Wave.releaseAll (w : Wave) : Wave := (List.range 12).foldl Wave.release w

/-- Lanes exit (R132): their bits leave every mask, and release is evaluated for every mask. -/
def Wave.exit (w : Wave) (m : Mask) : Wave :=
  let w := w.setState m .exited
  Wave.releaseAll { w with k := w.k.map fun x => x &&& ~~~m, yieldMask := w.yieldMask &&& ~~~m }

/-- A wave ends when no lane is ready, waiting or parked (R27). -/
def Wave.ended (w : Wave) : Bool := w.present == 0

/-! ## Traps -/

/-- The word of %trapcause (R37). -/
def causeWord (code window : Nat) (restart : Bool) : Word :=
  BitVec.ofNat 32 (code + 256 * window + (if restart then 4096 else 0))

/-- The fields of %trapcause (R37). -/
def causeCode (c : Word) : Nat := bitsOf c.toNat 0 8
def causeRestart (c : Word) : Bool := testBit c.toNat 12

/-- The running handler's lanes; none outside a handler. -/
def Wave.handlerLanes (w : Wave) : Mask := match w.handler with
  | some h => h.lanes
  | none => 0

/-- A group stops as a cancelled one does (R275): every lane exits, nothing stays pending, its waves' provisional cells
settle, its epilogue entries and copies are discarded (DESIGN CHOICE for the copies, log entry 97). Its end writes the STATUS given, if any; 256 and 257 are a flush (R342)
and the discard of a replayable node (R417), which leave COUNT and PARENT alone. -/
def stopGroup (status : Nat) (s : State) : State :=
  let uids := s.grp.all.map (·.uid)
  let kill (w : Wave) : Wave :=
    { (w.setState w.present .exited) with
        k := Vector.replicate 12 0, pending := [], hold := none, chosen := none, replay := none, subs := [], handler := none,
        halted := 0 }
  let g := s.grp.mapWaves kill
  { s with
    grp := { g with
      stop := some (g.stop.getD status), epilogues := [], copies := [], acquire := none
      waves := g.waves.filter fun w => w.mode == .normal }
    provs := s.provs.filter fun c => !uids.contains c.wave
    merges := s.merges.filter fun a => a.group != s.grp.uid
    remotes := s.remotes.filter fun r => !uids.contains r.wave }

/-- A chosen run that waits, once lanes of it have parked: the lanes left, none if none is left. -/
def Issue.without (m : Mask) (c : Issue) : Option Issue :=
  if c.replay.isNone ∧ c.run &&& ~~~m = 0 then none else some { c with run := c.run &&& ~~~m }

/-- Lanes join the queued sub-wave of their issue, or form one at the tail of the queue (R407). -/
def queueLanes (m : Mask) (issue : Nat) (subs : List SubWave) : List SubWave :=
  if subs.any fun b => b.issue == issue then subs.map fun b => if b.issue = issue then { b with lanes := b.lanes ||| m } else b
  else subs ++ [⟨m, issue⟩]

/-- Lanes park at an issue with their trap records, as one sub-wave with the others of that issue (R407); a run that waits goes on without them (R134). DESIGN CHOICE
(log entry 96): where it has no lane left, what its choice did to COUNT, the pointer and the yield mask stands. A lane that runs the handler traps inside it, which ends the
group with STATUS 3 (R279). A fault of a midge context ends it with no trap (R344). -/
def parkAt (issue : Nat) (m : Mask) (r : Fin 32 → TrapRecord) (s : State) : State :=
  if m = 0 then s
  else if s.w.mode = .midge then s.modW fun w => w.exit w.present
  else if m &&& s.w.handlerLanes ≠ 0 then stopGroup 3 s
  else s.modW fun w => { (w.setState m .parked).setPc m fun l => entryPc (r l).entry with
      recs := Lanes.ofFn fun l => if bit m l then r l else w.recs[l]
      subs := queueLanes m issue w.subs, chosen := w.chosen.bind (Issue.without m) }

/-- Lanes park at the issue under way (R407). -/
def park (m : Mask) (r : Fin 32 → TrapRecord) (s : State) : State := parkAt s.iss.id m r s

/-- Which lanes execute the instruction under way, and the wave before it advanced. -/
structure Exec where
  en     : Mask
  run    : Mask
  before : Wave

/-- The record of a lane that keeps its entry after the instruction and will replay it (R61, R169): RESTART 1. -/
def restartRecord (s : State) (x : Exec) (code window : Nat) (addr : DWord) (l : Fin 32) : TrapRecord :=
  { cause := causeWord code window true, addr := addr, pc := s.iss.pc.setWidth 64, entry := entryWord s.w.pc[l] .ready,
    guard := s.w.guard[l], guardAt := x.before.guard[l], enabled := bit x.en l, passed := s.iss.replay.isNone && bit x.run l }

/-- The record of a lane whose entry holds the faulting instruction's address (R465): RESTART 0. -/
def againRecord (s : State) (x : Exec) (code : Nat) (addr : DWord) (l : Fin 32) : TrapRecord :=
  { cause := causeWord code 0 false, addr := addr, pc := s.iss.pc.setWidth 64, entry := entryWord s.iss.pc .ready,
    guard := x.before.guard[l], guardAt := x.before.guard[l], enabled := bit x.en l, passed := s.iss.replay.isNone && bit x.run l }

/-- The fault of a lane in a list. -/
def faultOf (fs : List LaneFault) (l : Fin 32) : Option LaneFault := fs.find? fun f => f.lane == l

/-- The lanes of a list of faults. -/
def faultLanes (fs : List LaneFault) : Mask := maskOf fun l => (faultOf fs l).isSome

/-- Faulting lanes park with RESTART 1, each with its own cause and address (R169). -/
def parkRestart (x : Exec) (fs : List LaneFault) (s : State) : State :=
  park (faultLanes fs) (fun l => match faultOf fs l with
    | some f => restartRecord s x f.cause 0 f.addr l
    | none => s.w.recs[l]) s

/-- Faulting lanes park at the instruction with RESTART 0, each with its own cause and address (R465). -/
def parkAgain (x : Exec) (fs : List LaneFault) (s : State) : State :=
  park (faultLanes fs) (fun l => match faultOf fs l with
    | some f => againRecord s x f.cause f.addr l
    | none => s.w.recs[l]) s

/-- One fault for every lane of the run. -/
def allLanes (m : Mask) (cause : Nat) (addr : DWord) : List LaneFault := (lanesOf m).map fun l => ⟨l, cause, addr⟩

/-- A group form faults for its whole run with RESTART 0 (R465). -/
def faultRun (x : Exec) (cause : Nat) (addr : DWord) (s : State) : State := parkAgain x (allLanes x.run cause addr) s

/-- A group form faults for its whole run and will replay (R233). -/
def replayRun (x : Exec) (cause : Nat) (addr : DWord) (s : State) : State := parkRestart x (allLanes x.run cause addr) s

/-- The address of the instruction under way, where a rule names none (R465). -/
def State.here (s : State) : DWord := s.iss.pc.setWidth 64

/-- The lanes that a decode fault parks (R67): the run, with every other ready lane at the instruction's address. -/
def State.atPc (s : State) : Mask := s.iss.run ||| (s.w.ready &&& maskOf fun l => s.w.pc[l] == s.iss.pc)

/-- A decode fault (R67): RESTART 0, WINDOW 0, the entries, %trappc and %trapaddr at the instruction. With no lane to park,
the trap registers take the fault's values and the wave goes on (R69). DESIGN CHOICE (log entry 67): an instruction that was never
issued counts as enabled in every lane that parks, should the handler set RESTART. -/
def decodeFault (code : Nat) (addr : DWord) (s : State) : State :=
  let m := s.atPc
  let x : Exec := ⟨m, 0, s.w⟩
  if m = 0 then
    s.modW fun w => Wave.releaseAll { w with
      trapcause := causeWord code 0 false, trapaddr := addr, trapmask := 0, trappc := s.here }
  else park m (againRecord s x code addr) s

/-- The lanes of a sub-wave that carry its reported cause, lowest code first (R405). -/
def reported (w : Wave) (m : Mask) : Option (Fin 32) :=
  (lanesOf m).foldl (fun b l => match b with
    | none => some l
    | some j => if causeCode w.recs[l].cause < causeCode w.recs[j].cause then some l else some j) none

/-- Whether a cause is a comb fault of a lane (R42, R253). -/
def combCause (c : Word) : Bool := causeCode c == 0x17 || causeCode c == 0x18

/-- The address that a sub-wave reports: that of the reported lane (R405), or, for a comb fault, the handle of its lowest-indexed lane with
such a fault (R248). -/
def presented (w : Wave) (m : Mask) (l : Fin 32) : DWord :=
  if combCause w.recs[l].cause then
    match (lanesOf m).find? fun j => combCause w.recs[j].cause with
    | some j => w.recs[j].addr
    | none => w.recs[l].addr
  else w.recs[l].addr

/-- The handler address of the group: HANDLER of its launch, else the context's default (R279, R410). -/
def State.handlerAddr (s : State) : DWord :=
  if s.grp.handler ≠ 0 then s.grp.handler else (s.ctx s.grp.task.ctx).defhandler.setWidth 64

/-- Taking a trap (R279, R407): the first queued sub-wave enters the handler. %trapcause, %trapaddr, %trapmask, %trappc and
%trapent take the trap, the lanes run from the handler's address, privileged, with guard counts and yield bits 0. With no
handler the group ends (R410). -/
def enterHandler (s : State) : State :=
  match s.w.subs with
  | [] => s
  | sub :: t =>
    match reported s.w sub.lanes with
    | none => s.modW fun w => { w with subs := t }
    | some l =>
      if s.handlerAddr = 0 then stopGroup 3 s
      else
        let r := s.w.recs[l]
        let target := (s.handlerAddr.setWidth 56 : BitVec 56)
        s.modW fun w =>
          let w := (((w.setState sub.lanes .ready).setPc sub.lanes fun _ => target).setGuard sub.lanes fun _ => Guard.none)
          { w with
            trapcause := r.cause, trapaddr := presented w sub.lanes l, trapmask := sub.lanes, trappc := r.pc
            trapent := Lanes.ofFn fun i => if bit sub.lanes i then w.recs[i].entry else w.trapent[i]
            yieldMask := w.yieldMask &&& ~~~sub.lanes
            subs := t, handler := some sub }

/-- Whether an entry that a handler left holds a reserved STATE or KIDX (R26). -/
def entryReserved (e : DWord) : Bool := 5 ≤ entryState e || 12 ≤ entryKidx e

/-- Returning from a trap (R281, R411): lanes outside %trapmask and lanes left exited or inactive exit; the others go on as
their entries say, guard windows restored; with RESTART 1 the wave owes a replay before release is evaluated. A reserved
entry of any lane of the sub-wave ends the group (R26). -/
def returnFromTrap (s : State) : State :=
  match s.w.handler with
  | none => s
  | some h =>
    let back := s.w.trapmask &&& h.lanes
    let ent (l : Fin 32) : DWord := s.w.trapent[l]
    if (lanesOf h.lanes).any fun l => entryReserved (ent l) then stopGroup 3 s
    else
      let is (n : Nat) : Mask := back &&& maskOf fun l => entryState (ent l) == n
      let stay := is 2
      let w := s.w.setState (h.lanes &&& ~~~back ||| is 3 ||| is 4) .exited
      let w := { w with k := w.k.map fun x => x &&& w.present }
      let w := (w.setState (is 0) .ready).setPc back fun l => entryPc (ent l)
      let w := { w with st := Lanes.ofFn fun l => if bit (is 1) l then .waiting (Fin.ofNat 16 (entryKidx (ent l))) else w.st[l] }
      let w := w.setState stay .parked
      let w := w.setGuard (is 0 ||| is 1) fun l => w.recs[l].guard
      let w := { w with
        handler := none
        recs := Lanes.ofFn fun l => if bit stay l then
            { w.recs[l] with cause := w.trapcause, addr := w.trapaddr, pc := w.trappc, entry := ent l }
          else w.recs[l]
        subs := if stay = 0 then w.subs else w.subs ++ [⟨stay, s.nextUid⟩]
        replay := if causeRestart w.trapcause then
            some ⟨entryPc w.trappc, is 0, is 0 &&& maskOf fun l => w.recs[l].enabled⟩
          else none }
      (s.modW fun _ => if causeRestart w.trapcause then w else w.releaseAll).fresh

/-! ## Privilege -/

/-- Whether the run executes in a trap handler. -/
def State.inHandler (s : State) : Bool := s.iss.run ≠ 0 && (s.iss.run &&& ~~~s.w.handlerLanes) == 0

/-- Privileged: in a trap handler, or throughout a SYS launch (R266). -/
def State.privileged (s : State) : Bool := s.inHandler || s.grp.sys

/-! ## Pending instructions -/

/-- Whether a pending instruction concerns a lane of a mask. -/
def Pending.touches (p : Pending) (m : Mask) : Bool := p.lanes &&& m != 0

/-- Lanes of a mask that stand inside the window of a pending instruction (R56). -/
def Pending.open_ (p : Pending) (m : Mask) : Mask := p.lanes &&& m &&& maskOf fun l => p.issued[l] < p.look

/-- Lanes of a mask whose window of a pending instruction is used up (R58). -/
def Pending.used (p : Pending) (m : Mask) : Mask := p.lanes &&& m &&& maskOf fun l => p.look ≤ p.issued[l]

/-- The delivery of the fault of a pending instruction to one lane (R61, R408). A lane that had parked at a later instruction stands at that
one, which its window does not count; one that halt parked stands where halt left it (R282). A fault of a group form with RESTART 0 puts the lane back
at the instruction (R233), but for a merge's (R230). -/
def pendingRecord (p : Pending) (w : Wave) (f : LaneFault) : TrapRecord :=
  let l := f.lane
  let old := w.recs[l]
  let was := w.st[l] == .parked
  let halted := bit w.halted l
  let k := p.issued[l] - (if was && old.passed && !halted then 1 else 0)
  let window := if p.restart then p.look - k else 0
  { cause := causeWord f.cause window p.restart, addr := f.addr, pc := p.pc
    entry := if !p.restart && f.cause != 0x26 then entryWord (p.pc.setWidth 56) .ready else if halted then old.entry else if was then entryWord (entryPc old.pc) .ready else entryWord w.pc[l] .ready
    guard := if halted then old.guard else if was then old.guardAt else w.guard[l], guardAt := w.guard[l], enabled := bit p.enabled l
    passed := false }

/-- A pending instruction completes: its results are written and its faulting lanes park with the sub-wave of its issue, a lane that had
parked later leaving the sub-wave it joined, and one that halt parked no longer halted (R56, R61, R408). -/
def completePending (p : Pending) (s : State) : State :=
  let s := applyAll (s.modW fun w => { w with pending := w.pending.filter fun q => q.id != p.id }) p.writes
  let m := faultLanes p.faults
  if m = 0 then s
  else
    let w := s.w
    let s := s.modW fun w => { w with
      halted := w.halted &&& ~~~m, subs := (w.subs.map fun b => { b with lanes := b.lanes &&& ~~~m }).filter fun b => b.lanes != 0 }
    parkAt p.issue m (fun l => match faultOf p.faults l with
      | some f => pendingRecord p w f
      | none => w.recs[l]) s

end Sys2Proof.Machine
end

