-- ==== Sys2Proof/Machine/Float.lean ====
section
/-! DEFINITION. Number formats (R74 to R99) and the arithmetic of R150 to R158: every result is computed exactly and rounded
once. -/

namespace Sys2Proof.Machine

/-- A floating-point format (R74): mantissa bits, bias, width, largest finite code, default NaN (R88), whether it has
infinities. -/
structure Fmt where
  mant : Nat
  bias : Nat
  width : Nat
  maxFinite : Nat
  nan : Nat
  hasInf : Bool
  deriving DecidableEq, Repr

/-- The formats of R74 by the codes of R156. -/
def fp32 : Fmt := ⟨23, 127, 32, 0x7F7FFFFF, 0x7FC00000, true⟩
def fp16 : Fmt := ⟨10, 15, 16, 0x7BFF, 0x7E00, true⟩
def bf16 : Fmt := ⟨7, 127, 16, 0x7F7F, 0x7FC0, true⟩
def e4m3 : Fmt := ⟨3, 7, 8, 0x7E, 0x7F, false⟩
def e5m2 : Fmt := ⟨2, 15, 8, 0x7B, 0x7E, true⟩
def fmtOf (c : Nat) : Fmt :=
  match c with
  | 0 => fp32
  | 1 => fp16
  | 2 => bf16
  | 3 => e4m3
  | _ => e5m2

/-- The rounding modes of R86. -/
inductive Mode where
  | nearest
  | zero
  | down
  | up
  deriving DecidableEq, Repr

/-- A rounding mode by its mod value (R65). -/
def modeOf (r : Fin 4) : Mode :=
  match r with
  | 0 => .nearest
  | 1 => .zero
  | 2 => .down
  | 3 => .up

/-- A value: NaN, an infinity, or the exact number (-1)^neg * m * 2^e, whose zero keeps its sign. -/
inductive Num where
  | nan
  | inf (neg : Bool)
  | fin (neg : Bool) (m : Nat) (e : Int)
  deriving DecidableEq, Repr

/-- The sign bit, the exponent field and the mantissa field of a code. -/
def signBit (f : Fmt) (x : Nat) : Bool := testBit x (f.width - 1)
def magBits (f : Fmt) (x : Nat) : Nat := x % 2 ^ (f.width - 1)

/-- Whether a code is a NaN (R74, R75). -/
def isNan (f : Fmt) (x : Nat) : Bool := if f.hasInf then f.maxFinite + 1 < magBits f x else f.maxFinite < magBits f x

/-- The value of a code (R74 to R76). -/
def valueOf (f : Fmt) (x : Nat) : Num :=
  let neg := signBit f x
  let mag := magBits f x
  if isNan f x then .nan
  else if f.maxFinite < mag then .inf neg
  else
    let ex := mag / 2 ^ f.mant
    let fr := mag % 2 ^ f.mant
    if ex = 0 then .fin neg fr (1 - f.bias - f.mant)
    else .fin neg (2 ^ f.mant + fr) (ex - f.bias - f.mant)

/-- The code with a sign. -/
def withSign (f : Fmt) (neg : Bool) (x : Nat) : Nat := if neg then 2 ^ (f.width - 1) + x else x

/-- What overflow gives (R87). -/
def overflow (f : Fmt) (r : Mode) (neg : Bool) : Nat :=
  if !f.hasInf then f.maxFinite
  else
    match r, neg with
    | .nearest, _ => f.maxFinite + 1
    | .zero, _ => f.maxFinite
    | .down, true => f.maxFinite + 1
    | .down, false => f.maxFinite
    | .up, true => f.maxFinite
    | .up, false => f.maxFinite + 1

/-- Whether rounding adds one to n, given the remainder rem out of 2^d (R86). -/
def roundsUp (r : Mode) (neg : Bool) (n rem d : Nat) : Bool :=
  if rem = 0 then false
  else match r with
    | .nearest => 2 ^ d < 2 * rem || (2 * rem == 2 ^ d && n % 2 == 1)
    | .zero => false
    | .down => neg
    | .up => !neg

/-- m * 2^e as an integer, rounded. -/
def roundInt (r : Mode) (neg : Bool) (m : Nat) (e : Int) : Nat :=
  if 0 ≤ e then m * 2 ^ e.toNat
  else
    let d := (-e).toNat
    let n := m / 2 ^ d
    if roundsUp r neg n (m % 2 ^ d) d then n + 1 else n

/-- The code of (-1)^neg * m * 2^e rounded once to a format (R86, R87). -/
def roundTo (f : Fmt) (r : Mode) (neg : Bool) (m : Nat) (e : Int) : Nat :=
  if m = 0 then withSign f neg 0
  else
    let low : Int := 1 - f.bias - f.mant
    let q := max (Nat.log2 m + e - f.mant) low
    let n := roundInt r neg m (e - q)
    let code := (q - low).toNat * 2 ^ f.mant + n
    withSign f neg (if f.maxFinite < code then overflow f r neg else code)

/-- A value rounded once to a format; NaN gives the default NaN (R88), an infinity of a format without one saturates (R92). -/
def codeOf (f : Fmt) (r : Mode) : Num → Nat
  | .nan => f.nan
  | .inf neg => withSign f neg (if f.hasInf then f.maxFinite + 1 else f.maxFinite)
  | .fin neg m e => roundTo f r neg m e

/-- A signed integer scaled by 2^e as a value; a zero takes the sign given. -/
def numOf (z : Int) (e : Int) (zeroNeg : Bool) : Num :=
  if z = 0 then .fin zeroNeg 0 0 else .fin (decide (z < 0)) z.natAbs e

/-- A finite value as a signed integer scaled by 2^c, for c not above its exponent. -/
def scaled (neg : Bool) (m : Nat) (e c : Int) : Int :=
  let x : Int := (m : Int) * 2 ^ (e - c).toNat
  if neg then -x else x

/-- The exact sum; a zero sum of opposite signs takes the sign of R89. -/
def addNum (r : Mode) (a b : Num) : Num :=
  match a, b with
  | .nan, _ => .nan
  | _, .nan => .nan
  | .inf s, .inf t => if s = t then .inf s else .nan
  | .inf s, _ => .inf s
  | _, .inf t => .inf t
  | .fin s m e, .fin t n g =>
    let c := min e g
    numOf (scaled s m e c + scaled t n g c) c (if s = t then s else r == .down)

/-- The negation of a value. -/
def negNum : Num → Num
  | .nan => .nan
  | .inf s => .inf !s
  | .fin s m e => .fin (!s) m e

/-- The exact product (R96 step 3 to 5). -/
def mulNum (a b : Num) : Num :=
  match a, b with
  | .nan, _ => .nan
  | _, .nan => .nan
  | .inf s, .inf t => .inf (s != t)
  | .inf s, .fin t n _ => if n = 0 then .nan else .inf (s != t)
  | .fin s m _, .inf t => if m = 0 then .nan else .inf (s != t)
  | .fin s m e, .fin t n g => .fin (s != t) (m * n) (e + g)

/-- The FP32 value of a word. -/
def f32 (x : Word) : Num := valueOf fp32 x.toNat

/-- A value rounded to FP32. -/
def toF32 (r : Mode) (x : Num) : Word := BitVec.ofNat 32 (codeOf fp32 r x)

/-- The arithmetic of R150. -/
def fadd (r : Mode) (a b : Word) : Word := toF32 r (addNum r (f32 a) (f32 b))
def fsub (r : Mode) (a b : Word) : Word := toF32 r (addNum r (f32 a) (negNum (f32 b)))
def fmul (r : Mode) (a b : Word) : Word := toF32 r (mulNum (f32 a) (f32 b))
def ffma (r : Mode) (a b c : Word) : Word := toF32 r (addNum r (mulNum (f32 a) (f32 b)) (f32 c))

/-- Whether a word is an FP32 NaN. -/
def nan32 (x : Word) : Bool := isNan fp32 x.toNat

/-- The default NaN (R88). -/
def defaultNan : Word := 0x7FC00000

/-- The place of a number in the order of R151, -0 below +0. -/
def orderKey (x : Word) : Int :=
  if testBit x.toNat 31 then -(x.toNat % 2 ^ 31 : Nat) - 1 else (x.toNat : Int)

/-- The lesser and the greater of two numbers (R151). -/
def lesser (a b : Word) : Word := if orderKey b < orderKey a then b else a
def greater (a b : Word) : Word := if orderKey a < orderKey b then b else a

/-- fmin, fmax and their .num forms (R151). -/
def fminOp (a b : Word) : Word := if nan32 a || nan32 b then defaultNan else lesser a b
def fmaxOp (a b : Word) : Word := if nan32 a || nan32 b then defaultNan else greater a b
def fminNum (a b : Word) : Word :=
  if nan32 a && nan32 b then defaultNan else if nan32 a then b else if nan32 b then a else lesser a b
def fmaxNum (a b : Word) : Word :=
  if nan32 a && nan32 b then defaultNan else if nan32 a then b else if nan32 b then a else greater a b

/-- fabs, fneg and fcopysign (R152). -/
def fabsOp (a : Word) : Word := a &&& 0x7FFFFFFF
def fnegOp (a : Word) : Word := a ^^^ 0x80000000
def fcopysignOp (a b : Word) : Word := a &&& 0x7FFFFFFF ||| b &&& 0x80000000

/-! ## Square root and approximations -/

/-- fsqrt (R153, R154), rounded exactly: the root of m * 2^e with a sticky bit below it. -/
def fsqrtOp (r : Mode) (a : Word) : Word :=
  match f32 a with
  | .nan => defaultNan
  | .inf neg => if neg then defaultNan else 0x7F800000
  | .fin neg m e =>
    if m = 0 then a
    else if neg then defaultNan
    else
      let up : Nat := if (e % 2 = 0) then 80 else 81
      let big := m * 2 ^ up
      let root := Nat.sqrt big
      let sticky := if root * root = big then 0 else 1
      toF32 r (.fin false (2 * root + sticky) ((e - up) / 2 - 1))

/-- A value with an error: the exact number lies within one unit of m * 2^e. -/
structure Near where
  neg : Bool
  m   : Nat
  e   : Int
  deriving DecidableEq, Repr

/-- Whether an FP32 result lies within a bound, a number of units of 2^be, of a near value (R154). -/
def withinBound (y : Word) (x : Near) (units : Nat) (be : Int) : Bool :=
  match f32 y with
  | .nan => false
  | .inf _ => false
  | .fin neg m e =>
    let c := min (min e x.e) be
    let d := (scaled neg m e c - scaled x.neg x.m x.e c).natAbs
    d + 2 ^ (x.e - c).toNat ≤ units * 2 ^ (be - c).toNat

/-- The exponent of one ulp of a result (R153). -/
def ulpExp (y : Word) : Int := max ((bitsOf y.toNat 23 8 : Nat) - 127 : Int) (-126) - 23

/-- The device's approximation where it lies within the bound of R154, else the near value rounded (log entry 8). -/
def approximation (y : Word) (x : Near) (units : Nat) (be : Int) : Word :=
  if withinBound y x units be then y else toF32 .nearest (.fin x.neg x.m x.e)

/-- The order of FP32 codes that are no NaN. -/
def codeOrder (x : Word) : Int := if x.toNat < 2 ^ 31 then x.toNat else -((x.toNat - 2 ^ 31 : Nat) : Int)

/-- Whether a function of FP32 codes is monotonic where it is to be (R154): rises says of neighbouring finite codes n and n + 1 whether the exact
function rises from one to the other, none where it is not monotonic between them. -/
def monotonic (f : Word → Word) (rises : Nat → Option Bool) : Bool :=
  (List.range (2 ^ 32 - 1)).all fun n =>
    if 0x7F7FFFFF ≤ n % 2 ^ 31 then true
    else match rises n with
      | none => true
      | some true => codeOrder (f (BitVec.ofNat 32 n)) ≤ codeOrder (f (BitVec.ofNat 32 (n + 1)))
      | some false => codeOrder (f (BitVec.ofNat 32 (n + 1))) ≤ codeOrder (f (BitVec.ofNat 32 n))

/-- An approximation of the device as an instruction takes it: op turns an approximation into the instruction's function; one with which that function
is not monotonic gives way to the near values (R154, log entry 8). -/
def device (op : (Word → Word) → Word → Word) (rises : Nat → Option Bool) (y : Word → Word) (a : Word) : Word :=
  if monotonic (op y) rises then y a else defaultNan

/-- Whether a code is of a negative number. -/
def negCode (n : Nat) : Bool := decide (2 ^ 31 ≤ n)

/-- frcp with an approximation (R154). -/
def frcpWith (y : Word → Word) (a : Word) : Word :=
  match f32 a with
  | .nan => defaultNan
  | .inf neg => if neg then 0x80000000 else 0
  | .fin neg m e =>
    if m = 0 then (if neg then 0xFF800000 else 0x7F800000)
    else if 2 ^ Nat.log2 m = m then toF32 .nearest (.fin neg 1 (-e - Nat.log2 m))
    else if Nat.log2 m + e < -128 then (if neg then 0xFF800000 else 0x7F800000)
    else
      let y := y a
      approximation y ⟨neg, 2 ^ 120 / m, -120 - e⟩ 1 (ulpExp y)

/-- frcp (R154). -/
def frcpOp (a : Word) : Word := frcpWith (device frcpWith (fun n => some (negCode n)) Config.frcp) a

/-- frsq with an approximation (R154): a power of four has an exact result. -/
def frsqWith (y : Word → Word) (a : Word) : Word :=
  match f32 a with
  | .nan => defaultNan
  | .inf neg => if neg then defaultNan else 0
  | .fin neg m e =>
    if m = 0 then (if neg then 0xFF800000 else 0x7F800000)
    else if neg then defaultNan
    else
      let m' := if e % 2 = 0 then m else 2 * m
      let e' := if e % 2 = 0 then e else e - 1
      let big := 2 ^ 200 / m'
      let root := Nat.sqrt big
      if root * root * m' = 2 ^ 200 then toF32 .nearest (.fin false root (-100 - e' / 2))
      else
        let y := y a
        approximation y ⟨false, root, -100 - e' / 2⟩ 1 (ulpExp y)

/-- frsq (R154). -/
def frsqOp (a : Word) : Word := frsqWith (device frsqWith (fun n => if negCode n then none else some false) Config.frsq) a

/-- The sum of the first terms of a series, each term from the last by f. -/
def series (f : Nat → Int → Int) : Nat → Nat → Int → Int
  | 0, _, _ => 0
  | fuel + 1, n, t => t + series f fuel (n + 1) (f n t)

/-- Natural logarithm of 2, scaled by 2^120. -/
def ln2 : Int := 0xb17217f7d1cf79abc9e3b39803f2f6

/-- Pi, scaled by 2^400. -/
def piScaled : Int := 0x3243f6a8885a308d313198a2e03707344a4093822299f31d0082efa98ec4e6c89452821e638d01377be5466cf34e90c6cc0ac

/-- 2^f for f in [0, 1) scaled by 2^120, by the exponential series. -/
def exp2Scaled (f : Int) : Int :=
  let t := f * ln2 / 2 ^ 120
  series (fun n x => x * t / 2 ^ 120 / (n + 1 : Nat)) 40 0 (2 ^ 120)

/-- fexp2 with an approximation (R154). -/
def fexp2With (y : Word → Word) (a : Word) : Word :=
  match f32 a with
  | .nan => defaultNan
  | .inf neg => if neg then 0 else 0x7F800000
  | .fin neg m e =>
    if m = 0 then 0x3F800000
    else
      let z := scaled neg m e (min e (-149))
      let k := z / 2 ^ (- min e (-149)).toNat
      let frac := z % 2 ^ (- min e (-149)).toNat
      if 128 ≤ k then 0x7F800000
      else if k < -150 ∨ (k = -150 ∧ frac = 0) then 0
      else if frac = 0 then toF32 .nearest (.fin false 1 k)
      else
        let y := y a
        let f := frac * 2 ^ 120 / 2 ^ (- min e (-149)).toNat
        approximation y ⟨false, (exp2Scaled f).toNat / 2 ^ 20, k - 100⟩ 2 (ulpExp y)

/-- fexp2 (R154). -/
def fexp2Op (a : Word) : Word := fexp2With (device fexp2With (fun n => some (!negCode n)) Config.fexp2) a

/-- The natural logarithm of (1 + z) / (1 - z), halved, scaled by 2^120: the odd powers of z over their numbers. -/
def atanhScaled (z : Int) : Nat → Nat → Int → Int
  | 0, _, _ => 0
  | fuel + 1, n, p => p / (n : Nat) + atanhScaled z fuel (n + 2) (p * z / 2 ^ 120 * z / 2 ^ 120)

/-- flog2 with an approximation (R154). -/
def flog2With (y : Word → Word) (a : Word) : Word :=
  match f32 a with
  | .nan => defaultNan
  | .inf neg => if neg then defaultNan else 0x7F800000
  | .fin neg m e =>
    if m = 0 then 0xFF800000
    else if neg then defaultNan
    else
      let k := Nat.log2 m + e
      if 2 ^ Nat.log2 m = m then toF32 .nearest (numOf k 0 false)
      else
        let one := (2 : Int) ^ Nat.log2 m
        let z := (m - one) * 2 ^ 120 / (m + one)
        let l := k * 2 ^ 120 + 2 * atanhScaled z 50 1 z * 2 ^ 120 / ln2
        let x : Near := ⟨decide (l < 0), l.natAbs / 2 ^ 20, -100⟩
        let y := y a
        if 0x3F000000 ≤ a.toNat ∧ a.toNat ≤ 0x40000000 then approximation y x 1 (-22) else approximation y x 2 (ulpExp y)

/-- flog2 (R154). -/
def flog2Op (a : Word) : Word := flog2With (device flog2With (fun n => if negCode n then none else some true) Config.flog2) a

/-- sin or cos of an angle scaled by 2^120, from the first term and its number in the alternating series. -/
def trigSeries (r : Int) : Nat → Nat → Int → Int
  | 0, _, _ => 0
  | fuel + 1, n, t => t + trigSeries r fuel (n + 2) (-(t * r / 2 ^ 120 * r / 2 ^ 120) / ((n + 1) * (n + 2) : Nat))

/-- An angle brought into one turn, scaled by 2^120. -/
def reduceAngle (neg : Bool) (m : Nat) (e : Int) : Int :=
  let x := scaled neg m (e + 400) 0
  x % (2 * piScaled) / 2 ^ 280

/-- fsin and fcos with an approximation (R154): a value within the bound and not above 1.0 in magnitude. -/
def trigWith (cos : Bool) (y : Word → Word) (a : Word) : Word :=
  match f32 a with
  | .nan => defaultNan
  | .inf _ => defaultNan
  | .fin neg m e =>
    if a.toNat % 2 ^ 31 ≤ 0x39800000 then (if cos then 0x3F800000 else a)
    else
      let r := reduceAngle neg m e
      let v := if cos then trigSeries r 40 0 (2 ^ 120) else trigSeries r 40 1 r
      let x : Near := ⟨decide (v < 0), v.natAbs / 2 ^ 20, -100⟩
      let z := approximation (y a) x 1 (-21)
      if z.toNat % 2 ^ 31 ≤ 0x3F800000 then z else z &&& 0x80000000 ||| 0x3F800000

/-- The half turn of sin or cos, from one extreme to the next, that a code lies in. -/
def halfTurn (cos : Bool) (n : Nat) : Int :=
  match f32 (BitVec.ofNat 32 n) with
  | .fin neg m e => (scaled neg m (e + 400) 0 + if cos then 0 else piScaled / 2) / piScaled
  | .nan => 0
  | .inf _ => 0

/-- How sin or cos runs between neighbouring codes of one half turn. -/
def trigRises (cos : Bool) (n : Nat) : Option Bool :=
  let k := halfTurn cos n
  if k = halfTurn cos (n + 1) then some ((k % 2 == 0) != (cos != negCode n)) else none

/-- fsin and fcos (R154). -/
def fsinOp (a : Word) : Word := trigWith false (device (trigWith false) (trigRises false) Config.fsin) a
def fcosOp (a : Word) : Word := trigWith true (device (trigWith true) (trigRises true) Config.fcos) a

/-! ## Conversions -/

/-- A narrow code as FP32, exactly, NaN payloads carried (R91). -/
def widen (f : Fmt) (x : Nat) : Nat :=
  if isNan f x then
    withSign fp32 (signBit f x) (if f.hasInf then 0x7F800000 + x % 2 ^ f.mant * 2 ^ (23 - f.mant) else 0x7FF00000)
  else codeOf fp32 .nearest (valueOf f x)

/-- FP32 as a narrower code (R92). -/
def narrow (f : Fmt) (r : Mode) (x : Nat) : Nat :=
  if isNan fp32 x then
    let top := x % 2 ^ 23 / 2 ^ (23 - f.mant)
    withSign f (signBit fp32 x) (if f.hasInf then f.maxFinite + 1 + (if top = 0 then 1 else top) else f.nan)
  else codeOf f r (valueOf fp32 x)

/-- FP32 as a two's-complement integer of n bits, saturating; NaN gives 0 (R93). -/
def toInt (n : Nat) (r : Mode) (x : Nat) : Nat :=
  match valueOf fp32 x with
  | .nan => 0
  | .inf neg => if neg then 2 ^ (n - 1) else 2 ^ (n - 1) - 1
  | .fin neg m e =>
    let i := if 64 < Nat.log2 m + e then 2 ^ 64 else roundInt r neg m e
    if neg then (if 2 ^ (n - 1) ≤ i then 2 ^ (n - 1) else (2 ^ n - i) % 2 ^ n)
    else (if 2 ^ (n - 1) ≤ i then 2 ^ (n - 1) - 1 else i)

/-- A two's-complement integer of n bits as FP32 under a mode (R90). -/
def ofInt (n : Nat) (r : Mode) (x : Nat) : Nat :=
  if testBit x (n - 1) then roundTo fp32 r true (2 ^ n - x % 2 ^ n) 0 else roundTo fp32 r false (x % 2 ^ n) 0

/-- One element from format X to format Y (R90 to R93), formats by the codes of R156. -/
def convert (x y : Nat) (r : Mode) (c : Nat) : Nat :=
  let mid := if x = 0 then c else if x = 5 then ofInt 32 r c else if x = 6 then ofInt 8 r c else widen (fmtOf x) c
  if y = 0 then mid else if y = 5 then toInt 32 r mid else if y = 6 then toInt 8 r mid else narrow (fmtOf y) r mid

/-! ## Shared-exponent blocks -/

/-- Magnitude bits of SB3, SB5 and SB8 by mod value (R79). -/
def sbBits (m : Nat) : Nat := if m = 0 then 2 else if m = 1 then 4 else 7

/-- Block bytes (R79). -/
def sbBytes (k : Nat) : Nat := 2 + 2 * (k + 1)

/-- Element i of a block held as a number (R80 to R82). -/
def sbValue (k : Nat) (block : Nat) (i : Nat) : Num :=
  let ex := block % 256
  if ex = 255 then .nan
  else
    let el := bitsOf block (16 + (k + 1) * i) (k + 1)
    let m := if testBit block (8 + i / 2) then 1 else 0
    .fin (testBit el k) (el % 2 ^ k) ((ex : Int) - 127 - m - (k - 1 : Nat))

/-- The magnitude of an FP32 code as m * 2^e, an infinity taken as the largest finite value (R83). -/
def sbMag (x : Nat) : Nat × Int :=
  match valueOf fp32 x with
  | .nan => (0, 0)
  | .inf _ => (2 ^ 24 - 1, 104)
  | .fin _ m e => (m, e)

/-- The exponent of a nonzero magnitude. -/
def sbExp (a : Nat × Int) : Option Int := if a.1 = 0 then none else some (Nat.log2 a.1 + a.2)

/-- The encoder of R83 over the FP32 codes of 16 elements: a block as a number. -/
def sbEncode (k : Nat) (xs : List Nat) : Nat :=
  if xs.any (isNan fp32) then 0xFF
  else
    let mags := xs.map sbMag
    let emax := (mags.filterMap sbExp).foldl max (-150)
    let t : Int := if emax = -150 then -127 else max emax (-127)
    let below (a : Nat × Int) : Bool := match sbExp a with
      | none => true
      | some e => decide (e < t)
    let at_ (i : Nat) : Nat × Int := mags.getD i (0, 0)
    let micro (j : Nat) : Nat := if below (at_ (2 * j)) && below (at_ (2 * j + 1)) then 1 else 0
    let element (i : Nat) : Nat :=
      let a := at_ i
      let q := roundInt .nearest false a.1 (a.2 + ((k - 1 : Nat) - t + (micro (i / 2) : Nat)))
      min q (2 ^ k - 1) + (if testBit (xs.getD i 0) 31 then 2 ^ k else 0)
    (t + 127).toNat + (List.range 8).foldl (fun s j => s + micro j * 2 ^ (8 + j)) 0 +
      (List.range 16).foldl (fun s i => s + element i * 2 ^ (16 + (k + 1) * i)) 0

/-! ## The matrix unit -/

/-- The value of an E8M0 scale (R85). -/
def scaleOf (x : Nat) : Num := if x = 255 then .nan else .fin false 1 ((x : Int) - 127)

/-- One product, the scale settled first (R96). -/
def product (a b sa sb : Num) : Num :=
  match sa, sb with
  | .nan, _ => .nan
  | _, .nan => .nan
  | _, _ => mulNum (mulNum a b) (mulNum sa sb)

/-- A common exponent below every product's. -/
def chunkExp : Int := -1000

/-- The chunk sum of R97. -/
def chunkSum (ps : List Num) : Num :=
  let isInf (neg : Bool) (p : Num) : Bool := match p with
    | .inf t => t == neg
    | _ => false
  if ps.contains .nan || (ps.any (isInf true) && ps.any (isInf false)) then .nan
  else if ps.any (isInf true) then .inf true
  else if ps.any (isInf false) then .inf false
  else
    let val (p : Num) : Int := match p with
      | .fin s m e => scaled s m e chunkExp
      | _ => 0
    let negZero (p : Num) : Bool := match p with
      | .fin s m _ => s && m == 0
      | _ => false
    numOf (ps.foldl (fun z p => z + val p) 0) chunkExp (ps.all negZero)

/-- A cell after the chunks of a floating-point multiply in ascending order (R98). -/
def accumulate (cell : Word) (chunks : List (List Num)) : Word :=
  chunks.foldl (fun acc ps => toF32 .nearest (addNum .nearest (f32 acc) (chunkSum ps))) cell

end Sys2Proof.Machine
end

