-- ==== Sys2Proof/Machine/Home.lean ====
section
/-! DEFINITION. The home slices: the serial order of each word (R289), provisional cells (R183 to R187), side bands (R201 to
R203), aliases (R365 to R379), the ownership registry (R352 to R355), the directory (R356 to R359), poison (R419). -/

namespace Sys2Proof.Machine

/-- Who makes an access. A midge load observes nothing (R344); quiet is a walk, a fill or a scrub that is no access of R184; published is the
scheduler as it publishes what a replayable node's threads stored (R306). -/
inductive Agent where
  | wave (uid core : Nat)
  | midge
  | quiet
  | published
  | engine
  | host
  | peer (link : Nat)
  deriving DecidableEq, Repr

/-- The line, the word and the region of a physical address (R350, R381). -/
def lineOf (a : Nat) : Nat := a / 256
def wordOf (a : Nat) : Nat := a / 4 * 4
def regionOf (a : Nat) : Nat := bitsOf a 48 4

/-- The package slice of a physical address (R351). -/
def sliceOf (a : Nat) : Nat :=
  let t := bitsOf a 12 3 ^^^ bitsOf a 20 3 ^^^ bitsOf a 28 3
  let h := bitsOf a 12 16 ^^^ bitsOf a 28 16 ^^^ bitsOf a 44 8
  160 * (t / 4) + h % 160

/-- The package stack of a physical address, die 0's first (R351, R415). -/
def stackOf (a : Nat) : Nat := bitsOf a 12 3 ^^^ bitsOf a 20 3 ^^^ bitsOf a 28 3

/-- The words that n bytes from an address touch. -/
def wordsOf (a n : Nat) : List Nat := (List.range ((a + n - 1) / 4 + 1 - a / 4)).map fun i => (a / 4 + i) * 4

/-- The tags of this device's requests at a peer's home agent; a tag below it is the number of a line. -/
def remoteTag : Nat := 2 ^ 40

/-- A write of peer memory goes to its home as well, and is awaited until it is acknowledged, of a wave by its identity (R293, R307, R432); bytes of a host line
that the device does not hold exclusive are written through (R428). -/
def sendWrite (uid pa : Nat) (bs : List Byte) (s : State) : State :=
  if regionOf pa = 0 ∨ bs = [] then s
  else if 2 ≤ regionOf pa then
    let link := regionOf pa - 2
    let tag := remoteTag + s.nextUid
    { (s.send (.flit link 0x02 [pa, tag] bs)).fresh with remotes := s.remotes ++ [⟨true, link, tag, uid, 0, 0, none⟩] }
  else if s.exclusive.contains (lineOf pa) then s
  else s.send (.cxl pa 5 bs)

/-! ## Side bands -/

/-- Element bytes of a side band's format (R201). -/
def bandBytes (form : Nat) : Nat := if form = 2 then 2 else 1

/-- A side band's rounded elements laid into its line (R202). -/
def layBand (b : Band) (s : State) : State :=
  b.shadows.foldl (fun s e =>
    s.poke e.1 (leBytes (bandBytes b.form) (narrow (fmtOf b.form) .nearest e.2.toNat))) s

/-- The line is rounded: its side band's shadows become elements and the band is freed (R202). -/
def roundLine (line : Nat) (s : State) : State :=
  match s.bands.find? fun b => b.line == line with
  | some b => layBand b { s with bands := s.bands.filter fun c => c.line != line }
  | none => s

/-! ## What the base dies refuse (R441) -/

/-- The channel of a burst within its stack (R437). -/
def chOf (a : Nat) : Nat := bitsOf a 8 5 ^^^ bitsOf a 13 5

/-- The burst of an address. -/
def burstOf (a : Nat) : Nat := a / 64 * 64

/-- A row of a stack by channel and number. -/
def rowKey (a : Nat) : Nat := chOf a * 2 ^ 32 + Config.rowOf a % 2 ^ 32

/-- A port. -/
def State.port (s : State) (k : Nat) : Isais := s.isais.getD k Isais.blank

/-- A reply has arrived: its TAG's permit is back, and counts for the audit (R439). -/
def Isais.answered (tag : Nat) (p : Isais) : Isais :=
  { p with
    outstanding := p.outstanding.filter fun m => m.tag != tag, buffer := p.buffer.filter fun m => m.1 != tag
    audit := p.audit.map fun a => (a.1, a.2 + 1) }

/-- Whether a channel of a stack is present (R442). -/
def channelHere (s : State) (k ch : Nat) : Bool := (s.port k).capability.getLsbD (24 + ch)

/-- The capacity of the package: that of its stacks, as their capability beats give it in GiB (R3, R442). -/
def packageCapacity (s : State) : Nat := (s.isais.map fun p => bitsOf p.capability.toNat 12 12).sum * 2 ^ 30

/-- Whether the row of a burst is retired and not yet spared (R441). -/
def rowRefused (s : State) (k a : Nat) : Bool := (s.port k).retired.contains (rowKey a)

/-- An entry of the error log: counted in ERRSTAT, and logged where the ring has room (R421). -/
def logError (kind array addr : Nat) (s : State) : State :=
  let e := s.errlog.slots.getD s.errlog.pos (0, 0)
  let st := s.errstat.toNat
  let un := if kind = 0 ∨ kind = 2 then min (bitsOf st 32 16 + 1) 65535 else bitsOf st 32 16
  let full := testBit e.1.toNat 63
  let lost := if full then min (bitsOf st 48 8 + 1) 255 else bitsOf st 48 8
  let s := { s with errstat := BitVec.ofNat 64 (st % 2 ^ 32 + un * 2 ^ 32 + lost * 2 ^ 48) }
  if full then s
  else
    let w : DWord := BitVec.ofNat 64 (addr % 2 ^ 52 + array * 2 ^ 52 + kind * 2 ^ 56 + 2 ^ 63)
    { s with errlog := ⟨s.errlog.slots.set s.errlog.pos (w, BitVec.ofNat 64 s.clock), (s.errlog.pos + 1) % 32⟩ }.send (.msix 2)

/-- Whether an address lies in a channel that its stack does not present, or in a row of it that is retired and not yet spared (R3, R441). -/
def absentAt (s : State) (a : Nat) : Bool := regionOf a == 0 && !channelHere s (stackOf a) (chOf a)
def retiredAt (s : State) (a : Nat) : Bool := regionOf a == 0 && rowRefused s (stackOf a) a

/-- Whether a read of a word finds it poisoned (R419, R441). -/
def State.marked (s : State) (w : Nat) : Bool := s.poison.contains w || absentAt s w

/-- Words whose write the base die refuses are poisoned and the event is logged, once for each burst, with the first such word (R421, R441). -/
def refuseWords (ws : List Nat) (s : State) : State :=
  match ws.filter fun w => absentAt s w || retiredAt s w with
  | [] => s
  | bad => ((bad.map burstOf).dedup).foldl (fun s b => logError 0 0 ((bad.find? fun w => burstOf w == b).getD b) s) { s with poison := (s.poison ++ bad).dedup }

/-! ## Ownership and L2 -/

/-- A core's L1 word changed where the core holds it. -/
def Core.mapWord (c : Core) (a : Nat) (f : L1Word → L1Word) : Core :=
  { c with l1 := c.l1.map fun l =>
      if l.line = lineOf a then { l with words := l.words.map fun w => if w.1 = wordOf a then (w.1, f w.2) else w } else l }

/-- The owner of a word; none for 0x1FF (R352). -/
def ownerOf (s : State) (a : Nat) : Option Nat := (s.owners.find? fun e => e.1 == wordOf a).map (·.2)

/-- Revocation of a word's owner: its L1 copy becomes unowned and stays valid (R293, R353). -/
def revoke (a : Nat) (s : State) : State :=
  match ownerOf s a with
  | some c =>
    let t := s.modCore c fun k => k.mapWord a fun w => { w with owned := false }
    { t with owners := s.owners.filter fun e => e.1 != wordOf a }
  | none => s

/-- The owners of a line's words are revoked (R355). -/
def revokeLine (line : Nat) (s : State) : State := ((s.owners.map (·.1)).filter fun w => lineOf w == line).foldl (fun s w => revoke w s) s

/-- Whether an entry's source touches a line. -/
def touchesSource (line : Nat) (e : Alias) : Bool := lineOf e.src ≤ line && line ≤ lineOf (e.src + e.len - 1)

/-- Whether a line is pinned in L2 (R352): a live cell, a side band, or a fan-out outstanding. DESIGN CHOICE (log entry 77): so is a line of host or peer
memory that a live alias draws on or covers. -/
def pinned (s : State) (line : Nat) : Bool :=
  (s.provs.any fun c => lineOf c.addr == line) || (s.bands.any fun b => b.line == line) ||
    (s.fanOuts.any fun f => f.line == line && (f.agents != 0 || f.data != [] || !f.begun)) ||
    regionOf (line * 256) != 0 && s.aliases.any fun e => touchesSource line e || lineOf e.dst == line

/-- The package slice that holds a way: a line's own, or for a guest copy the slice of the same number on the other die (R351, R356). -/
def L2Line.slice (e : L2Line) : Nat := (sliceOf (e.line * 256) + if e.guest then Config.slicesPerDie else 0) % (2 * Config.slicesPerDie)

/-- Whether two ways share a set of one slice's L2 (R352; log entry 77). -/
def L2Line.shares (e f : L2Line) : Bool := e.line % Config.l2Sets == f.line % Config.l2Sets && e.slice == f.slice

/-- A line is replaced in L2 (R352, R355, R356): its owners are revoked; one of host or peer memory leaves its proxy slice, and goes back to the host
where it was held exclusive (R428). A guest copy is dropped without a word. -/
def replaceWay (v : L2Line) (s : State) : State :=
  if v.guest then s
  else if regionOf (v.line * 256) = 0 then revokeLine v.line s
  else
    let s := revokeLine v.line s
    let s := if s.exclusive.contains v.line then s.send (.cxl v.line 4 (s.bytes (v.line * 256) 256)) else s
    { s with proxies := s.proxies.filter fun l => l != v.line, exclusive := s.exclusive.filter fun l => l != v.line }

/-- A way is used, and becomes dirty where its line is written: allocated over the least recently used unpinned way of a full set, or not at all where
all 16 are pinned (R352, R355; log entry 77). -/
def useWay (new : L2Line) (s : State) : State :=
  match pull (fun (e : L2Line) => e.line == new.line && e.guest == new.guest) s.l2 with
  | some (e, t) => { s with l2 := t ++ [if new.dirty && !e.dirty then new else e] }
  | none =>
    if (s.l2.filter new.shares).length < Config.l2Ways then { s with l2 := s.l2 ++ [new] }
    else match pull (fun (e : L2Line) => e.shares new && (e.guest || !pinned s e.line)) s.l2 with
      | some (v, t) => { replaceWay v s with l2 := t ++ [new] }
      | none => s

/-- A line is used at its home slice, or one of host or peer memory at the proxy slice that holds it. -/
def useL2 (line : Nat) (dirty : Bool) (s : State) : State :=
  if regionOf (line * 256) = 0 then useWay ⟨line, false, dirty, if dirty then s.bytes (line * 256) 256 else []⟩ s
  else if s.proxies.contains line then useWay ⟨line, false, dirty, []⟩ s
  else s

/-- Whether the other die's slice holds a guest copy of a line (R356), and the copy dropped. -/
def guestHeld (s : State) (line : Nat) : Bool := s.l2.any fun e => e.line == line && e.guest
def dropGuest (line : Nat) (s : State) : State := { s with l2 := s.l2.filter fun e => !(e.line == line && e.guest) }

/-- The same for lines in order. -/
def useL2All (lines : List Nat) (dirty : Bool) (s : State) : State := lines.foldl (fun s l => useL2 l dirty s) s

/-! ## Aliases -/

/-- The live entry that covers a byte (R368). -/
def coverOf (s : State) (a : Nat) : Option Alias := s.aliases.find? fun e => e.dst ≤ a && a < e.dst + e.len

/-- The address a byte is read from: its source while an entry covers it (R368). -/
def sourceOf (s : State) (a : Nat) : Nat := match coverOf s a with
  | some e => e.src + (a - e.dst)
  | none => a

/-- The words that n bytes from an address fill whole. -/
def wholeWords (a n : Nat) : List Nat := (wordsOf a n).filter fun w => a ≤ w && w + 4 ≤ a + n

/-- Bytes move as they stand, with their poison marks (R241, R371, R419): a word that is filled whole has the marks of what came, another keeps its own
as well. -/
def copyBytes (src dst n : Nat) (s : State) : State :=
  if n = 0 then s
  else
    let s := (((List.range n).map fun i => lineOf (src + i)).dedup).foldl (fun s l => roundLine l s) s
    let bs := s.bytes src n
    let bad := ((List.range n).filter fun i => s.marked (wordOf (src + i))).map fun i => wordOf (dst + i)
    let kept := s.poison.filter fun w => !(wholeWords dst n).contains w
    refuseWords (wordsOf dst n) { s.poke dst bs with poison := (kept ++ bad).dedup }

/-- The same through the slices: the destination's lines stand in L2, and a peer's or the host's memory takes the bytes. -/
def moveBytes (src dst n : Nat) (s : State) : State :=
  let lines := if n = 0 then [] else ((wordsOf dst n).map fun b => lineOf b).dedup
  let t := copyBytes src dst n (useL2All lines true s)
  sendWrite s.grp.wave.uid dst (t.bytes dst n) t

/-- The parts of [a, a + n) below and above [lo, lo + k). -/
def partBelow (a n lo : Nat) : Nat := min n (lo - a)
def partAbove (a n lo k : Nat) : Nat := a + n - max a (min (a + n) (lo + k))

/-- An entry is materialised but for the n bytes from an address, which a write is about to overwrite: its other source bytes are
copied and it is freed (R370, R371). -/
def materialiseBut (a n : Nat) (e : Alias) (s : State) : State :=
  let s := { s with aliases := s.aliases.filter fun f => f != e }
  if n = 0 then moveBytes e.src e.dst e.len s
  else
    let above := partAbove e.dst e.len a n
    let off := e.len - above
    moveBytes (e.src + off) (e.dst + off) above (moveBytes e.src e.dst (partBelow e.dst e.len a) s)

/-- An entry is materialised whole (R371). -/
def materialise (e : Alias) (s : State) : State := materialiseBut 0 0 e s

/-- The source lines of an entry (R366). -/
def Alias.sourceLines (e : Alias) : List Nat := (List.range ((e.src + e.len - 1) / 256 + 1 - e.src / 256)).map fun i => e.src / 256 + i

/-- The class of a line in a source filter (R366). -/
def filterClass (a : Nat) : Nat := bitsOf a 8 12 ^^^ bitsOf a 20 12 ^^^ bitsOf a 32 12

/-- The source-filter counter that a line selects at its home slice (R366): it is what the live entries make it. -/
def filterCount (s : State) (line : Nat) : Nat :=
  ((s.aliases.flatMap Alias.sourceLines).filter fun l =>
    sliceOf (l * 256) == sliceOf (line * 256) && filterClass (l * 256) == filterClass (line * 256)).length

/-- Before a write of n bytes to a line performs, the entries of the line and the entries that draw on it are materialised (R370, R372). -/
def settleAliasesFor (a n line : Nat) (s : State) : State :=
  let s := (s.aliases.filter fun e => lineOf e.dst == line).foldl (fun s e => materialiseBut a n e s) s
  (s.aliases.filter (touchesSource line)).foldl (fun s e => materialise e s) s

/-- The same before an access that reads what it writes. -/
def settleAliases (line : Nat) (s : State) : State := settleAliasesFor 0 0 line s

/-! ## Provisional cells -/

/-- The live cell of a word (R183). -/
def cellOf (s : State) (a : Nat) : Option Prov := s.provs.find? fun c => c.addr == wordOf a

/-- A load of the words by an agent: a foreign one sets OBS (R184). -/
def observe (g : Agent) (ws : List Nat) (s : State) : State :=
  let foreign (c : Prov) : Bool := match g with
    | .wave u _ => u != c.wave
    | .midge => false
    | .quiet => false
    | .published => true
    | .engine => true
    | .host => true
    | .peer _ => true
  { s with provs := s.provs.map fun c => if ws.contains c.addr && foreign c then { c with obs := true } else c }

/-- Cells of words are settled: freed, the words keep NEW (R184). -/
def settleWords (ws : List Nat) (s : State) : State := { s with provs := s.provs.filter fun c => !ws.contains c.addr }

/-- A withdrawal invalidates the storing core's word that is marked provisional (R186). -/
def dropProvisional (core a : Nat) (s : State) : State :=
  s.modCore core fun c => c.mapWord a fun w => if w.provisional then { w with valid := false, owned := false, provisional := false } else w

/-- Every live cell of a wave is settled (R187). -/
def settleWave (uid : Nat) (s : State) : State := { s with provs := s.provs.filter fun c => c.wave != uid }

/-! ## Registration and the directory -/

/-- A core becomes the owner of a word: the former owner is revoked (R353). -/
def claim (c a : Nat) (s : State) : State :=
  if ownerOf s a = some c then s
  else
    let s := revoke a s
    { s with owners := put s.owners (wordOf a) c }

/-- A registration: the field names the writing core, or none after a revocation (R353); a line that stands in no way of L2 has no field (R352). -/
def register (g : Agent) (a : Nat) (s : State) : State :=
  match g with
  | .wave _ c => if s.l2.any fun e => e.line == lineOf a && !e.guest then claim c a s else revoke a s
  | _ => revoke a s

/-- The 4 KiB region and the line within it (R357). -/
def dirRegion (a : Nat) : Nat := a / 4096
def dirLine (a : Nat) : Nat := a / 256 % 16

/-- A region entry becomes the most recently used, the last (R357, R359). -/
def useRegion (a : Nat) (s : State) : State := match pull (fun (r : Region) => r.region == dirRegion a) s.regions with
  | some (r, t) => { s with regions := t ++ [r] }
  | none => s

/-- The sharers of a line (R358). -/
def sharersOf (s : State) (a : Nat) : BitVec 14 :=
  match s.regions.find? fun r => r.region == dirRegion a with
  | some r => match r.lines with
    | some ls => ls.getD (dirLine a) 0
    | none => r.vec
  | none => 0

/-- The sharers outside the package, whose answers a write must await (R358). -/
def outside (v : BitVec 14) : BitVec 14 := v &&& ~~~1

/-- The bits of agents leave the line's vector; a region whose block is empty is freed (R358, R359). -/
def clearSharers (a : Nat) (v : BitVec 14) (s : State) : State :=
  let cut (r : Region) : Region :=
    if r.region = dirRegion a then { r with lines := r.lines.map fun ls => modAt ls (dirLine a) fun x => x &&& ~~~v } else r
  let live (r : Region) : Bool := match r.lines with
    | some ls => ls.any fun x => x != 0
    | none => true
  { s with regions := (s.regions.map cut).filter live }

/-- WASTE and LINEGRAIN of the die that homes an address (R363). -/
def cohOf (s : State) (a : Nat) : Word := (s.die (sliceOf a / 160)).cohcfg

/-- The line-block count of a slice. -/
def blocksAt (s : State) (slice : Nat) : Nat :=
  (s.regions.filter fun r => r.lines.isSome && sliceOf (r.region * 4096) == slice).length

/-- The least recently used line block of a slice is collapsed into its region vector (R359). -/
def collapseOne (slice : Nat) (s : State) : State :=
  match s.regions.find? fun r => r.lines.isSome && sliceOf (r.region * 4096) == slice with
  | some r => { s with regions := s.regions.map fun q =>
      if q.region = r.region then { q with vec := (r.lines.getD []).foldl (· ||| ·) 0, lines := none, cfg := cohOf s (r.region * 4096) } else q }
  | none => s

/-- A fan-out whose every answer was ABSENT counts as waste; at WASTE, as it was when the count began, the region gets a line block (R358, R359, R363). -/
def wasted (cfg : Word) (a : Nat) (s : State) : State :=
  match s.regions.find? fun r => r.region == dirRegion a with
  | none => s
  | some r =>
    if r.lines.isSome then s
    else
      let n := min (r.waste + 1) 15
      let grow := testBit cfg.toNat 12 && bitsOf r.cfg.toNat 8 4 ≤ n
      let s := if grow && Config.blocksPerSlice ≤ blocksAt s (sliceOf a) then collapseOne (sliceOf a) s else s
      { s with regions := s.regions.map fun q =>
          if q.region = r.region then
            (if grow then { q with waste := 0, lines := some (List.replicate 16 r.vec) } else { q with waste := n })
          else q }

/-- The part of a fan-out that goes to the other die, which answers at once, PRESENT where it holds a guest copy, and drops it; a fan-out that has awaited the
agents outside has asked it already (R358). -/
def fanToDie (a : Nat) (s : State) : State :=
  if (sharersOf s a).getLsbD 0 && !(s.fanOuts.any fun f => f.line == lineOf a && f.begun) then
    let t := dropGuest (lineOf a) (clearSharers a 1 s)
    if guestHeld s (lineOf a) then t else wasted (cohOf s a) a t
  else s

/-- The other die is recorded as a sharer of a line and holds a guest copy, where the slice has a region entry for it or room for one (R356, R357). DESIGN CHOICE
(log entry 90): with no room the line is served without a guest copy. -/
def grantDie (line : Nat) (s : State) : State :=
  let a := line * 256
  let keep := useWay ⟨line, true, false, []⟩
  match s.regions.find? fun r => r.region == dirRegion a with
  | some r =>
    if r.evicting then s
    else
      let upd (q : Region) : Region :=
        if q.region = r.region then
          match q.lines with
          | some ls => { q with lines := some (modAt ls (dirLine a) fun x => x ||| 1) }
          | none => { q with vec := q.vec ||| 1 }
        else q
      keep (useRegion a { s with regions := s.regions.map upd })
  | none =>
    if (s.regions.filter fun r => sliceOf (r.region * 4096) == sliceOf a).length < Config.regionsPerSlice then
      keep { s with regions := s.regions ++ [⟨dirRegion a, 1, 0, none, cohOf s a, false⟩] }
    else s

/-- The complete fan-outs of lines have let their write through (R358). -/
def endFans (lines : List Nat) (s : State) : State :=
  { s with fanOuts := s.fanOuts.filter fun f => !(lines.contains f.line && f.agents == 0 && f.data == [] && f.agent != 15) }

/-! ## Reads and writes at the home slice -/

/-- A read at the home slice, as it is answered: side bands of the lines read are rounded, bytes under an alias come from their
source, and foreign loads observe cells (R184, R202, R368). The flag says that a word read is poisoned (R419). -/
def homeFetch (g : Agent) (a n : Nat) (s : State) : State × List Byte × Bool :=
  let addrs := (List.range n).map fun i => a + i
  let s := ((addrs.map fun b => lineOf b).dedup).foldl (fun s l => roundLine l s) s
  let used := s.aliases.filter fun e => addrs.any fun b => e.dst ≤ b && b < e.dst + e.len
  let from_ := addrs.map (sourceOf s)
  let s := if used = [] then s else ((from_.map fun b => lineOf b).dedup).foldl (fun s l => roundLine l s) s
  let ws := (from_.map wordOf).dedup
  let s := observe g ws (useL2All ((ws.map fun b => lineOf b).dedup) false s)
  (s, from_.map s.byte, ws.any fun w => s.marked w)

/-- The entries a read took bytes from have READS raised once each, and those then above HOT are materialised; a midge's read
never counts (R369). -/
def countReads (g : Agent) (addrs : List Nat) (s : State) : State :=
  let hit (e : Alias) : Bool := addrs.any fun b => e.dst ≤ b && b < e.dst + e.len
  match g with
  | .midge => s
  | _ =>
    if (s.aliases.filter hit) = [] then s
    else
      let s := { s with aliases := s.aliases.map fun e => if hit e then { e with reads := min (e.reads + 1) 255 } else e }
      ((s.aliases.filter hit).filter fun e => (s.ctx e.ctx).hot < e.reads).foldl (fun s e => materialise e s) s

/-- The number that n bytes hold as a read finds them (R202, R368). -/
def homeNum (a n : Nat) (s : State) : Nat := leNat (homeFetch .quiet a n s).2.1

/-- A read at the home slice: its answer, then what it counts (R368, R369). -/
def homeRead (g : Agent) (a n : Nat) (s : State) : State × List Byte × Bool :=
  let (s, bs, bad) := homeFetch g a n s
  (countReads g ((List.range n).map fun i => a + i) s, bs, bad)

/-! ## Stores to code -/

/-- A store of a thread to n bytes, as instruction fetch knows of it (R47): what stood there is kept for the cores that have executed no icinv since. -/
def hideStore (a n : Nat) (s : State) : State :=
  let seen := s.codeLog.drop ((s.cores.map fun e => e.2.icSeq).foldl max 0)
  let now := ((List.range n).map fun i => a + i).zip (homeFetch .quiet a n s).2.1
  let new := now.filter fun b => !(seen.any fun e => e.1 == b.1 && e.2.isSome)
  { s with codeLog := s.codeLog ++ new.map fun b => (b.1, some b.2) }

/-- A write of another agent to n bytes: every core's next fetch of them finds it. -/
def showWrite (a n : Nat) (s : State) : State :=
  if s.codeLog = [] then s else { s with codeLog := s.codeLog.map fun e => if a ≤ e.1 ∧ e.1 < a + n then (e.1, none) else e }

/-- A byte as a core's fetch finds it (R47). -/
def codeByte (s : State) (core a : Nat) (now : Byte) : Byte :=
  match (s.codeLog.drop (s.core core).icSeq).find? fun e => e.1 == a && e.2.isSome with
  | some e => e.2.getD now
  | none => now

/-- A write at the home slice as instruction fetch knows of it. -/
def noteWrite (g : Agent) (a n : Nat) (s : State) : State :=
  match g with
  | .wave _ _ => hideStore a n s
  | .published => hideStore a n s
  | _ => showWrite a n s

/-- A write of words as read-only loads know of it (R298): while a launch is under way, the value that each of them had, which for a live cell is the one before
it (R316), is kept. -/
def noteRo (ws : List Nat) (s : State) : State :=
  if !s.owned.any (·.running) then s
  else { s with roLog := s.roLog ++ (ws.filter fun w => !s.marked w).map fun w => (w, match cellOf s w with
    | some c => c.old
    | none => BitVec.ofNat 32 (homeNum w 4 s)) }

/-! ## Reads and writes at the home slice, continued -/

/-- A write at the home slice, after its fan-out (R353, R370, R419): aliases and the side band of the line give way, cells
settle, the registry takes the writer, whole words lose their poison marks, and the bytes stand. DESIGN CHOICE (log entry 80): a device address at or
beyond the capacity of the package in a channel that is present, of which R3 says nothing, holds bytes like any other. -/
def homeWrite (g : Agent) (a : Nat) (bs : List Byte) (s : State) : State :=
  if bs = [] then s
  else
    let ws := wordsOf a bs.length
    let lines := (ws.map fun b => lineOf b).dedup
    let s := lines.foldl (fun s l => settleAliasesFor a bs.length l (roundLine l s)) (noteWrite g a bs.length (noteRo ws s))
    let s := settleWords ws (useL2All lines true s)
    let s := ws.foldl (fun s w => register g w s) (lines.foldl (fun s l => fanToDie (l * 256) s) s)
    let s := endFans lines s
    refuseWords ws ({ s with poison := s.poison.filter fun w => !(wholeWords a bs.length).contains w }.poke a bs)

/-- A write of bytes of a software-managed region (R176): no registration; cells settle (R184), whole words lose their poison marks (R419). -/
def homeQuiet (a : Nat) (bs : List Byte) (s : State) : State :=
  if bs = [] then s
  else
    let ws := wordsOf a bs.length
    let lines := (ws.map fun b => lineOf b).dedup
    let s := settleWords ws (useL2All lines true (lines.foldl (fun s l => settleAliasesFor a bs.length l (roundLine l s)) (hideStore a bs.length (noteRo ws s))))
    refuseWords ws ({ s with poison := s.poison.filter fun w => !(wholeWords a bs.length).contains w }.poke a bs)

/-- An agent outside the package makes a write wait for its answer (R358): whether the line's fan-out still awaits one, or has
not begun. A fan-out that is complete lets the write through. -/
def mustFan (s : State) (a : Nat) : Bool :=
  match s.fanOuts.find? fun f => f.line == lineOf a with
  | some f => f.agents != 0 || f.data != []
  | none => outside (sharersOf s a) != 0

/-- An invalidation goes to every agent of a vector outside the package (R358). -/
def invalidate (line : Nat) (v : BitVec 14) (s : State) : State :=
  (List.range 14).foldl (fun s i =>
    if v.getLsbD i && decide (1 ≤ i) then (if i = 1 then s.send (.cxl line 2 []) else s.send (.flit (i - 2) 0x05 [line] [])) else s) s

/-- A fan-out begins for a write of the lanes or of an engine (R358). -/
def startFan (a : Nat) (s : State) : State :=
  if s.fanOuts.any fun f => f.line == lineOf a then s
  else
    let v := outside (sharersOf s a)
    let here := (sharersOf s a).getLsbD 0
    let s := useL2 (lineOf a) false (useRegion a s)
    let f : FanOut := ⟨lineOf a, v, s.clock, !(here && guestHeld s (lineOf a)), true, 0, 0, 0, 0, [], 0, cohOf s a⟩
    let s := invalidate (lineOf a) v { s with fanOuts := s.fanOuts ++ [f] }
    if here then dropGuest (lineOf a) (clearSharers a 1 s) else s

/-- A line of host or peer memory leaves its proxy slice (R302, R307, R353, R356): the aliases that touch it are materialised, its owners are revoked, its
cells settle and its side band is rounded. -/
def dropLine (line : Nat) (s : State) : State :=
  let s := revokeLine line (settleAliases line (roundLine line s))
  { s with
    provs := s.provs.filter fun c => lineOf c.addr != line
    proxies := s.proxies.filter fun l => l != line
    exclusive := s.exclusive.filter fun l => l != line
    l2 := s.l2.filter fun e => e.line != line }

/-! ## Cells and bands by instruction -/

/-- tst at the home slice (R185): a plain store that opens, or keeps open, a cell while the slice has one free. -/
def homeTst (uid core a : Nat) (x : Word) (s : State) : State :=
  let prior := BitVec.ofNat 32 (s.num a 4)
  match cellOf s a with
  | some c =>
    if c.wave = uid ∧ c.obs = false then
      let s := homeWrite (.wave uid core) a (leBytes 4 x.toNat) s
      { s with provs := s.provs ++ [{ c with new := x }] }
    else
      let s := homeWrite (.wave uid core) a (leBytes 4 x.toNat) s
      { s with provs := s.provs ++ [⟨a, prior, x, uid, false⟩] }
  | none =>
    let (s, bs, _) := homeRead .quiet a 4 s
    let full := Config.cellsPerSlice ≤ (s.provs.filter fun c => sliceOf c.addr == sliceOf a).length
    let s := homeWrite (.wave uid core) a (leBytes 4 x.toNat) s
    if full then s else { s with provs := s.provs ++ [⟨a, BitVec.ofNat 32 (leNat bs), x, uid, false⟩] }

/-- retract at the home slice (R186): the code, and the word restored when it withdraws. -/
def homeRetract (uid core a : Nat) (s : State) : State × Nat :=
  let s := roundLine (lineOf a) s
  match cellOf s a with
  | some c =>
    if c.wave ≠ uid then (s, 2)
    else if c.obs then (settleWords [a] s, 1)
    else (dropProvisional core a (homeWrite (.wave uid core) a (leBytes 4 c.old.toNat) s), 0)
  | none => (s, 2)

/-- settle at the home slice: the wave's own cell of the word is freed (R187). -/
def homeSettle (uid a : Nat) (s : State) : State :=
  { s with provs := s.provs.filter fun c => c.addr != wordOf a || c.wave != uid }

/-- The side band that has gone longest without a reduction (R203). -/
def oldestBand (bs : List Band) : Option Band :=
  bs.foldl (fun m b => match m with
    | none => some b
    | some c => if b.used < c.used then some b else some c) none

/-- A narrow reduction (R201): the shadow of the element takes the sum; a band of another format rounds the line first, and a
slice with no free band rounds the line longest unused (R203). -/
def homeReduce (form : Nat) (g : Agent) (a : Nat) (x : Word) (s : State) : State :=
  let line := lineOf a
  let s := useL2 line true (settleAliases line (noteWrite g a (bandBytes form) (noteRo [wordOf a] s)))
  let s := settleWords [wordOf a] s
  let s := endFans [line] (register g a (fanToDie a s))
  let s : State := match s.bands.find? fun (b : Band) => b.line == line with
    | some b => if b.form = form then s else roundLine line s
    | none => s
  let s : State := match s.bands.find? fun (b : Band) => b.line == line with
    | some _ => s
    | none =>
      let here := s.bands.filter fun b => sliceOf (b.line * 256) == sliceOf a
      let s := if Config.bandsPerSlice ≤ here.length then
          match oldestBand here with
          | some b => roundLine b.line s
          | none => s
        else s
      { s with bands := s.bands ++ [⟨line, form, [], s.nextUid⟩] }
  let elem := widen (fmtOf form) (s.num a (bandBytes form))
  { s with
    bands := s.bands.map fun b =>
      if b.line = line then
        { b with shadows := put b.shadows a (fadd .nearest (look b.shadows a (BitVec.ofNat 32 elem)) x), used := s.nextUid }
      else b
    nextUid := s.nextUid + 1 }

/-! ## Shadowed buffers -/

/-- The declared buffer of a context that holds a virtual address (R244). -/
def bufferOf (s : State) (ctx va : Nat) : Option Shadow := (s.ctx ctx).shadows.find? fun b => b.base ≤ va && va < b.base + b.len

/-- Bytes written into the shadow of a buffer (R246). -/
def shadowWrite (ctx va : Nat) (bs : List Byte) (s : State) : State :=
  s.modCtx ctx fun c => { c with shadows := c.shadows.map fun b =>
    if b.base ≤ va ∧ va < b.base + b.len then
      { b with bytes := (List.range bs.length).foldl (fun t i => put t (va + i) (bs.getD i 0)) b.bytes }
    else b }

end Sys2Proof.Machine
end

