-- ==== Sys2Proof/Machine/Translate.lean ====
section
/-! DEFINITION. Address translation: page-table walks (R382 to R384), the TLBs (R385), leases of peer pages (R390), and the
fault queue (R387, R388). -/

namespace Sys2Proof.Machine

/-- What an access does to its page. -/
inductive Access where
  | load
  | store
  | fetch
  deriving DecidableEq, Repr

/-- A leaf that a walk found: where its entry lies, the page, and its bits (R383). -/
structure Leaf where
  pte    : Nat
  pa     : Nat
  size   : Nat
  w      : Bool
  x      : Bool
  nc     : Bool
  remote : Option Nat
  deriving DecidableEq, Repr

/-- The end of a walk: a leaf, none, a malformed or a poisoned entry, or a wait for the line of an entry in host or peer memory. -/
inductive Walk where
  | leaf (l : Leaf)
  | absent
  | malformed
  | poisoned
  | wait
  deriving DecidableEq, Repr

/-- Index bits of a level: their lowest bit and their number (R382). -/
def levelIndex (level va : Nat) : Nat :=
  match level with
  | 0 => bitsOf va 43 13
  | 1 => bitsOf va 30 13
  | 2 => bitsOf va 25 5
  | _ => bitsOf va 19 6

/-- The size of the page that a leaf of a level maps, and of a level's table (R382). -/
def leafSize (level : Nat) : Nat := if level = 1 then 2 ^ 30 else if level = 2 then 2 ^ 25 else 2 ^ 19
def tableSize (level : Nat) : Nat := if level ≤ 1 then 2 ^ 16 else if level = 2 then 256 else 512

/-- Whether an entry with V 1 is malformed at a level (R383). -/
def malformedEntry (level e : Nat) : Bool :=
  let leaf := testBit e 1
  let remote := testBit e 5
  let link := bitsOf e 52 4
  let addr := bitsOf e 6 46 * 64
  bitsOf e 56 8 != 0 || 11 < link || (!remote && link != 0) || (level == 0 && leaf) || (level == 3 && !leaf) ||
    (if leaf then addr % leafSize level != 0 else addr % tableSize (level + 1) != 0) ||
    (leaf && !remote && 14 ≤ regionOf addr)

/-- Whether the proxy slice holds a line of host or peer memory (R351, R428); device memory needs none. -/
def lineHeld (s : State) (pa : Nat) : Bool := regionOf pa == 0 || s.proxies.contains (lineOf pa)

/-- The proxy slice asks the line's home agent for it, once (R428, R432). -/
def askLine (pa : Nat) (s : State) : State :=
  if s.asked.contains (lineOf pa) then s
  else
    let s := { s with asked := lineOf pa :: s.asked }
    if regionOf pa = 1 then s.send (.cxl (lineOf pa) 0 []) else s.send (.flit (regionOf pa - 2) 0x01 [lineOf pa % 2 ^ 40] [])

/-- Whether the proxy slice may write a line: of host memory only while it holds it exclusive (R428). -/
def lineOurs (s : State) (pa : Nat) : Bool := regionOf pa != 1 || s.exclusive.contains (lineOf pa)

/-- The proxy slice asks the host's home agent for a line exclusive, once (R428). -/
def askOwn (pa : Nat) (s : State) : State :=
  if s.asked.contains (lineOf pa) then s else { s with asked := lineOf pa :: s.asked }.send (.cxl (lineOf pa) 1 [])

/-- A walk from a table of a level (R382, R383); every entry is read as an ordinary load at its home slice, or from the proxy slice of its line. -/
def walkFrom (va : Nat) : Nat → Nat → Nat → State → State × Walk
  | 0, _, _, s => (s, .malformed)
  | fuel + 1, level, table, s =>
    let pte := table + 8 * levelIndex level va
    if !lineHeld s pte then (askLine pte s, .wait)
    else
      let (s, bs, bad) := homeRead .engine pte 8 s
      let e := leNat bs
      if bad then (logError 1 0 pte s, .poisoned)
      else if !testBit e 0 then (s, .absent)
      else if malformedEntry level e then (s, .malformed)
      else
        let addr := bitsOf e 6 46 * 64
        if testBit e 1 then
          (s, .leaf ⟨pte, addr, leafSize level, testBit e 2, testBit e 3, testBit e 4,
            if testBit e 5 then some (bitsOf e 52 4) else none⟩)
        else walkFrom va fuel (level + 1) addr s

/-- The walk of a context (R380, R382). -/
def walkCtx (ctx va : Nat) (s : State) : State × Walk := walkFrom va 4 0 (s.ctx ctx).root.toNat s

/-- The answer to a translation: a physical address with its page type, a fault with its CAUSE, the KIND of its record and whether its page is known
to be typed non-coherent, or a wait for another agent. -/
inductive Tr where
  | ok (pa : Nat) (nc : Bool)
  | fault (cause kind : Nat) (nc : Bool)
  | wait
  deriving DecidableEq, Repr

/-! ## The TLBs -/

/-- The die that a TLB serves. -/
def TlbUnit.die : TlbUnit → Nat
  | .core c => dieOf c
  | .cluster n => n / 12
  | .bank n => n / Config.slicesPerDie
  | .engine d _ => d

/-- The L3 bank for a granule (R385). -/
def bankOf (die va : Nat) : TlbUnit :=
  .bank (Config.slicesPerDie * die + (bitsOf va 19 8 ^^^ bitsOf va 27 8 ^^^ bitsOf va 35 8 ^^^ bitsOf va 43 8) % Config.slicesPerDie)

/-- The TLBs that a translation for one of them looks into, nearest first (R385, R386). -/
def TlbUnit.path (u : TlbUnit) (va : Nat) : List TlbUnit :=
  match u with
  | .core c => [.core c, .cluster (c / 12), bankOf (dieOf c) va]
  | .engine d n => [.engine d n, bankOf d va]
  | .cluster n => [.cluster n, bankOf (n / 12) va]
  | .bank n => [bankOf (n / Config.slicesPerDie) va]

/-- The engines with small TLBs of their own (R386): the comb walker, the alias engine and the fabric engine of a die. -/
def walkerTlb (die : Nat) : TlbUnit := .engine die 0
def aliasTlb (die : Nat) : TlbUnit := .engine die 1
def fabricTlb (die : Nat) : TlbUnit := .engine die 2

/-- The cached translation of an address in a TLB (R385). -/
def tlbAt (s : State) (u : TlbUnit) (ctx va : Nat) : Option TlbEntry :=
  s.tlb.find? fun e => e.unit == u && e.ctx == ctx && e.page ≤ va && va < e.page + e.size

/-- The cached translation of an address on a path of TLBs, with those that missed before it. -/
def tlbFind (s : State) (ctx va : Nat) : List TlbUnit → Option (TlbEntry × List TlbUnit)
  | [] => none
  | u :: t => match tlbAt s u ctx va with
    | some e => some (e, [])
    | none => (tlbFind s ctx va t).map fun r => (r.1, u :: r.2)

/-- The set of an entry in its TLB, and the ways of that set (R385); log entry 73. -/
def TlbEntry.set (e : TlbEntry) : Nat :=
  match e.unit with
  | .core _ => 0
  | .cluster _ => e.page / e.size % 256
  | .bank _ => e.page / 2 ^ 19 % 64
  | .engine _ _ => 0
def TlbUnit.ways : TlbUnit → Option Nat
  | .core _ => some 64
  | .cluster _ => some 8
  | .bank _ => some 8
  | .engine _ _ => none

/-- An entry put into its TLB: a full set loses its oldest entry (R385; log entry 73). -/
def tlbPut (e : TlbEntry) (s : State) : State :=
  let same (f : TlbEntry) : Bool := f.unit == e.unit && f.set == e.set
  let full := match e.unit.ways with
    | some n => decide (n ≤ (s.tlb.filter same).length)
    | none => false
  let l := if full then (match pull same s.tlb with
      | some (_, t) => t
      | none => s.tlb) else s.tlb
  { s with tlb := l ++ [e] }

/-- A translation as a TLB keeps it: an L3 bank holds 512 KiB granules of any leaf (R385). -/
def TlbEntry.in (e : TlbEntry) (u : TlbUnit) (va : Nat) : TlbEntry :=
  match u with
  | .bank _ =>
    let page := va / 2 ^ 19 * 2 ^ 19
    { e with unit := u, page := page, size := 2 ^ 19, pa := e.pa + (page - e.page) }
  | _ => { e with unit := u }

/-- A translation put into every TLB of a list. -/
def tlbFill (e : TlbEntry) (va : Nat) (us : List TlbUnit) (s : State) : State := us.foldl (fun s u => tlbPut (e.in u va) s) s

/-- KIND of the record of a page not present (R388). -/
def absentKind (a : Access) : Nat :=
  match a with
  | .load => 0
  | .store => 1
  | .fetch => 3

/-- The checks of a leaf: W for a write, X for a fetch (R383); a link that is down refuses the access, and so does
a home agent that refused its line (R361, R362). -/
def checkLeaf (a : Access) (w x nc : Bool) (pa : Nat) (s : State) : Tr :=
  if a = .store && !w then .fault 0x15 2 nc
  else if a = .fetch && !x then .fault 0x01 3 nc
  else
    let r := regionOf pa
    if (r = 1 ∧ s.hostlanes = 0) ∨ (2 ≤ r ∧ r < 14 ∧ (s.links.getD (r - 2) Link.blank).up = false) ∨ (r ≠ 0 ∧ s.noLines.contains (lineOf pa)) then
      .fault 0x16 99 nc
    else .ok pa nc

/-- Whether a page-table entry is being migrated, so that walks to it wait (R395). -/
def movingLeaf (s : State) (pte : Nat) : Bool := (s.die0.migrations ++ s.die1.migrations).any fun m => m.copying && m.leaf == pte

/-- Whether a physical address lies in a frame under migration, so that writes to it wait (R395). -/
def movingFrame (s : State) (pa : Nat) : Bool :=
  (s.die0.migrations ++ s.die1.migrations).any fun m => m.copying && decide (m.old ≤ pa) && decide (pa < m.old + m.size)

/-- A fault of a translation: the instruction-fetch fault for a fetch (R46, R383). -/
def transFault (a : Access) (cause kind : Nat) : Tr := if a = .fetch then .fault 0x01 (if kind = 5 then 5 else 3) false else .fault cause kind false

/-- Whether a leased page is under recall by its target, so that new accesses to it wait (R392 step 1). -/
def recalledAt (s : State) (link pa : Nat) : Bool := s.recalled.contains (link, pa % 2 ^ 48 / 2 ^ 19)

/-- Whether a cached translation is a leased one under recall. -/
def TlbEntry.recalled (s : State) (e : TlbEntry) : Bool :=
  match e.lease with
  | some l => recalledAt s l e.pa
  | none => false

/-- What the look-up of a page finds: a translation, a fault, or a wait. -/
inductive Look where
  | entry (e : TlbEntry)
  | fault (cause kind : Nat) (nc : Bool)
  | wait
  deriving DecidableEq, Repr

/-- A page of a context translates through a lease (R390, R391). -/
def useLease (u : LeaseUse) (s : State) : State := if s.leaseUses.contains u then s else { s with leaseUses := s.leaseUses ++ [u] }

/-- The look-up of the page of a virtual address below 2^56 for a TLB (R382 to R386, R390). A leaf on a peer needs a lease: the request
goes out once and the access waits for the answer; a refused one faults, as a leaf that forbids the access does where the link is down (R405). -/
def lookPage (u : TlbUnit) (ctx : Nat) (a : Access) (va : Nat) (s : State) : State × Look :=
  let fault (c k : Nat) (nc : Bool) : Look := match transFault a c k with
    | .fault c k _ => .fault c k nc
    | _ => .wait
  match tlbFind s ctx va (u.path va) with
  | some (e, missed) => if e.recalled s then (s, .wait) else (tlbFill e va missed s, .entry e)
  | none =>
    let (s, end_) := walkCtx ctx va s
    match end_ with
    | .wait => (s, .wait)
    | .poisoned => (s, fault 0x19 99 false)
    | .absent => (s, fault 0x14 (absentKind a) false)
    | .malformed => (s, fault 0x14 8 false)
    | .leaf l =>
      if movingLeaf s l.pte then (s, .wait)
      else
        match l.remote with
        | none =>
          let page := va / l.size * l.size
          let t : TlbEntry := ⟨u, ctx, page, l.size, l.pa, l.w, l.x, l.nc, none, (page, l.size)⟩
          (tlbFill t va (u.path va) s, .entry t)
        | some link =>
          let page := va / 2 ^ 19 * 2 ^ 19
          let window := l.pa + (page - va / l.size * l.size)
          if (s.links.getD link Link.blank).up = false then
            (s, if a = .store && !l.w then fault 0x15 2 l.nc else if a = .fetch && !l.x then fault 0x01 3 l.nc else .fault 0x16 99 l.nc)
          else if s.refused.contains (link, window) then
            ({ s with refused := s.refused.filter fun r => r != (link, window) }, fault 0x14 5 l.nc)
          else if s.leaseAsked.contains (link, window) then (s, .wait)
          else
            match s.leases.find? fun e => e.1 == link && e.2.1 == window with
            | some e =>
              let flags := e.2.2 % 4
              let frame := e.2.2 / 4 * 2 ^ 19
              if recalledAt s link frame then (s, .wait) else
              let t : TlbEntry := ⟨u, ctx, page, 2 ^ 19, (2 + link) * 2 ^ 48 + frame, flags % 2 == 1 && l.w, l.x, 2 ≤ flags || l.nc, some link, (va / l.size * l.size, l.size)⟩
              (tlbFill t va (u.path va) (useLease ⟨ctx, va / l.size * l.size, l.size, link, window⟩ s), .entry t)
            | none => ({ s.send (.flit link 0x07 [window] []) with leaseAsked := (link, window) :: s.leaseAsked }, .wait)

/-- An access at a virtual address whose page has been looked up. -/
def leafAt (a : Access) (va : Nat) (l : Look) (s : State) : Tr :=
  match l with
  | .entry e => checkLeaf a e.w e.x e.nc (e.pa + (va - e.page)) s
  | .fault c k nc => .fault c k nc
  | .wait => .wait

/-- Translation of a virtual address below 2^56 for a TLB. DESIGN CHOICE (log entry 88): where a walk meets a poisoned entry, the address that the
access presents is its own. -/
def translate (u : TlbUnit) (ctx : Nat) (a : Access) (va : Nat) (s : State) : State × Tr :=
  let (s, l) := lookPage u ctx a va s
  (s, leafAt a va l s)

/-- A walk for a replayable node's group that meets a poisoned entry discards the node, and no lane traps (R406, R417). -/
def nodeWalk (t : State × Tr) : State × Tr :=
  match t with
  | (s, .fault 0x19 k nc) => if s.grp.task.repl then ({ s with discards := s.discards ++ [(s.grp.task.ctx, s.grp.task.launch)] }, .wait) else (s, .fault 0x19 k nc)
  | t => t

/-! ## All leaves of a context -/

/-- The entries of a table at an address that hold anything: those with a byte that memory lists, or that an alias covers. -/
def listedEntries (table n : Nat) (s : State) : List Nat :=
  let listed : List Nat := (s.stores ++ s.mem).map fun c => c.1
  let covered : List Nat := s.aliases.flatMap fun (e : Alias) => (List.range (e.len / 8 + 2)).map fun i => e.dst + 8 * i
  ((listed ++ covered).filterMap fun a =>
    if table ≤ a / 8 * 8 ∧ a / 8 * 8 < table + n then some (a / 8 * 8) else none).dedup

/-- The leaves below a table of a level, each with the virtual address of its page. -/
def leavesFrom : Nat → Nat → Nat → Nat → State → List (Nat × Leaf)
  | 0, _, _, _, _ => []
  | fuel + 1, level, base, table, s =>
    (listedEntries table (tableSize level) s).flatMap fun pte =>
      let e := homeNum pte 8 s
      let page := base + (pte - table) / 8 * (if level = 0 then 2 ^ 43 else leafSize level)
      let addr := bitsOf e 6 46 * 64
      if !testBit e 0 || malformedEntry level e then []
      else if testBit e 1 then
        [(page, ⟨pte, addr, leafSize level, testBit e 2, testBit e 3, testBit e 4, if testBit e 5 then some (bitsOf e 52 4) else none⟩)]
      else leavesFrom fuel (level + 1) page addr s

/-- Every page that a context maps (R382, R383). -/
def leavesOf (ctx : Nat) (s : State) : List (Nat × Leaf) := leavesFrom 4 0 0 (s.ctx ctx).root.toNat s

/-- Every local page that a live context maps: the context, the address and the leaf. -/
def mappings (s : State) : List (Nat × Nat × Leaf) :=
  (s.ctxs.filter fun c => c.2.state != .free).flatMap fun c =>
    ((leavesOf c.1 s).filter fun l => l.2.remote.isNone).map fun l => (c.1, l.1, l.2)

/-! ## The fault queue -/

/-- A page that faulted: the address a lane presents, the CAUSE and the KIND. -/
structure PageFault where
  addr  : DWord
  cause : Nat
  kind  : Nat
  deriving DecidableEq, Repr

/-- What a record names: the 512 KiB granule of an address, or the block of a comb handle (R41, R388). -/
def PageFault.place (p : PageFault) : Nat := if p.cause = 0x18 then p.addr.toNat / 2 ^ 9 else p.addr.toNat / 2 ^ 19

/-- The pages of a list once each. -/
def oncePerPage : List PageFault → List PageFault
  | [] => []
  | p :: t => p :: (oncePerPage t).filter fun q => q.place != p.place || q.cause != p.cause

/-- The records that faults owe (R387): one batch of the pages not present, the trapping one first, and a record of its own
for each other fault. A context with no fault queue owes none (R388). -/
def oweRecords (ps : List PageFault) (s : State) : State :=
  if (s.ctx s.grp.task.ctx).fqbase = 0 ∨ s.w.mode ≠ .normal then s
  else
    let ps := oncePerPage ps
    let batch := ps.filter fun p => p.cause == 0x14
    let single := ps.filter fun p => p.cause == 0x15 || p.cause == 0x01 || p.cause == 0x18
    let mk (first : Bool) (p : PageFault) : BatchPage := ⟨p.addr, p.kind, first, false⟩
    let bs := match batch with
      | [] => []
      | p :: t => mk true p :: (t.take 15).map (mk false)
    s.modW fun w => { w with
      batch := w.batch ++ (single.map fun p => ⟨p.addr, p.kind, true, true⟩) ++ bs
      aheadDue := w.aheadDue || bs != [] }

end Sys2Proof.Machine
end

