-- ==== Sys2Proof/Machine/Cache.lean ====
section
/-! DEFINITION. The L1 data cache (R347 to R350), its fills, its replacement and its part in loads, stores, acquires and
range maintenance (R176 to R178, R293, R294), and the read-only path (R174, R298). -/

namespace Sys2Proof.Machine

/-- The set of a line (R347). -/
def setOf (line : Nat) : Nat := line % 128

/-- A line of a core's L1. -/
def Core.line (c : Core) (a : Nat) : Option L1Line := c.l1.find? fun l => l.line == lineOf a

/-- A word of a core's L1, if it has an entry. -/
def Core.word (c : Core) (a : Nat) : Option L1Word :=
  match c.line a with
  | some l => (l.words.find? fun w => w.1 == wordOf a).map (·.2)
  | none => none

/-- A word never filled. -/
def L1Word.empty : L1Word := ⟨0, false, false, false, 0⟩

/-- Byte i of a word. -/
def byteAt (x : Word) (i : Nat) : Byte := (x >>> (8 * i)).setWidth 8

/-- A word with the bytes of a mask taken from another. -/
def mergeBytes (m : BitVec 4) (new old : Word) : Word :=
  BitVec.ofNat 32 (leNat ((List.range 4).map fun i => if m.getLsbD i then byteAt new i else byteAt old i))

/-- Bytes of a word written to the home slice under a mask (R176). -/
def pushBytes (a : Nat) (m : BitVec 4) (x : Word) (s : State) : State :=
  if m = 15 then sendWrite s.w.uid a (leBytes 4 x.toNat) (homeQuiet a (leBytes 4 x.toNat) s)
  else (List.range 4).foldl (fun s i => if m.getLsbD i then sendWrite s.w.uid (a + i) [byteAt x i] (homeQuiet (a + i) [byteAt x i] s) else s) s

/-- The dirty bytes of a word are written back. -/
def writeBackWord (a : Nat) (w : L1Word) (s : State) : State := pushBytes a w.dirty w.val s

/-- The dirty bytes of a line are written back. -/
def writeBackLine (l : L1Line) (s : State) : State := l.words.foldl (fun s e => writeBackWord e.1 e.2 s) s

/-- Whether a miss-status entry is filling a line (R347). -/
def Core.filling (c : Core) (l : L1Line) : Bool := c.misses.any fun m => lineOf m.sector == l.line

/-- The lines of the set of an address. -/
def Core.sameSet (c : Core) (a : Nat) : List L1Line := c.l1.filter fun l => setOf l.line == setOf (lineOf a)

/-- The line of the set of an address that is replaced: the least recently used that no miss-status entry is filling, if there is one (R347). -/
def Core.victim (c : Core) (a : Nat) : Option L1Line := ((c.sameSet a).filter fun l => !c.filling l).getLast?

/-- Whether the line of an address is in L1 or can be allocated there. -/
def Core.fits (c : Core) (a : Nat) : Bool := (c.line a).isSome || decide ((c.sameSet a).length < 8) || (c.victim a).isSome

/-- A line made the most recently used, allocated if absent and if there is room; a full set loses a line, dirty bytes written back first (R347 to R349). -/
def touchLine (core a : Nat) (nc : Bool) (s : State) : State :=
  let c := s.core core
  match pull (fun (l : L1Line) => l.line == lineOf a) c.l1 with
  | some (l, t) => s.modCore core fun c => { c with l1 := l :: t }
  | none =>
    let add (s : State) : State := s.modCore core fun c => { c with l1 := ⟨lineOf a, nc, []⟩ :: c.l1 }
    if (c.sameSet a).length < 8 then add s
    else match c.victim a with
      | some v => add ((writeBackLine v s).modCore core fun c => { c with l1 := c.l1.filter fun l => l.line != v.line })
      | none => s

/-- A word of a line put in place. -/
def putWord (core a : Nat) (x : L1Word) (s : State) : State :=
  let f (l : L1Line) : L1Line := if l.line = lineOf a then { l with words := put l.words (wordOf a) x } else l
  s.modCore core fun c => { c with l1 := c.l1.map f }

/-- A fill validates a word with the home value; dirty bytes stay (R348, R350). -/
def fillWord (core a : Nat) (nc : Bool) (x : Word) (prov : Bool) (s : State) : State :=
  let s := touchLine core a nc s
  let old := ((s.core core).word a).getD L1Word.empty
  putWord core a { old with val := mergeBytes old.dirty old.val x, valid := true, provisional := prov } s

/-- The wave that reads as an agent; no wave is 0. -/
def Agent.uid : Agent → Nat
  | .wave u _ => u
  | _ => 0

/-- The copy of a word that serves a load by an agent on a core (R184, R294): the valid L1 copy, unless it is marked provisional for
another wave. -/
def servedBy (g : Agent) (core a : Nat) (s : State) : Option L1Word :=
  match (s.core core).word a with
  | some w =>
    let foreign := w.provisional && match cellOf s a with
      | some c => c.wave != g.uid
      | none => false
    if w.valid && !foreign then some w else none
  | none => none

/-- Whether a line may be held as a guest copy, its page apart (R356): device memory with no live cell, no side band and no live alias of which it is a
destination. -/
def guestable (s : State) (line : Nat) : Bool :=
  regionOf (line * 256) == 0 && !(s.provs.any fun c => lineOf c.addr == line) && !(s.bands.any fun b => b.line == line) &&
    !(s.aliases.any fun e => lineOf e.dst == line)

/-- A fill of a core of the other die leaves a guest copy at that die's slice (R356), unless the line has a fan-out outstanding. -/
def guestFill (core a : Nat) (nc : Bool) (s : State) : State :=
  if dieOf core ≠ sliceOf a / Config.slicesPerDie ∧ !nc ∧ guestable s (lineOf a) ∧ !(s.fanOuts.any fun f => f.line == lineOf a) then grantDie (lineOf a) s else s

/-- Whether a word has a live cell of a wave of another core: it reaches a core's L1 only by a load that observes it (R184, R186). -/
def foreignCell (core a : Nat) (s : State) : Bool := (cellOf s a).isSome && ownerOf s a != some core

/-- Whether a fill for an agent validates the word: a midge's or a prefetch's never one with a foreign cell. DEDUCED (log entry 103). -/
def fills (g : Agent) (core a : Nat) (s : State) : Bool :=
  match g with
  | .wave _ _ => true
  | _ => !foreignCell core a s

/-- A word fetched from the home slice fills L1; the storing core marks it provisional while its cell lives (R184, R350, R356). -/
def fillFrom (g : Agent) (core a : Nat) (nc : Bool) (x : Word) (s : State) : State :=
  if fills g core a s then fillWord core a nc x ((cellOf s a).isSome && !foreignCell core a s) (guestFill core a nc s) else s

/-- A load of one word by an agent on a core (R184, R294): the copy that serves it, else a fill from the home slice. The flag says
that the word is poisoned; a word whose bytes are all dirty takes none from there (R348, R419). -/
def loadWord (g : Agent) (core : Nat) (nc : Bool) (a : Nat) (s : State) : State × Word × Bool :=
  let a := wordOf a
  match servedBy g core a s with
  | some w => (touchLine core a nc s, w.val, false)
  | none =>
    let (s, bs, bad) := homeFetch g a 4 s
    let x := BitVec.ofNat 32 (leNat bs)
    let old := ((s.core core).word a).getD L1Word.empty
    if bad ∧ old.dirty ≠ 15 then (s, x, true) else (fillFrom g core a nc x s, mergeBytes old.dirty old.val x, false)

/-- A load of words, with the first that is poisoned. -/
def loadWords (g : Agent) (core : Nat) (nc : Bool) : List Nat → State → State × List Word × Option Nat
  | [], s => (s, [], none)
  | a :: t, s =>
    let (s, x, bad) := loadWord g core nc a s
    let (s, xs, bad') := loadWords g core nc t s
    (s, x :: xs, if bad then some a else bad')

/-- A load of z bytes that lie in aligned words (R171), with the first word of them that is poisoned. What it counts is counted
for its whole instruction. -/
def takeNum (g : Agent) (core : Nat) (nc : Bool) (a z : Nat) (s : State) : State × Nat × Option Nat :=
  let ws := wordsOf a z
  let (s, xs, bad) := loadWords g core nc ws s
  (s, leNat (((xs.flatMap fun x => leBytes 4 x.toNat).drop (a % 4)).take z), bad)

/-- The words of an instruction's accesses that no L1 copy serves. -/
def missing (g : Agent) (core : Nat) (ws : List Nat) (s : State) : List Nat := (ws.dedup).filter fun a => (servedBy g core a s).isNone

/-- One line request for each line that holds a missing word, and each counts once (R173, R369). -/
def countMissing (g : Agent) (ws : List Nat) (s : State) : State :=
  ((ws.map fun a => lineOf a).dedup).foldl (fun s l =>
    countReads g (((ws.filter fun a => lineOf a == l)).flatMap fun a => (List.range 4).map fun i => a + i) s) s

/-- A load of one access, with what it counts. -/
def loadNum (g : Agent) (core : Nat) (nc : Bool) (a z : Nat) (s : State) : State × Nat × Option Nat :=
  let ws := missing g core (wordsOf a z) s
  let (s, x, bad) := takeNum g core nc a z s
  (countMissing g ws s, x, bad)

/-! ## Miss-status entries (R173, R350) -/

/-- The words of a list that lie in a sector, as its mask. -/
def sectorMask (sector : Nat) (ws : List Nat) : BitVec 16 :=
  (List.range 16).foldl (fun m i => if ws.contains (sector + 4 * i) then m ||| BitVec.twoPow 16 i else m) 0

/-- Whether a request for words of a sector joins an entry: its fill has not left the core, and it has room for a request. -/
def Miss.joins (sector : Nat) (m : Miss) : Bool := m.sector == sector && !m.gone && decide (m.waits < 16)

/-- The entries after a request for words of one sector, which joins an entry or takes a new one; gone says that the fill leaves with it. -/
def requestSector (sector : Nat) (mask : BitVec 16) (nc gone : Bool) (ms : List Miss) : List Miss :=
  match pull (Miss.joins sector) ms with
  | some (m, t) => t ++ [{ m with mask := m.mask ||| mask, waits := m.waits + 1, gone := gone }]
  | none => ms ++ [⟨sector, mask, nc, 1, gone⟩]

/-- The entries after a request for words with the types of their pages. -/
def requestWords (ws : List (Nat × Bool)) (gone : Bool) (ms : List Miss) : List Miss :=
  ((ws.map fun w => w.1 / 64 * 64).dedup).foldl (fun ms k =>
    requestSector k (sectorMask k (ws.map (·.1))) ((ws.any fun w => w.1 / 64 * 64 == k && w.2)) gone ms) ms

/-- The words of a fill arrive (R350): the entry's words that are not valid yet and hold no error become valid. -/
def fillMiss (core : Nat) (m : Miss) (s : State) : State :=
  let held (w : Nat) : Bool := match (s.core core).word w with
    | some x => x.valid
    | none => false
  ((((List.range 16).filter fun i => m.mask.getLsbD i).map fun i => m.sector + 4 * i).filter fun w => !held w).foldl (fun s w =>
    let (s, bs, bad) := homeFetch .quiet w 4 s
    if bad then s else fillFrom .quiet core w m.nc (BitVec.ofNat 32 (leNat bs)) s) s

/-- The requests of a load (R173, R350), whose fills arrive in its own step (log entry 12): they join the entries of their sectors whose fill has not left, and so bring
those entries' words as well. The flag says that the load waits: for entries, or for a line to be allocated while every way of its set is being filled. -/
def loadMisses (core : Nat) (ws : List (Nat × Bool)) (s : State) : State × Bool :=
  let c := s.core core
  if decide (256 < (requestWords ws true c.misses).length) || ws.any fun w => !c.fits w.1 then (s, true)
  else
    (((ws.map fun w => w.1 / 64 * 64).dedup).foldl (fun s k =>
      match pull (Miss.joins k) (s.core core).misses with
      | some (m, t) => fillMiss core m (s.modCore core fun c => { c with misses := t })
      | none => s) s, false)

/-- A request for words takes its entries, unless more are needed than are free. -/
def takeMisses (core : Nat) (ws : List (Nat × Bool)) (gone : Bool) (s : State) : State × Bool :=
  let ms := requestWords ws gone (s.core core).misses
  if 256 < ms.length then (s, true) else (if ws = [] then s else s.modCore core fun c => { c with misses := ms }, false)

/-- The core's valid copy takes the bytes that its own store wrote, and is owned (R293). -/
def updateCopy (core a : Nat) (bs : List Byte) (owned : Bool) (s : State) : State :=
  (wordsOf a bs.length).foldl (fun s w =>
    match (s.core core).word w with
    | some x =>
      if x.valid then
        let new := BitVec.ofNat 32 (leNat ((List.range 4).map fun i =>
          if a ≤ w + i && w + i < a + bs.length then bs.getD (w + i - a) 0 else byteAt x.val i))
        putWord core w { x with val := new, owned := owned && ownerOf s w == some core, provisional := false } s
      else s
    | none => s) s

/-- The bytes of a store that fall in a word, with their mask. -/
def bytesIn (a : Nat) (bs : List Byte) (w : Nat) : BitVec 4 × Word :=
  ((List.range 4).foldl (fun m i => if a ≤ w + i && w + i < a + bs.length then m ||| BitVec.twoPow 4 i else m) 0,
   BitVec.ofNat 32 (leNat ((List.range 4).map fun i => if a ≤ w + i && w + i < a + bs.length then bs.getD (w + i - a) 0 else 0)))

/-- A store by a wave: through to the home slice on a coherent page (R293), into L1 with dirty bytes on a non-coherent one
(R176, R348). -/
def storeBytes (uid core : Nat) (nc : Bool) (a : Nat) (bs : List Byte) (s : State) : State :=
  if nc then
    (wordsOf a bs.length).foldl (fun s w =>
      let s := touchLine core w true s
      let old := ((s.core core).word w).getD L1Word.empty
      let mx := bytesIn a bs w
      putWord core w { old with val := mergeBytes mx.1 mx.2 old.val, dirty := old.dirty ||| mx.1 } s) s
  else updateCopy core a bs true (homeWrite (.wave uid core) a bs s)

/-- A store that bypasses L1 (R175, R226): the core's own copies of the words become invalid or keep the home value. -/
def dropOwnCopy (core a n : Nat) (s : State) : State :=
  s.modCore core fun c => (wordsOf a n).foldl (fun c w => c.mapWord w fun x => { x with valid := false, owned := false, provisional := false }) c

/-- An acquire: every unowned word of the core on a coherent page becomes invalid (R204, R294). -/
def acquireCore (core : Nat) (s : State) : State :=
  let f (w : Nat × L1Word) : Nat × L1Word := if w.2.owned then w else (w.1, { w.2 with valid := false })
  s.modCore core fun c => { c with l1 := c.l1.map fun l => if l.nc then l else { l with words := l.words.map f } }

/-- Whether a word of the L1 lies, by its bytes, in a physical range. -/
def inRange (lo n a : Nat) : Bool := lo ≤ a && a < lo + n

/-- The bytes of a word that lie in a physical range. -/
def rangeMask (lo n a : Nat) : BitVec 4 :=
  (List.range 4).foldl (fun m i => if inRange lo n (a + i) then m ||| BitVec.twoPow 4 i else m) 0

/-- wb.range over a physical range: dirty bytes are written under their masks, words stay valid (R177). -/
def writeBackRange (core lo n : Nat) (s : State) : State :=
  (s.core core).l1.foldl (fun s l =>
    if l.nc then l.words.foldl (fun s e =>
      let m := e.2.dirty &&& rangeMask lo n e.1
      if m = 0 then s
      else (pushBytes e.1 m e.2.val s).modCore core fun c => c.mapWord e.1 fun w => { w with dirty := w.dirty &&& ~~~m }) s
    else s) s

/-- inv.range over a physical range, after the write-back: words that the range touches become invalid (R178). -/
def invalidateRange (core lo n : Nat) (s : State) : State :=
  let f (w : Nat × L1Word) : Nat × L1Word :=
    if (List.range 4).any fun i => inRange lo n (w.1 + i) then (w.1, { w.2 with valid := false }) else w
  (writeBackRange core lo n s).modCore core fun c => { c with l1 := c.l1.map fun l =>
    if l.nc then { l with words := l.words.map f } else l }

/-- Dirty bytes of a physical page are written back from every core and its words invalidated (R349, R394). -/
def flushPage (lo n : Nat) (s : State) : State :=
  s.cores.foldl (fun s e =>
    let f (w : Nat × L1Word) : Nat × L1Word := if inRange lo n w.1 then (w.1, { w.2 with valid := false, owned := false }) else w
    (writeBackRange e.1 lo n s).modCore e.1 fun c => { c with l1 := c.l1.map fun l => { l with words := l.words.map f } }) s

/-- Where the log of overwritten words stood when the issuing group's launch was accepted (R298). -/
def roFrom (s : State) : Nat :=
  match s.owned.find? fun o => o.desc == s.grp.task.launch && o.ctx == s.grp.task.ctx with
  | some o => o.roFrom
  | none => s.roLog.length

/-- The values that a word has had since the issuing group's launch was accepted and no longer has: a read-only load may return each of them, as it may the one
it has now (R298). -/
def roPast (a : Nat) (s : State) : List Word := ((s.roLog.drop (roFrom s)).filter fun e => e.1 == a).map (·.2)

/-- A read-only load of a word (R174, R298): the value at the home slice or one that the word has had since the acceptance of the launch, as the device
chooses. A word with a live cell is read as it was before the cell (R316). The words read at the home slice are listed. -/
def loadRo (g : Agent) (a : Nat) (s : State) : State × Word × Bool × List Nat :=
  let a := wordOf a
  let now (s : State) : State × Word × Bool × List Nat :=
    match cellOf s a with
    | some c => (s, c.old, s.marked a, [a])
    | none =>
      let (s, bs, bad) := homeFetch g a 4 s
      (s, BitVec.ofNat 32 (leNat bs), bad, [a])
  if roPast a s = [] then now s
  else
    let n := (roPast a s).length + 1
    match (roPast a s)[s.choice n]? with
    | some x => (s.chose n, x, false, [])
    | none => now (s.chose n)

/-- A parcel through the core's instruction cache (R47): a parcel once fetched is not fetched again until icinv, and stores of threads since the core's
last icinv are not observed. -/
def fetchParcel (core pa : Nat) (s : State) : State × Nat :=
  match (s.core core).icache.find? fun e => e.1 == pa with
  | some e => (s, e.2.toNat)
  | none =>
    let (s, bs, _) := homeRead .quiet pa 2 s
    let x := leNat (bs.zipIdx.map fun b => codeByte s core (pa + b.2) b.1)
    (s.modCore core fun c => { c with icache := put c.icache pa (BitVec.ofNat 16 x) }, x)

end Sys2Proof.Machine
end

