-- ==== Sys2Proof/Machine/Operands.lean ====
section
/-! DEFINITION. The operand forms: what an instruction names and how it issues. issue is the one road from a decoded
instruction to its effect: the waits of R56 to R59, the decode faults of R66 to R68, the guard window of R62 and the enabled
lanes of R29, the advance of the PCs of R26. -/

namespace Sys2Proof.Machine

/-- What an instruction can do beside its registers: nothing, load from memory, store to global memory, or act on anything
else. -/
inductive Kind where
  | plain
  | memory
  | store
  | effect
  deriving DecidableEq, Repr

/-- What an instruction names and how it issues: the registers read and written, registers of no field that must not be
pending (R218, R233), registers that it names without reading them at its issue (R57, R62), the registers that its addresses come from where not all that it reads (R387), the
space that it accesses (R288: 1 global, 2 scratch, 3 comb) with each lane's accesses by their start and length, its lookahead, and whether it is long-latency, executes per lane (R45), waits under R59, is a fence or
ordered (R204), whether a run-ahead translates its addresses (R387), and where it may execute. -/
structure Sig where
  reads        : List Reg := []
  writes       : List Reg := []
  waitsFor     : List Reg := []
  names        : List Reg := []
  addr         : Option (List Reg) := none
  space        : Nat := 0
  reach        : List (Fin 32 × Nat × Nat) := []
  lookahead    : Nat := 0
  long         : Bool := false
  perLane      : Bool := true
  control      : Bool := false
  fence        : Bool := false
  ordered      : Bool := false
  kind         : Kind := .plain
  probes       : Bool := false
  privileged   : Bool := false
  handlerOnly  : Bool := false
  notInHandler : Bool := false

/-- The registers of an operand field (R13, R53). -/
def vReg (n : Fin 128) : List Reg := [.v n.val]
def vPair (n : Fin 128) : List Reg := [.v n.val, .v (n.val + 1)]
def sReg (n : Fin 128) : List Reg := [.s n.val]
def sPair (n : Fin 128) : List Reg := [.s n.val, .s (n.val + 1)]
def pReg (n : Nat) : List Reg := if n < 7 then [.p n] else []
def tReg (t : Fin 16) : List Reg := [.tile t.val]

/-- The base pair d(b/2) of a global L-MEM form (R166): b names the even register. -/
def baseReg (b : Fin 32) : Fin 128 := ⟨b.val, by omega⟩

/-- The pair d(n) of a 6-bit field (R232). -/
def dPair (n : Fin 64) : Fin 128 := ⟨2 * n.val, by omega⟩

/-- Lane forms of two sources, one source, and pairs. -/
def lane3 (d a b : Fin 128) : Sig := { reads := vReg a ++ vReg b, writes := vReg d }
def lane2 (d a : Fin 128) : Sig := { reads := vReg a, writes := vReg d }
def lane3Pair (d a b : Fin 128) : Sig := { reads := vPair a ++ vPair b, writes := vPair d }

/-- Group forms of two sources, one source, and pairs. -/
def group3 (d a b : Fin 128) : Sig := { reads := sReg a ++ sReg b, writes := sReg d, perLane := false }
def group2 (d a : Fin 128) : Sig := { reads := sReg a, writes := sReg d, perLane := false }
def group3Pair (d a b : Fin 128) : Sig := { reads := sPair a ++ sPair b, writes := sPair d, perLane := false }

/-- A control instruction of R45: it acts on each enabled lane and waits under R59. -/
def controlSig : Sig := { control := true }

/-- A register beyond the wave's allotment (R14). -/
def beyond (allot : DWord) : Reg → Bool
  | .v n => vregsOf allot ≤ n
  | .tile t => tilesOf allot ≤ t
  | .p _ => false
  | .s _ => false
  | .retcode => false

/-- Whether the instruction must wait before it issues: a window used up (R58), a control instruction with anything pending
for its run (R59), a 17th pending instruction (R56), or a fence with an ordered instruction pending (R204). -/
def mustWait (g : Sig) (s : State) : Bool :=
  let run := s.iss.run
  s.w.pending.any (fun p => p.used run != 0) ||
  (g.control && s.w.pending.any fun p => p.touches run) ||
  (g.long && (lanesOf run).any fun l => 16 ≤ (s.w.pending.filter fun p => bit p.lanes l).length) ||
  (g.fence && s.w.pending.any fun p => p.ordered)

/-- Whether no instruction pending for a lane of a mask has a register of a list as its destination (R118, R119). -/
def clearOf (rs : List Reg) (m : Mask) (s : State) : Bool :=
  !s.w.pending.any fun p => p.touches m && p.dests.any fun r => rs.contains r

/-- The instruction with its accesses in a space: lanes with their addresses, n bytes each. -/
def Sig.over (g : Sig) (space n : Nat) (as : List (Fin 32 × Nat)) : Sig := { g with space := space, reach := as.map fun a => (a.1, a.2, n) }

/-- Whether an access of a lane overlaps one that is pending for the same lane and has not performed, where one of the two writes: the
instruction is held at issue (R288). -/
def heldBehind (g : Sig) (s : State) : Bool :=
  s.w.pending.any fun p => p.space == g.space && (p.stores || g.kind == .store) && p.reach.any fun f =>
    g.reach.any fun a => a.1 == f.1 && decide (a.2.1 < f.2.1 + f.2.2) && decide (f.2.1 < a.2.1 + a.2.2)

/-- The run stalls: it stays chosen and issues again later (R134). -/
def stall (s : State) : State := s.modW fun w => { w with chosen := some s.iss }

/-- The instruction could not issue after all: the wave stands as before it, and the run issues again later. Requests already
sent stay sent, and non-temporal stores that have performed stay performed. -/
def stallBack (x : Exec) (s : State) : State := s.modW fun w => { x.before with chosen := some { s.iss with run := x.run }, nt := w.nt, walked := w.walked }

/-- The same for a global load, which is pending from now on (R343). -/
def stallLoad (x : Exec) (s : State) : State :=
  (stallBack x s).modW fun w => if w.loading.1 = s.iss.id then w else { w with loading := (s.iss.id, s.clock) }

/-- An effect that waits until registers of lanes are no pending destination (R118, R119). -/
def whenClear (rs : List Reg) (m : Mask) (body : Exec → State → State) (x : Exec) (s : State) : State :=
  if clearOf rs m s then body x s else stallBack x s

/-- The lanes for which the instruction names a pending destination inside its window (R57). -/
def breaching (g : Sig) (s : State) : Mask :=
  s.w.pending.foldl (fun m p =>
    if p.dests.any fun r => (g.reads ++ g.writes ++ g.names).contains r then m ||| p.open_ s.iss.run else m) 0

/-- The lanes enabled (R29, R62): a guard window reaches only the per-lane instructions of R45, and a replay keeps the
enabled set of the first issue. -/
def enabledLanes (g : Sig) (run : Mask) (s : State) : Mask :=
  match s.iss.replay with
  | some m => if g.perLane then m &&& run else run
  | none =>
    if g.perLane then
      run &&& maskOf fun l =>
        let q := s.w.guard[l]
        q.count == 0 || (s.w.rdP q.pred.val l != q.neg)
    else run

/-- The PCs of the run advance past the instruction, its pending windows and its guard windows count it (R26, R56, R62). A
replay moves nothing. -/
def advance (g : Sig) (run : Mask) (s : State) : State :=
  match s.iss.replay with
  | some _ => s
  | none =>
    s.modW fun w =>
      let w := w.setPc run fun l => w.pc[l] + BitVec.ofNat 56 s.iss.len
      let w := { w with pending := w.pending.map fun p =>
        { p with issued := Lanes.ofFn fun l => if bit (run &&& p.lanes) l then p.issued[l] + 1 else p.issued[l] } }
      if g.perLane then w.setGuard run fun l => { w.guard[l] with count := w.guard[l].count - 1 } else w

/-- Registers marked unknown in a run-ahead, and marked known again (R387). -/
def markUnknown (rs : List Reg) (s : State) : State := s.modW fun w => { w with unknown := rs ++ w.unknown }
def markKnown (rs : List Reg) (s : State) : State :=
  s.modW fun w => { w with unknown := w.unknown.filter fun r => !rs.contains r }

/-- Whether a guard window of the run depends on an unknown predicate (R387). -/
def guardUnknown (g : Sig) (x : Exec) (s : State) : Bool :=
  g.perLane && (lanesOf x.run).any fun l => x.before.guard[l].count != 0 && s.w.unknown.contains (.p x.before.guard[l].pred.val)

/-- The effect by the mode of the wave: in a midge context only registers and loads (R344); in a run-ahead a memory
instruction with a known address is only translated, and an instruction with an unknown source, and every one that acts on anything but
registers and memory, leaves its destinations unknown (R387). -/
def byMode (g : Sig) (x : Exec) (body : State → State) (s : State) : State :=
  match s.w.mode with
  | .normal => body s
  | .midge => if g.kind = .effect ∨ g.kind = .store then s else body s
  | .ahead =>
    let known (rs : List Reg) : Bool := !rs.any fun r => s.w.unknown.contains r
    if guardUnknown g x s then markUnknown g.writes s
    else if g.kind = .memory ∨ g.kind = .store ∨ g.probes then (if known (g.addr.getD g.reads) then body s else markUnknown g.writes s)
    else if g.kind = .effect || !known g.reads then markUnknown g.writes s
    else if s.w.present &&& ~~~x.en = 0 then markKnown g.writes (body s) else body s

/-- Everything between decoding and the effect. -/
def issueRun (g : Sig) (body : Exec → State → State) (s : State) : State :=
  if mustWait g s then stall s
  else if (g.privileged && !s.privileged) || (g.handlerOnly && !s.inHandler) then decodeFault 0x04 s.here s
  else if (g.reads ++ g.writes).any (beyond s.grp.allot) then decodeFault 0x05 s.here s
  else
    let br := breaching g s
    let s' := park br (againRecord s ⟨enabledLanes g br s, 0, s.w⟩ 0x06 s.here) s
    let run := s.iss.run &&& ~~~br
    if br ≠ 0 ∧ (run = 0 ∨ s'.grp.stop.isSome) then s'
    else if !clearOf g.waitsFor (~~~0#32) s' then s'.modW fun w => { w with chosen := some { s.iss with run := run } }
    else if g.notInHandler && (run &&& s.w.handlerLanes) != 0 then stopGroup 3 s'
    else
      let en := enabledLanes g run s'
      let x : Exec := ⟨en, run, s'.w⟩
      let s'' := advance g run s'
      if en = 0 ∧ s.w.mode ≠ .ahead then s'' else byMode g x (body x) s''

/-- An instruction issues (R45 to R68). -/
def issue (g : Sig) (body : Exec → State → State) (s : State) : Host.Outcome State Fault Refusal :=
  next (issueRun g body) s

/-- Whether faults set RESTART to 0: those of a group form but translation faults and the restartable comb fault (R233). -/
def notRestarted (g : Sig) (fs : List LaneFault) : Bool := !g.perLane && fs.any fun f => f.cause != 0x14 && f.cause != 0x18

/-- Results and faults of a long-latency instruction (R56, R61): with lookahead 0, and in a replay, they stand at once; else
they are pending until the instruction completes. Of its accesses those of the lanes that faulted have not performed (R288). -/
def deliver (g : Sig) (x : Exec) (ws : List RegWrite) (fs : List LaneFault) (s : State) : State :=
  if g.lookahead = 0 ∨ s.iss.replay.isSome then (if notRestarted g fs then parkAgain x fs (applyAll s ws) else parkRestart x fs (applyAll s ws))
  else
    (s.modW fun w => { w with pending := w.pending ++
      [⟨s.nextUid, s.iss.id, s.here, x.run, x.en, Lanes.all 0, g.lookahead, g.writes, ws, fs, g.ordered, decide (g.kind = .memory ∧ g.space = 1),
        g.reach.filter fun r => (faultOf fs r.1).isSome, g.space, decide (g.kind = .store), !notRestarted g fs, .time⟩] }).fresh

end Sys2Proof.Machine
end

