-- ==== Sys2Proof/Machine/Access.lean ====
section
/-! DEFINITION. Lane and group accesses to memory: addresses, checks and faults (R168, R169), and what loads, stores,
tentative stores, atomics and reductions do once their addresses are known (R170 to R172, R183 to R203). -/

namespace Sys2Proof.Machine

/-- The core, die, context and identity of the issuing wave. -/
def State.coreNo (s : State) : Nat := s.grp.core
def State.dieNo (s : State) : Nat := dieOf s.grp.core
def State.ctxNo (s : State) : Nat := s.grp.task.ctx
def State.agent (s : State) : Agent := .wave s.w.uid s.grp.core

/-- Who reads when the wave loads: the wave, or its midge (R369). -/
def State.reader (s : State) : Agent := if s.w.mode = .normal then s.agent else .midge

/-- A global address of a lane (R168). -/
def laneAddr (s : State) (b a : Fin 128) (l : Fin 32) : DWord := s.rdSS b + sx64 (s.w.rdV a l)

/-- A scratch offset of a lane (R168). -/
def laneOffset (s : State) (b a : Fin 128) (l : Fin 32) : Nat := (s.rdS b + s.w.rdV a l).toNat

/-- What an access needs of its page and of the group (R168, R183, R195, R306). -/
structure Need where
  size    : Nat
  access  : Access
  coherent : Bool := false
  inBuffer : Bool := false
  forbid  : Bool := false

/-- The outcome of checking one access: ready at a physical address, a fault with the page it concerns, or a wait. -/
inductive Ready where
  | go (pa : Nat) (nc : Bool)
  | fault (cause : Nat) (page : Option PageFault)
  | wait
  deriving DecidableEq, Repr

/-- Whether writes to words must wait for lines of host or peer memory, which are asked for (R428). -/
def waitLines (ws : List Nat) (s : State) : State × Bool :=
  let far := ws.filter fun w => !lineHeld s w
  let own := ws.filter fun w => lineHeld s w && !lineOurs s w
  (own.foldl (fun s w => askOwn w s) (far.foldl (fun s w => askLine w s) s), far != [] || own != [])

/-- Whether writes to words must wait: for a line of host or peer memory, for agents outside that share their lines, or for a migration of their
frame; what they need is asked for and the fan-outs begin (R353, R358, R395, R428). -/
def blockedAt (ws : List Nat) (s : State) : State × Bool :=
  let (s, wait) := waitLines ws s
  let fan := ws.filter fun w => mustFan s w
  (fan.foldl (fun s w => startFan w s) s, wait || fan != [] || ws.any (movingFrame s))

/-- The checks of one access whose page has been looked up, in the order of the cause codes (R405): memory type, translation, protection, remote access,
replay scope; then the waits for a line, a fan-out or a migration. -/
def checkPage (n : Need) (va : DWord) (p : Look) (s : State) : State × Ready :=
    let (s, t) := nodeWalk (s, leafAt n.access va.toNat p s)
    match t with
    | .wait => (s, .wait)
    | .fault c k nc => (s, if n.coherent && nc then .fault 0x13 none else .fault c (some ⟨va, c, k⟩))
    | .ok pa nc =>
      if n.coherent && nc then (s, .fault 0x13 none)
      else if s.grp.task.repl && (n.forbid || (n.inBuffer && (bufferOf s s.ctxNo va.toNat).isNone)) then (s, .fault 0x1A none)
      else if !lineHeld s pa then (askLine pa s, .wait)
      else if n.access = .store && !lineOurs s pa then (askOwn pa s, .wait)
      else if n.access = .store && movingFrame s pa then (s, .wait)
      else if n.access = .store && !nc && mustFan s pa then (startFan pa s, .wait)
      else (s, .go pa nc)

/-- The address and misalignment faults of an access (R405). -/
def addressFault (n : Need) (va : DWord) : Option Nat := if 2 ^ 56 ≤ va.toNat then some 0x10 else if va.toNat % n.size ≠ 0 then some 0x11 else none

/-- The checks of one access at a virtual address. -/
def checkAccess (n : Need) (va : DWord) (s : State) : State × Ready :=
  match addressFault n va with
  | some c => (s, .fault c none)
  | none =>
    let (s, p) := lookPage (.core s.coreNo) s.ctxNo n.access va.toNat s
    checkPage n va p s

/-- Each distinct granule that lanes name is looked up once (R173, R385). -/
def lookPages (n : Need) (addr : Fin 32 → DWord) : List (Fin 32) → List (Nat × Look) → State → State × List (Nat × Look)
  | [], ps, s => (s, ps)
  | l :: t, ps, s =>
    let g := (addr l).toNat / 2 ^ 19
    if (addressFault n (addr l)).isSome || ps.any fun p => p.1 == g then lookPages n addr t ps s
    else
      let (s, p) := lookPage (.core s.coreNo) s.ctxNo n.access (addr l).toNat s
      lookPages n addr t (ps ++ [(g, p)]) s

/-- The accesses of an instruction that are ready, those that fault, the pages that fault, and whether one waits. -/
structure Plan where
  go     : List (Fin 32 × DWord × Nat × Bool)
  faults : List LaneFault
  pages  : List PageFault
  wait   : Bool

/-- The lanes' accesses checked, their pages looked up. -/
def checkLanes (n : Need) (addr : Fin 32 → DWord) (ps : List (Nat × Look)) : List (Fin 32) → State → State × Plan
  | [], s => (s, ⟨[], [], [], false⟩)
  | l :: t, s =>
    let (s, r) : State × Ready := match addressFault n (addr l) with
      | some c => (s, .fault c none)
      | none => checkPage n (addr l) (look ps ((addr l).toNat / 2 ^ 19) .wait) s
    let (s, p) := checkLanes n addr ps t s
    match r with
    | .go pa nc => (s, { p with go := (l, addr l, pa, nc) :: p.go })
    | .fault c pg => (s, { p with faults := ⟨l, c, addr l⟩ :: p.faults, pages := pg.toList ++ p.pages })
    | .wait => (s, { p with wait := true })

/-- Every lane's access is checked before any is made (R169, R385). -/
def planLanes (n : Need) (addr : Fin 32 → DWord) (ls : List (Fin 32)) (s : State) : State × Plan :=
  let (s, ps) := lookPages n addr ls [] s
  checkLanes n addr ps ls s

/-- A non-temporal store of a wave performs (R175). -/
def performNt (uid core : Nat) (n : NtStore) (s : State) : State :=
  sendWrite uid n.addr n.data (updateCopy core n.addr n.data true (homeWrite (.wave uid core) n.addr n.data s))

/-- Every non-temporal store of the wave performs (R175). -/
def drainNt (s : State) : State := (s.w.nt.foldl (fun s n => performNt s.w.uid s.coreNo n s) s).modW fun w => { w with nt := [] }

/-- Whether an access overlaps a non-temporal store of the wave that has not performed. -/
def overlapsNt (s : State) (p : Plan) (z : Nat) : Bool :=
  p.go.any fun a => s.w.nt.any fun n => decide (a.2.2.1 < n.addr + n.data.length) && decide (n.addr < a.2.2.1 + z)

/-- A lane that reads a poisoned word: the word's address as the lane presents it, and as the error log holds it (R406, R421). -/
abbrev Poisoned := Fin 32 × DWord × Nat

/-- One poisoned word for every lane of a mask. -/
def poisonedRun (m : Mask) (addr : DWord) (at_ : Nat) : List Poisoned := (lanesOf m).map fun l => (l, addr, at_)

/-- A poisoned word that an access presents by a virtual address in the same page: pa is the access's physical address (R406). -/
def poisonedAt (va : DWord) (pa w : Nat) : DWord × Nat := ((va &&& ~~~3) + BitVec.ofNat 64 (w - wordOf pa), w)

/-- Faults of lanes that read poisoned words (R406), logged as consumed with the array's code (R418, R421); a replayable node is discarded and
no lane traps; a midge's fault ends the midge (R344). -/
def poisonFaults (array : Nat) (bad : List Poisoned) (s : State) : State × List LaneFault :=
  match bad with
  | [] => (s, [])
  | b :: _ =>
    let s := logError 1 array b.2.2 s
    if s.grp.task.repl && s.w.mode == .normal then ({ s with discards := s.discards ++ [(s.grp.task.ctx, s.grp.task.launch)] }, [])
    else (s, bad.map fun e => ⟨e.1, 0x19, e.2.1⟩)

/-- Pages that a run-ahead found missing join the batch, each once, up to 16 (R387). -/
def batchPages (ps : List PageFault) (s : State) : State :=
  let new := (ps.filter fun q => q.cause == 0x14).map fun q => (⟨q.addr, q.kind, false, false⟩ : BatchPage)
  let fresh := new.filter fun q => !s.w.batch.any fun b => b.addr.toNat / 2 ^ 19 == q.addr.toNat / 2 ^ 19
  let fresh := fresh.foldl (fun l q => if l.any fun b => b.addr.toNat / 2 ^ 19 == q.addr.toNat / 2 ^ 19 then l else l ++ [q]) []
  s.modW fun w => { w with batch := (w.batch ++ fresh).take 16 }

/-- In a run-ahead a memory instruction is only translated; its faulting pages join the batch and its destinations are
unknown (R387). -/
def probe (g : Sig) (n : Need) (addr : Fin 32 → DWord) (m : Mask) (s : State) : State :=
  let (s, p) := planLanes { n with forbid := false, inBuffer := false } addr (lanesOf m) s
  markUnknown g.writes (batchPages p.pages s)

/-- The page faults that accesses at addresses would meet. -/
def pagesAt (as : List (Access × DWord)) (s : State) : State × List PageFault :=
  as.foldl (fun r a => match translate (.core s.coreNo) s.ctxNo a.1 a.2.toNat r.1 with
    | (t, .fault c k _) => (t, r.2 ++ [⟨a.2, c, k⟩])
    | (t, _) => (t, r.2)) (s, [])

/-- In a run-ahead an instruction with known addresses is only translated at them (R387). -/
def probeAt (as : List (Access × DWord)) (s : State) : State :=
  let (s, ps) := pagesAt (as.filter fun a => decide (a.2.toNat < 2 ^ 56)) s
  batchPages ps s

/-- Bytes land in the shadow of the declared buffer that holds them (R246); of a replayable node's launch the scheduler keeps
which buffers its groups wrote (R306). -/
def shadowFor (ctx : Nat) (node : Option DWord) (va : Nat) (bs : List Byte) (s : State) : State :=
  let s := shadowWrite ctx va bs s
  match bufferOf s ctx va, node with
  | some b, some d => { s with owned := s.owned.map fun o =>
      if o.desc = d ∧ o.ctx = ctx ∧ ¬ o.wrote.contains (BitVec.ofNat 64 b.base) then { o with wrote := o.wrote ++ [BitVec.ofNat 64 b.base] } else o }
  | _, _ => s

/-- The launch of a group, and of the issuing one, where it is a replayable node (R306). -/
def Group.node (g : Group) : Option DWord := if g.task.repl then some g.task.launch else none
def State.node (s : State) : Option DWord := s.grp.node

/-- The same for a store of the issuing group. -/
def shadowStore (va : Nat) (bs : List Byte) (s : State) : State := shadowFor s.ctxNo s.node va bs s

/-! ## Epilogue rows -/

/-- One row of an epilogue entry of a group is stored whole (R225, R226): into the shadow of a declared buffer, else at the home slice,
where the core's own copies become invalid. -/
def storeRow (g : Group) (e : Epilogue) (l : Fin 32) (s : State) : State :=
  let va := e.addrs[l].toNat
  let pa := e.phys[l]
  let bs := e.rows[l]
  let back (s : State) : State := if bit e.nc l then writeBackRange g.core pa bs.length s else s
  if (bufferOf s g.task.ctx va).isSome then dropOwnCopy g.core pa bs.length (shadowFor g.task.ctx g.node va bs (back s))
  else
    let s := if bit e.nc l then homeQuiet pa bs (back s) else homeWrite (.wave e.wave g.core) pa bs s
    sendWrite e.wave pa bs (dropOwnCopy g.core pa bs.length s)

/-- The rows of an entry whose lanes are not parked are stored in ascending lane order. -/
def storeRows (g : Group) (e : Epilogue) (s : State) : State := (lanesOf (e.left &&& ~~~e.parked)).foldl (fun s l => storeRow g e l s) s

/-- An entry after its rows are stored; none when nothing is left of it. -/
def Epilogue.kept (e : Epilogue) : Option Epilogue :=
  let left := e.left &&& e.parked
  if left = 0 then none else some { e with left := left }

/-- The entries of the group that a test names are stored, and freed where every row is stored (R225). -/
def drainRows (p : Epilogue → Bool) (s : State) : State :=
  let s' := (s.grp.epilogues.filter p).foldl (fun s e => storeRows s.grp e s) s
  s'.modG fun g => { g with epilogues := g.epilogues.filterMap fun e => if p e then e.kept else some e }

/-- The rows of the issuing wave are stored: before its next access to memory (R170), a release (R226), and its end. -/
def drainOwnRows (s : State) : State := drainRows (fun e => e.wave == s.w.uid) s

/-- The words that rows of an entry of a group are to be stored to at their home slices. -/
def rowWords (s : State) (g : Group) (e : Epilogue) : List Nat :=
  (lanesOf (e.left &&& ~~~e.parked)).flatMap fun l =>
    if (bufferOf s g.task.ctx e.addrs[l].toNat).isSome then [] else wordsOf e.phys[l] e.rows[l].length

/-- The words of the issuing wave's non-temporal stores that have not performed. -/
def ntWords (s : State) : List Nat := s.w.nt.flatMap fun n => wordsOf n.addr n.data.length

/-- The words that rows of the issuing wave are to be stored to. -/
def ownRowWords (s : State) : List Nat := (s.grp.epilogues.filter fun e => e.wave == s.w.uid).flatMap (rowWords s s.grp)

/-- Whether the rows of the issuing wave, and with nt its non-temporal stores, must wait before they are stored (R353, R395). -/
def heldStores (nt : Bool) (s : State) : State × Bool := blockedAt (ownRowWords s ++ if nt then ntWords s else []) s

/-- An effect that comes after the rows of the wave, and with nt after its non-temporal stores: it waits until they can be stored. -/
def afterStores (nt : Bool) (body : Exec → State → State) (x : Exec) (s : State) : State :=
  let (s, wait) := heldStores nt s
  if wait then stallBack x s else body x (drainOwnRows (if nt then drainNt s else s))

/-- Whether ranges of physical addresses, each a start and a length, hold an address. -/
def within (rs : List (Nat × Nat)) (a : Nat) : Bool := rs.any fun r => inRange r.1 r.2 a

/-- Whether a non-temporal store, or a row of an entry that may be stored, reaches into ranges. -/
def NtStore.meets (rs : List (Nat × Nat)) (n : NtStore) : Bool := (wordsOf n.addr n.data.length).any (within rs)
def Epilogue.meets (rs : List (Nat × Nat)) (e : Epilogue) : Bool :=
  (lanesOf (e.left &&& ~~~e.parked)).any fun l => (wordsOf e.phys[l] e.rows[l].length).any (within rs)

/-- The stores of a group into ranges that were translated and have not performed, performed now. -/
def drainGroup (rs : List (Nat × Nat)) (g : Group) (s : State) : State :=
  let s := (g.wave :: g.waves).foldl (fun s w => (w.nt.filter (NtStore.meets rs)).foldl (fun s n => performNt w.uid g.core n s) s) s
  (g.epilogues.filter (Epilogue.meets rs)).foldl (fun s e => storeRows g e s) s

/-- A group without those stores. -/
def Group.drained (rs : List (Nat × Nat)) (g : Group) : Group :=
  { (g.mapWaves fun w => { w with nt := w.nt.filter fun n => !n.meets rs }) with
    epilogues := g.epilogues.filterMap fun e => if e.meets rs then e.kept else some e }

/-- Every access into ranges of physical addresses that was translated has drained, or the flag says that one must still wait (R392 step 2, R394):
non-temporal stores, epilogue rows and engine writes perform; a write or an atomic at a peer awaits its acknowledgement or answer. -/
def drainWithin (rs : List (Nat × Nat)) (s : State) : State × Bool :=
  let gs := s.grp :: s.rest
  let words := gs.flatMap fun g =>
    ((g.wave :: g.waves).flatMap fun w => (w.nt.filter (NtStore.meets rs)).flatMap fun n => wordsOf n.addr n.data.length) ++
      (g.epilogues.filter (Epilogue.meets rs)).flatMap (rowWords s g)
  let engines := s.fanOuts.any fun f => f.agent == 0 && f.data != [] && within rs f.addr
  let far := s.remotes.any fun r => r.reply.isNone && rs.any fun p => regionOf p.1 == 2 + r.link
  let (s, wait) := blockedAt words s
  if wait || engines || far then (s, true) else ((gs.foldl (fun s g => drainGroup rs g s) s).mapGroups (Group.drained rs), false)

/-- Rows of parked lanes that will not be replayed are discarded (R225). -/
def dropRows (m : Mask) (s : State) : State :=
  let cut (e : Epilogue) : Epilogue :=
    if e.wave = s.w.uid then { e with left := e.left &&& ~~~(e.parked &&& m), parked := e.parked &&& ~~~m } else e
  s.modG fun g => { g with epilogues := (g.epilogues.map cut).filter fun e => e.left != 0 }

/-- The accesses of an instruction that are ready: lane, virtual and physical address, and whether the page is non-coherent. -/
abbrev Ready4 := List (Fin 32 × DWord × Nat × Bool)

/-- What an instruction does before its accesses perform: it waits (none), or some of them fault. -/
abbrev Pre := Ready4 → State → State × Option (List LaneFault)

/-- Nothing before the accesses. -/
def noPre : Pre := fun _ s => (s, some [])

/-- A load's requests: each sector that misses takes its miss-status entry (R173). -/
def loadPre (z : Nat) : Pre := fun gs s =>
  let ws := gs.flatMap fun e => (missing s.reader s.coreNo (wordsOf e.2.2.1 z) s).map fun w => (w, e.2.2.2)
  let (s, wait) := loadMisses s.coreNo ws s
  (s, if wait then none else some [])

/-- Before accesses that a test picks allocate their lines: they wait while every way of a set is being filled (R347, R348). -/
def allocPre (p : Fin 32 × DWord × Nat × Bool → Bool) (pre : Pre) : Pre := fun gs s =>
  if gs.any fun e => p e && !(s.core s.coreNo).fits e.2.2.1 then (s, none) else pre gs s

/-- A store allocates on a page typed non-coherent (R348). -/
def storePre : Pre := allocPre (fun e => e.2.2.2) noPre

/-- A lane access: planned whole; then act performs the ready ones and answers the registers and the lanes that read poison;
then the results and faults are delivered (R56, R61, R169). An access that overlaps a pending one is held (R288). -/
def laneAccess (g : Sig) (n : Need) (addr : Fin 32 → DWord) (pre : Pre)
    (act : Ready4 → State → State × List RegWrite × List Poisoned)
    (x : Exec) (s : State) : State :=
  if s.w.mode = .ahead then probe g n addr x.en s
  else
    let g := g.over 1 n.size ((lanesOf x.en).map fun l => (l, (addr l).toNat))
    let (s, p) := planLanes n addr (lanesOf x.en) s
    let hold : State → State := if g.kind = .memory then stallLoad x else stallBack x
    if p.wait || heldBehind g s then hold s
    else
      let nt := overlapsNt s p n.size
      match heldStores nt s with
      | (s, true) => hold s
      | (s, false) => match pre p.go s with
        | (s, none) => hold s
        | (s, some far) =>
          let s := drainOwnRows (if nt then drainNt s else s)
          let (s, ws, bad) := act (p.go.filter fun e => !far.any fun f => f.lane == e.1) s
          let (s, fs) := poisonFaults 0 bad s
          deliver g x ws (p.faults ++ far ++ fs) (oweRecords p.pages s)

/-- A group access: one access; a fault parks the whole run and the instruction replays whole (R169). -/
def groupAccess (g : Sig) (n : Need) (va : DWord) (pre : Pre) (act : Nat → Bool → State → State × List RegWrite × Option Nat)
    (x : Exec) (s : State) : State :=
  if s.w.mode = .ahead then probe g n (fun _ => va) (match lowest x.en with
    | some l => BitVec.twoPow 32 l
    | none => 0) s
  else
    let g := g.over 1 n.size ((lanesOf x.en).map fun l => (l, va.toNat))
    let hold : State → State := if g.kind = .memory then stallLoad x else stallBack x
    let (s, r) := checkAccess n va s
    match r with
    | .wait => hold s
    | .fault c pg => replayRun x c va (oweRecords pg.toList s)
    | .go pa nc =>
      let one : Ready4 := [(0, va, pa, nc)]
      let nt := overlapsNt s ⟨one, [], [], false⟩ n.size
      if heldBehind g s then hold s
      else match heldStores nt s with
      | (s, true) => hold s
      | (s, false) => match pre one s with
        | (s, none) => hold s
        | (s, some (f :: _)) => replayRun x f.cause va s
        | (s, some []) =>
          let (s, ws, bad) := act pa nc (drainOwnRows (if nt then drainNt s else s))
          match bad with
          | some w =>
            let (s, fs) := poisonFaults 0 (poisonedRun x.run (poisonedAt va pa w).1 w) s
            parkRestart x fs s
          | none => applyAll s ws

/-! ## Loads and stores -/

/-- A value for each lane of a list. -/
def lanesFrom {α : Type} (d : α) (xs : List (Fin 32 × α)) : Lanes α :=
  Lanes.ofFn fun l => match xs.find? fun e => e.1 == l with
    | some e => e.2
    | none => d

/-- The lanes of a list. -/
def maskFrom {α : Type} (xs : List (Fin 32 × α)) : Mask := maskOf fun l => xs.any fun e => e.1 == l

/-- The loads of an instruction in ascending lane order: each lane's number, and the lanes that read poison. -/
def takeLanes (z : Nat) : Ready4 → State → State × List (Fin 32 × Nat) × List Poisoned
  | [], s => (s, [], [])
  | (l, va, pa, nc) :: t, s =>
    let (s, x, bad) := takeNum s.reader s.coreNo nc pa z s
    let (s, xs, bs) := takeLanes z t s
    match bad with
    | some w => (s, xs, (l, poisonedAt va pa w) :: bs)
    | none => (s, (l, x) :: xs, bs)

/-- The loads of an instruction, with one count for each of its line requests (R173, R369). -/
def loadLanes (z : Nat) (gs : List (Fin 32 × DWord × Nat × Bool)) (s : State) : State × List (Fin 32 × Nat) × List Poisoned :=
  let ws := missing s.reader s.coreNo (gs.flatMap fun e => wordsOf e.2.2.1 z) s
  let (s, r) := takeLanes z gs s
  (countMissing s.reader ws s, r)

/-- Results in one lane register. -/
def vWrite (d : Fin 128) (f : Nat → Word) (xs : List (Fin 32 × Nat)) : List RegWrite :=
  [.v d (maskFrom xs) (lanesFrom 0 (xs.map fun e => (e.1, f e.2)))]

/-- Results in a lane pair (R13). -/
def vvWrite (d : Fin 128) (xs : List (Fin 32 × Nat)) : List RegWrite :=
  vWrite d (fun x => BitVec.ofNat 32 x) xs ++ vWrite (odd d) (fun x => BitVec.ofNat 32 (x / 2 ^ 32)) xs

/-- A store of one lane or group: into the shadow in a replayable node (R306), else by its page type. -/
def storeOne (va : DWord) (pa : Nat) (nc : Bool) (bs : List Byte) (s : State) : State :=
  if s.grp.task.repl then shadowStore va.toNat bs s
  else if nc then storeBytes s.w.uid s.coreNo nc pa bs s
  else sendWrite s.w.uid pa bs (storeBytes s.w.uid s.coreNo nc pa bs s)

/-- The stores of an instruction in ascending lane order, so that the highest lane's byte stands (R170). -/
def storeLanes (f : Fin 32 → List Byte) (gs : List (Fin 32 × DWord × Nat × Bool)) (s : State) : State :=
  gs.foldl (fun s a => storeOne a.2.1 a.2.2.1 a.2.2.2 (f a.1) s) s

/-- The last lane's entry for each word, in ascending lane order (R170). -/
def lastPerWord (gs : List (Fin 32 × DWord × Nat × Bool)) : List (Fin 32 × DWord × Nat × Bool) :=
  gs.foldl (fun l a => (l.filter fun b => b.2.2.1 != a.2.2.1) ++ [a]) []

/-- tst of one word: the home slice's tst, and the core's own valid copy marked provisional (R184, R185). -/
def tstOne (a : Fin 32 × DWord × Nat × Bool) (x : Word) (s : State) : State :=
  let pa := a.2.2.1
  let s := sendWrite s.w.uid pa (leBytes 4 x.toNat) (homeTst s.w.uid s.coreNo pa x s)
  let s := updateCopy s.coreNo pa (leBytes 4 x.toNat) true s
  s.modCore s.coreNo fun c => c.mapWord pa fun w => { w with provisional := (cellOf s pa).isSome }

/-- retract of the words of an instruction, each once (R186): the code of every word; a poisoned word has none (R406). -/
def retractWords : Ready4 → State → State × List (Nat × Nat)
  | [], s => (s, [])
  | a :: t, s =>
    let pa := a.2.2.1
    if s.marked pa then retractWords t s
    else
      let (s, c) := homeRetract s.w.uid s.coreNo pa s
      let s := if c = 0 then sendWrite s.w.uid pa (s.bytes pa 4) s else s
      let (s, cs) := retractWords t s
      (s, (pa, c) :: cs)

/-! ## Atomics and reductions -/

/-- The operations of R196. -/
inductive AtomOp where
  | add
  | min
  | max
  | and
  | or
  | xor
  | xchg
  | cas
  deriving DecidableEq, Repr

/-- The new value of a word (R196): x is the operand, y the new value of a cas. -/
def AtomOp.apply (o : AtomOp) (old x y : Word) : Word :=
  match o with
  | .add => old + x
  | .min => if old.toInt ≤ x.toInt then old else x
  | .max => if x.toInt ≤ old.toInt then old else x
  | .and => old &&& x
  | .or => old ||| x
  | .xor => old ^^^ x
  | .xchg => x
  | .cas => if old = x then y else old

/-- One atomic on device or host memory (R196, R197): the former value, or poison with nothing written (R419). The core then holds the word owned. -/
def atomOne (o : AtomOp) (pa : Nat) (x y : Word) (s : State) : State × Word × Bool :=
  let s := settleAliases (lineOf pa) (roundLine (lineOf pa) s)
  let old := BitVec.ofNat 32 (s.num pa 4)
  if s.marked pa then (s, old, true)
  else
    let new := o.apply old x y
    let s := homeWrite s.agent pa (leBytes 4 new.toNat) s
    if regionOf pa = 0 then
      let s := fillWord s.coreNo pa false new false s
      (s.modCore s.coreNo fun c => c.mapWord pa fun w => { w with val := new, owned := ownerOf s pa == some s.coreNo, provisional := false }, old, false)
    else (updateCopy s.coreNo pa (leBytes 4 new.toNat) true s, old, false)

/-! ### At a peer's home agent (R197, R307) -/

/-- The request of a lane that the issue under way has at a peer. -/
def remoteOf (s : State) (l : Fin 32) : Option Remote := s.remotes.find? fun r => !r.write && r.wave == s.w.uid && r.issue == s.iss.id && r.lane == l.val

/-- An atomic or reduction goes to the peer that homes its word, whose cell settles and whose line's aliases give way as before a store (R199). -/
def sendRemote (op : Nat) (l : Fin 32) (pa : Nat) (x y : Word) (s : State) : State :=
  let s := settleWords [wordOf pa] (settleAliases (lineOf pa) (roundLine (lineOf pa) s))
  let link := regionOf pa - 2
  let tag := remoteTag + s.nextUid
  { (s.send (.flit link 0x03 [pa, op, x.toNat, y.toNat, tag] [])).fresh with remotes := s.remotes ++ [⟨false, link, tag, s.w.uid, s.iss.id, l.val, none⟩] }

/-- The accesses of an instruction to peer memory are sent, once each and in ascending lane order, when no pending instruction can park their lanes
any more; the instruction waits for the answers. A refusal is the remote-access fault (R362). -/
def remotePre (op : Nat) (fx fy : Fin 32 → Word) (first : State → State) : Pre := fun gs s =>
  let far := gs.filter fun e => decide (2 ≤ regionOf e.2.2.1)
  let open_ := far.any fun e => s.w.pending.any fun p => (faultOf p.faults e.1).isSome
  if far = [] then (s, some [])
  else if open_ then (s, none)
  else
    let s := far.foldl (fun s e => if (remoteOf s e.1).isSome then s else sendRemote op e.1 e.2.2.1 (fx e.1) (fy e.1) s)
      (if far.any fun e => (remoteOf s e.1).isNone then first s else s)
    if far.any fun e => ((remoteOf s e.1).bind (·.reply)).isNone then (s, none)
    else (s, some (far.filterMap fun e => match (remoteOf s e.1).bind (·.reply) with
      | some (3, _) => some ⟨e.1, 0x16, e.2.1⟩
      | _ => none))

/-- The answer of a lane's request at a peer: its former value and whether the word is poisoned; the proxy slice's line is gone. -/
def takeRemote (l : Fin 32) (pa : Nat) (s : State) : State × Word × Bool :=
  let r := ((remoteOf s l).bind (·.reply)).getD (0, 0)
  (dropLine (lineOf pa) s, r.2, r.1 == 2)

/-- The end of an atomic at a peer: the core's own copy, if it has one, takes the new value. -/
def atomRemote (o : AtomOp) (l : Fin 32) (pa : Nat) (x y : Word) (s : State) : State × Word × Bool :=
  let (s, old, bad) := takeRemote l pa s
  (if bad then s else updateCopy s.coreNo pa (leBytes 4 (o.apply old x y).toNat) false s, old, bad)

/-- The end of a reduction at a peer: the core's own copy becomes invalid (R349). -/
def redRemote (l : Fin 32) (pa : Nat) (s : State) : State × Bool :=
  let (s, _, bad) := takeRemote l pa s
  (if bad then s else dropOwnCopy s.coreNo pa 4 s, bad)

/-- The requests of the issue under way are done with. -/
def endRemotes (s : State) : State := { s with remotes := s.remotes.filter fun r => r.write || r.wave != s.w.uid || r.issue != s.iss.id }

/-- Whether a lane's atomic performs: its word is not poisoned (R198, R406). -/
def performs (s : State) (e : Fin 32 × DWord × Nat × Bool) : Bool :=
  if 2 ≤ regionOf e.2.2.1 then ((remoteOf s e.1).bind (·.reply)).map (·.1) != some 2 else !s.marked (wordOf e.2.2.1)

/-- The atomics of an instruction in ascending lane order (R197). -/
def atomLanes (o : AtomOp) (fx fy : Fin 32 → Word) : Ready4 → State → State × List (Fin 32 × Nat) × List Poisoned
  | [], s => (s, [], [])
  | (l, va, pa, _) :: t, s =>
    let (s, old, bad) := if 2 ≤ regionOf pa then atomRemote o l pa (fx l) (fy l) s else atomOne o pa (fx l) (fy l) s
    let (s, xs, bs) := atomLanes o fx fy t s
    if bad then (s, xs, (l, poisonedAt va pa (wordOf pa)) :: bs) else (s, (l, old.toNat) :: xs, bs)

/-- One reduction: form 0 adds into the FP32 word (R200), the narrow formats into the element's shadow (R201); the core's own
copy is dropped. -/
def redOne (form pa : Nat) (x : Word) (s : State) : State × Bool :=
  let s := settleAliases (lineOf pa) (if form = 0 then roundLine (lineOf pa) s else s)
  if s.marked (wordOf pa) then (s, true)
  else if form = 0 then
    let new := fadd .nearest (BitVec.ofNat 32 (s.num pa 4)) x
    (dropOwnCopy s.coreNo pa 4 (homeWrite s.agent pa (leBytes 4 new.toNat) s), false)
  else (dropOwnCopy s.coreNo pa 1 (homeReduce form s.agent pa x s), false)

/-- The reductions of an instruction in ascending lane order (R200, R201). -/
def redLanes (form : Nat) (f : Fin 32 → Word) :
    Ready4 → State → State × List Poisoned
  | [], s => (s, [])
  | (l, va, pa, _) :: t, s =>
    let (s, bad) : State × Bool := if 2 ≤ regionOf pa then redRemote l pa s else redOne form pa (f l) s
    let (s, bs) := redLanes form f t s
    if bad then (s, (l, poisonedAt va pa (wordOf pa)) :: bs) else (s, bs)

/-! ## Release and acquire -/

/-- A release of the wave (R204): its epilogue rows are stored (R226) and its provisional cells settle. Its other stores have
performed and are acknowledged, and its pending instructions have completed, before it. -/
def releaseWave (s : State) : State :=
  let s := drainOwnRows s
  settleWave s.w.uid s

/-- Whether a write of the wave at a peer's home has not been acknowledged yet (R293, R307). -/
def unacked (s : State) : Bool := s.remotes.any fun r => r.write && r.wave == s.w.uid

/-- An effect that comes after the rows of the wave, once every write of it is acknowledged. -/
def afterAcks (body : Exec → State → State) : Exec → State → State := afterStores false fun x s => if unacked s then stallBack x s else body x s

/-- An effect that comes after a release of the wave (R204). -/
def afterRelease (body : Exec → State → State) : Exec → State → State := afterAcks fun x s => body x (releaseWave s)

/-- An acquire of the wave (R204). -/
def acquireWave (s : State) : State := acquireCore s.coreNo s

/-! ## Scratch -/

/-- A scratch access checked (R40, R168): misalignment, then the bounds of the group's allotment. -/
def scratchFault (s : State) (off z : Nat) : Option Nat :=
  if off % z ≠ 0 then some 0x11 else if scratchOf s.grp.allot * 4096 < off + z then some 0x12 else none

/-- The faults and the ready lanes of a scratch instruction. -/
def planScratch (s : State) (off : Fin 32 → Nat) (z : Nat) (m : Mask) : List (Fin 32) × List LaneFault :=
  ((lanesOf m).filter fun l => (scratchFault s (off l) z).isNone,
   (lanesOf m).filterMap fun l => (scratchFault s (off l) z).map fun c => ⟨l, c, BitVec.ofNat 64 (off l)⟩)

/-- Whether a scratch word is poisoned (R419). -/
def scratchBad (s : State) (off z : Nat) : Bool := (wordsOf off z).any fun w => s.grp.scratchPoison.contains w

/-- The first poisoned word of a scratch access, as %trapaddr and the error log hold it (R419). -/
def scratchWord (s : State) (off z : Nat) : DWord × Nat :=
  let w := ((wordsOf off z).find? fun w => s.grp.scratchPoison.contains w).getD (wordOf off)
  (BitVec.ofNat 64 w, w)

/-- Bytes stored in the group's scratch; whole words lose their poison marks (R419). DESIGN CHOICE (log entry 12): another wave's load after the store
finds the new bytes, where without a barrier or a wait R172 also allows the old ones. -/
def scratchStore (off : Nat) (bs : List Byte) (s : State) : State :=
  let whole := (wordsOf off bs.length).filter fun w => off ≤ w && w + 4 ≤ off + bs.length
  s.modG fun g => { g with scratch := g.scratch.writes off bs, scratchPoison := g.scratchPoison.filter fun w => !whole.contains w }

/-- The scratch loads of an instruction (R171, R172). -/
def scratchLoad (g : Sig) (z : Nat) (off : Fin 32 → Nat) (wr : List (Fin 32 × Nat) → List RegWrite) (x : Exec) (s : State) : State :=
  if s.w.mode = .ahead then markUnknown g.writes s
  else if heldBehind (g.over 2 z ((lanesOf x.en).map fun l => (l, off l))) s then stallBack x s
  else
    let g := g.over 2 z ((lanesOf x.en).map fun l => (l, off l))
    let (ok, fs) := planScratch s off z x.en
    let (s, ps) := poisonFaults 3 ((ok.filter fun l => scratchBad s (off l) z).map fun l => (l, scratchWord s (off l) z)) s
    let good := ok.filter fun l => !scratchBad s (off l) z
    deliver g x (wr (good.map fun l => (l, leNat (s.grp.scratch.bytes (off l) z)))) (fs ++ ps) s

/-- The scratch stores of an instruction in ascending lane order (R170). -/
def scratchStores (g : Sig) (z : Nat) (off : Fin 32 → Nat) (f : Fin 32 → List Byte) (x : Exec) (s : State) : State :=
  let g := { g.over 2 z ((lanesOf x.en).map fun l => (l, off l)) with kind := .store }
  let (ok, fs) := planScratch s off z x.en
  if heldBehind g s then stallBack x s else deliver g x [] fs (ok.foldl (fun s l => scratchStore (off l) (f l) s) s)

end Sys2Proof.Machine
end

