-- ==== Sys2Proof/Machine/Fan.lean ====
section
/-! DEFINITION. Writes and atomics of the host and of peers at the home slice, behind the fan-out of their lines (R307, R353, R358,
R428, R432). -/

namespace Sys2Proof.Machine

/-- Who made the write behind a fan-out: 1 the host, 2 and above the peers by link, 0 the lanes and engines, 15 nobody: a region entry is evicted. -/
def agentOf (code : Nat) : Agent := if code = 0 then .engine else if code = 1 then .host else .peer (code - 2)

/-- The answer that an agent outside the package gets for its access: status 0 data, 1 acknowledgement, 2 poison, 3 refusal. -/
def answerAgent (code tag st : Nat) (data : List Byte) (s : State) : State :=
  if code = 1 then s.send (.host tag st data) else if 2 ≤ code ∧ code < 14 then s.send (.flit (code - 2) 0x04 [tag, st] data) else s

/-- An atomic of n bytes on numbers (R196, R428): the new value of old under operand x, y the new value of a CAS. -/
def atomNum (op n old x y : Nat) : Nat :=
  let sg (v : Nat) : Int := (BitVec.ofNat (8 * n) v).toInt
  let m := 2 ^ (8 * n)
  match op with
  | 0 => (old + x) % m
  | 1 => if sg old ≤ sg x then old else x
  | 2 => if sg x ≤ sg old then old else x
  | 3 => old &&& x
  | 4 => old ||| x
  | 5 => old ^^^ x
  | 6 => x
  | _ => if old = x then y else old

/-- The write or atomic of an agent outside the lanes performs (R307, R353, R419, R428); a write of several lines is answered with the last. -/
def performFan (f : FanOut) (s : State) : State :=
  if f.op = 0 then
    let s := homeWrite (agentOf f.agent) f.addr f.data s
    if s.fanOuts.any fun e => e.write == f.write then s else answerAgent f.agent f.tag 1 [] s
  else if 8 < f.op then
    let s := if f.op = 9 then roundLine f.line s else s
    if s.marked (wordOf f.addr) then answerAgent f.agent f.tag 2 [] s
    else
      let x : Word := BitVec.ofNat 32 (leNat (f.data.take 4))
      let s := if f.op = 9 then
          let s := settleAliases f.line s
          homeWrite (agentOf f.agent) f.addr (leBytes 4 (fadd .nearest (BitVec.ofNat 32 (s.num f.addr 4)) x).toNat) s
        else homeReduce (f.op - 9) (agentOf f.agent) f.addr x s
      answerAgent f.agent f.tag 1 [] s
  else
    let n := f.data.length / 2
    let s := settleAliases f.line (roundLine f.line s)
    if (wordsOf f.addr n).any fun w => s.marked w then answerAgent f.agent f.tag 2 [] s
    else
      let old := s.num f.addr n
      let new := atomNum (f.op - 1) n old (leNat (f.data.take n)) (leNat (f.data.drop n))
      answerAgent f.agent f.tag 0 (leBytes n old) (homeWrite (agentOf f.agent) f.addr (leBytes n new) s)

/-- A fan-out that has not begun begins; the other die answers at once (R358). With nobody to ask outside, its answer is the last. -/
def beginFan (f : FanOut) (s : State) : State :=
  let v := outside (sharersOf s f.addr)
  let here := (sharersOf s f.addr).getLsbD 0
  let absent := !(here && guestHeld s f.line)
  let g : FanOut := { f with begun := true, agents := v, absent := absent, start := s.clock, cfg := cohOf s f.addr }
  let s := useL2 f.line false (useRegion f.addr s)
  let s := invalidate f.line v { s with fanOuts := s.fanOuts.map fun e => if e = f then g else e }
  if !here then s
  else
    let s := dropGuest f.line (clearSharers f.addr 1 s)
    if v = 0 ∧ absent then wasted g.cfg f.addr s else s

/-- The first fan-out of its line. -/
def firstOfLine (s : State) (f : FanOut) : Bool := (s.fanOuts.find? fun e => e.line == f.line) == some f

/-- A fan-out that is complete and that no write of its own has taken up, of an eviction or with another behind it. -/
def spent (s : State) (f : FanOut) : Bool := f.agents == 0 && f.data == [] && (f.agent == 15 || s.fanOuts.any fun e => e != f && e.line == f.line)

/-- Region entries under eviction are freed once their fan-outs have completed (R357). -/
def freeEvicted (s : State) : State :=
  if s.regions.all fun r => !r.evicting then s
  else { s with regions := s.regions.filter fun r => !r.evicting || s.fanOuts.any fun f => f.agent == 15 && dirRegion f.addr == r.region }

/-- Fan-outs go on: the first of each line begins, and its write performs once every agent has answered and no migration holds its
page (R358, R360, R395); one that is spent gives way. -/
def settleFans : Nat → State → State
  | 0, s => s
  | fuel + 1, s =>
    match s.fanOuts.find? fun f => firstOfLine s f && !f.begun with
    | some f => settleFans fuel (beginFan f s)
    | none =>
      match s.fanOuts.find? fun f => firstOfLine s f && f.agents == 0 && f.data != [] && !movingFrame s f.addr with
      | some f =>
        let bare : FanOut := { f with agent := 0, op := 0, tag := 0, data := [], write := 0 }
        let s := performFan f { s with fanOuts := s.fanOuts.map fun e => if e = f then bare else e }
        settleFans fuel { s with fanOuts := s.fanOuts.erase bare }
      | none =>
        match s.fanOuts.find? fun f => firstOfLine s f && spent s f with
        | some f => settleFans fuel (freeEvicted { s with fanOuts := s.fanOuts.erase f })
        | none => s

/-- Every fan-out that can go on does. -/
def pumpFans (s : State) : State := settleFans (2 * s.fanOuts.length) s

/-- Bytes cut at the lines that they lie in. -/
def lineCuts : Nat → Nat → List Byte → List (Nat × List Byte)
  | 0, _, _ => []
  | fuel + 1, a, bs => if bs = [] then [] else (a, bs.take (256 - a % 256)) :: lineCuts fuel (a + (256 - a % 256)) (bs.drop (256 - a % 256))

/-- A write, or an atomic within one line, of an agent outside the lanes arrives at the home slice; each line of it has its own fan-out (R353, R358). -/
def agentWrite (code op addr tag : Nat) (data : List Byte) (s : State) : State :=
  let fan (p : Nat × List Byte) : FanOut := ⟨lineOf p.1, 0, s.clock, true, false, code, p.1, op, tag, p.2, s.nextUid, 0⟩
  let s := s.fresh
  pumpFans { s with fanOuts := s.fanOuts ++ if op = 0 then (lineCuts (data.length / 256 + 2) addr data).map fan else [fan (addr, data)] }

/-- FENCED of an agent (R361, R364). -/
def fenced (s : State) (agent : Nat) : Bool := testBit s.contstat.toNat agent

/-- A write of an engine at a physical address (R353): at once, or behind the fan-outs of its lines. -/
def engineStore (a : Nat) (bs : List Byte) (s : State) : State :=
  if (wordsOf a bs.length).any fun w => mustFan s w || movingFrame s w then agentWrite 0 0 a 0 bs s else homeWrite .engine a bs s

/-- n bytes as an engine's last write leaves them, though it may still wait behind a fan-out. -/
def engineNum (a n : Nat) (s : State) : Nat :=
  match s.fanOuts.reverse.find? fun f => f.agent == 0 && f.op == 0 && f.addr == a && f.data.length == n with
  | some f => leNat f.data
  | none => homeNum a n s

/-! ## The fault queue (R388) -/

/-- The address of a slot of a context's fault queue. -/
def slotAt (c : Context) (slot : Nat) : Nat := c.fqbase.toNat + 16 * slot

/-- Whether the slot at FQPROD is free (R388). -/
def slotFree (c : Context) (s : State) : Bool :=
  decide (c.fqcount < 2 ^ (c.fqsize + 4)) || testBit (homeNum (slotAt c c.fqprod) 16 s) 127

/-- One fault-queue record, of a batch with a number or of a new one (R388): whether it is written, with its number. It waits while the slot at FQPROD
is not free, and while agents outside share its line; a context with no fault queue has nothing to write. The last record of a batch signals the
host (R429). -/
def writeRecord (ctx : Nat) (addr : DWord) (kind : Nat) (batch : Option Nat) (last : Bool) (s : State) : State × Option Nat :=
  let c := s.ctx ctx
  if c.fqbase = 0 then (s, some 0)
  else if !slotFree c s then (s, none)
  else
    let a := slotAt c c.fqprod
    match blockedAt (wordsOf a 16) s with
    | (s, true) => (s, none)
    | (s, false) =>
      let no := batch.getD c.batch
      let x := addr.toNat + kind * 2 ^ 64 + no % 2 ^ 32 * 2 ^ 80 + (if batch.isNone then 2 ^ 112 else 0) + (if last then 2 ^ 113 else 0)
      let s := sendWrite 0 a (leBytes 16 x) (homeWrite .engine a (leBytes 16 x) s)
      let s := s.modCtx ctx fun c =>
        { c with fqprod := (c.fqprod + 1) % 2 ^ (c.fqsize + 4), fqcount := c.fqcount + 1, batch := if batch.isNone then c.batch + 1 else c.batch }
      (if last then s.send (.msix 0) else s, some no)

/-- A record that is a batch of its own; the flag says that it waits. -/
def writeSingle (ctx : Nat) (addr : DWord) (kind : Nat) (s : State) : State × Bool :=
  let (s, no) := writeRecord ctx addr kind none true s
  (s, no.isNone)

/-- The records that the issuing wave owes are written while slots are free; the rest wait (R388). -/
def flushBatch : Nat → State → State
  | 0, s => s
  | fuel + 1, s =>
    match s.w.batch with
    | [] => s
    | b :: t =>
      let last := b.single || match t with
        | [] => true
        | c :: _ => c.first
      match writeRecord s.grp.task.ctx b.addr b.kind (if b.first then none else some s.w.batchNo) last s with
      | (s, some no) => flushBatch fuel (s.modW fun w => { w with batch := t, batchNo := no })
      | (s, none) => s

end Sys2Proof.Machine
end

