-- ==== Sys2Proof/WellFormed.lean ====
section
/-! DEFINITION. Which terms of Instr are instructions: the limits that R53, R66 and each instruction's entry put on its
fields. check names the first limit a term breaks. Events have no word, so check refuses them as encodings. -/

namespace Sys2Proof

/-- Why a bit pattern or a term is no instruction (R66). Each is the illegal-instruction fault. -/
inductive Reject where
  | reservedMajor
  | reservedSub
  | nonzeroUnused
  | oddPair
  | predicateDestination
  | maskField
  | checksumField
  | lookaheadField
  | fieldRange
  | absentRegister
  | truncated
  | noEncoding
  deriving DecidableEq, Repr

/-- The special registers of R28 by number. -/
def specialRegister (n : Nat) : Bool :=
  n < 6 || n == 8 || (0x10 ≤ n && n < 0x23) || (0x30 ≤ n && n < 0x33) || n == 0x40 ||
    (0x50 ≤ n && n < 0x55) || n == 0x60 || n == 0x61

/-- The 64-bit special registers of R28. -/
def specialWide (n : Nat) : Bool :=
  n == 8 || (0x1C ≤ n && n < 0x21) || n == 0x51 || n == 0x53 || n == 0x54 || n == 0x60 || n == 0x61

/-- The special registers of R28 that each lane holds: %lane, %retcode, %trapent. -/
def specialPerLane (n : Nat) : Bool := n == 0 || n == 0x40 || n == 0x54

/-- The width of a conversion format by its code (R156). -/
def fmtWidth (c : Nat) : Nat :=
  match c with
  | 0 => 32
  | 1 => 16
  | 2 => 16
  | 3 => 8
  | 4 => 8
  | 5 => 32
  | _ => 8

/-- The pairs a cvtf may name (R156). -/
def cvtfPair (x y : Nat) : Bool := x < 5 && y < 5 && x != y

/-- The pairs a cvti may name (R156): INT32 with FP32, or INT8 with any floating format. -/
def cvtiPair (x y : Nat) : Bool :=
  (x == 5 && y == 0) || (x == 0 && y == 5) || (x == 6 && y < 5) || (x < 5 && y == 6)

/-- Elements that one conversion converts in a lane (R157). -/
def cvtCount (x y : Nat) : Nat := 32 / min (fmtWidth x) (fmtWidth y)

/-- A first register is aligned to the registers its operand spans (R157). -/
def cvtAligned (x y a d : Nat) : Bool :=
  a % (cvtCount x y * fmtWidth x / 32) == 0 && d % (cvtCount x y * fmtWidth y / 32) == 0

/-- Refuse with a name where a limit does not hold. -/
def limit (p : Prop) [Decidable p] (e : Reject) (rest : Option Reject) : Option Reject :=
  if p then rest else some e

/-- The first limit of R53, R66 and the entries that a term breaks; none for an instruction. -/
def Instr.check : Instr → Option Reject
  | .dictionaryCode _ _ _ => none
  | .addB32 _ _ _ => none
  | .addSatI32 _ _ _ => none
  | .addSatN32 _ _ _ => none
  | .subB32 _ _ _ => none
  | .subSatI32 _ _ _ => none
  | .subSatN32 _ _ _ => none
  | .mulLoB32 _ _ _ => none
  | .mulHiI32 _ _ _ => none
  | .mulHiN32 _ _ _ => none
  | .madB32 _ _ _ => none
  | .minI32 _ _ _ => none
  | .minN32 _ _ _ => none
  | .maxI32 _ _ _ => none
  | .maxN32 _ _ _ => none
  | .addB64 d a b => limit (d.val % 2 = 0) .oddPair (limit (a.val % 2 = 0) .oddPair (limit (b.val % 2 = 0) .oddPair none))
  | .subB64 d a b => limit (d.val % 2 = 0) .oddPair (limit (a.val % 2 = 0) .oddPair (limit (b.val % 2 = 0) .oddPair none))
  | .addi _ _ _ => none
  | .muli _ _ _ => none
  | .andi _ _ _ => none
  | .ori _ _ _ => none
  | .xori _ _ _ => none
  | .shli _ _ i => limit (i.toNat < 32) .fieldRange none
  | .shri _ _ i => limit (i.toNat < 32) .fieldRange none
  | .sari _ _ i => limit (i.toNat < 32) .fieldRange none
  | .andB32 _ _ _ => none
  | .orB32 _ _ _ => none
  | .xorB32 _ _ _ => none
  | .andnB32 _ _ _ => none
  | .shlB32 _ _ _ => none
  | .shrN32 _ _ _ => none
  | .sarI32 _ _ _ => none
  | .rotB32 _ _ _ => none
  | .popcB32 _ _ => none
  | .clzB32 _ _ => none
  | .ctzB32 _ _ => none
  | .brevB32 _ _ => none
  | .bfeN32 _ _ _ => none
  | .bfeI32 _ _ _ => none
  | .bfiB32 _ _ _ => none
  | .permB8 _ _ _ => none
  | .lutN4 _ a _ => limit (a.val % 4 = 0) .fieldRange none
  | .movB32 _ _ => none
  | .movB64 d a => limit (d.val % 2 = 0) .oddPair (limit (a.val % 2 = 0) .oddPair none)
  | .movs _ _ => none
  | .cmpEqB32 d _ _ => limit (d.val < 7) .predicateDestination none
  | .cmpEqF32 d _ _ => limit (d.val < 7) .predicateDestination none
  | .cmpNeB32 d _ _ => limit (d.val < 7) .predicateDestination none
  | .cmpNeF32 d _ _ => limit (d.val < 7) .predicateDestination none
  | .cmpLtI32 d _ _ => limit (d.val < 7) .predicateDestination none
  | .cmpLtN32 d _ _ => limit (d.val < 7) .predicateDestination none
  | .cmpLtF32 d _ _ => limit (d.val < 7) .predicateDestination none
  | .cmpLeI32 d _ _ => limit (d.val < 7) .predicateDestination none
  | .cmpLeN32 d _ _ => limit (d.val < 7) .predicateDestination none
  | .cmpLeF32 d _ _ => limit (d.val < 7) .predicateDestination none
  | .sel _ _ _ _ => none
  | .xlaneFrom _ _ _ => none
  | .xlaneBack _ _ _ => none
  | .xlaneFwd _ _ _ => none
  | .xlaneSwap _ _ _ => none
  | .lshB32 _ _ _ => none
  | .lshB8 _ _ _ => none
  | .bcast _ _ l => limit (l.val < 32) .fieldRange none
  | .wtestEvery d a => limit (d.val < 7) .predicateDestination (limit (a.val < 8) .fieldRange none)
  | .wtestSome d a => limit (d.val < 7) .predicateDestination (limit (a.val < 8) .fieldRange none)
  | .wtestAgree d a => limit (d.val < 7) .predicateDestination (limit (a.val < 8) .fieldRange none)
  | .ballot _ a => limit (a.val < 8) .fieldRange none
  | .faddF32 _ _ _ _ => none
  | .fsubF32 _ _ _ _ => none
  | .fmulF32 _ _ _ _ => none
  | .ffmaF32 _ _ _ _ => none
  | .fminF32 _ _ _ => none
  | .fminNumF32 _ _ _ => none
  | .fmaxF32 _ _ _ => none
  | .fmaxNumF32 _ _ _ => none
  | .fabsF32 _ _ => none
  | .fnegF32 _ _ => none
  | .fcopysignF32 _ _ _ => none
  | .frcpF32 _ _ _ => none
  | .frsqF32 _ _ _ => none
  | .fsqrtF32 _ _ _ _ => none
  | .fexp2F32 _ _ _ => none
  | .flog2F32 _ _ _ => none
  | .fsinF32 _ _ _ => none
  | .fcosF32 _ _ _ => none
  | .cvtf d a y x _ => limit (cvtfPair x.val y.val) .fieldRange (limit (cvtAligned x.val y.val a.val d.val) .oddPair none)
  | .cvti d a y x _ => limit (cvtiPair x.val y.val) .fieldRange (limit (cvtAligned x.val y.val a.val d.val) .oddPair none)
  | .sbpackSb3 _ _ => none
  | .sbpackSb5 _ _ => none
  | .sbpackSb8 _ _ => none
  | .sbunpSb3 _ _ => none
  | .sbunpSb5 _ _ => none
  | .sbunpSb8 _ _ => none
  | .ckAccB32 h _ => limit (h.val < 4) .checksumField none
  | .ckAccB64 h a => limit (h.val < 4) .checksumField (limit (a.val % 2 = 0) .oddPair none)
  | .ldN8 _ _ b _ => limit (b.val % 2 = 0) .oddPair none
  | .ldI8 _ _ b _ => limit (b.val % 2 = 0) .oddPair none
  | .ldN16 _ _ b _ => limit (b.val % 2 = 0) .oddPair none
  | .ldB32 _ _ b _ => limit (b.val % 2 = 0) .oddPair none
  | .ldB64 d _ b _ => limit (b.val % 2 = 0) .oddPair (limit (d.val % 2 = 0) .oddPair none)
  | .ldRoB32 _ _ b _ => limit (b.val % 2 = 0) .oddPair none
  | .ldRoB64 d _ b _ => limit (b.val % 2 = 0) .oddPair (limit (d.val % 2 = 0) .oddPair none)
  | .stB8 _ _ b => limit (b.val % 2 = 0) .oddPair none
  | .stB16 _ _ b => limit (b.val % 2 = 0) .oddPair none
  | .stB32 _ _ b => limit (b.val % 2 = 0) .oddPair none
  | .stB64 s _ b => limit (b.val % 2 = 0) .oddPair (limit (s.val % 2 = 0) .oddPair none)
  | .stNtB32 _ _ b => limit (b.val % 2 = 0) .oddPair none
  | .stNtB64 s _ b => limit (b.val % 2 = 0) .oddPair (limit (s.val % 2 = 0) .oddPair none)
  | .tst _ _ b => limit (b.val % 2 = 0) .oddPair none
  | .retract p _ b _ => limit (b.val % 2 = 0) .oddPair (limit (p.val < 7) .predicateDestination none)
  | .ldsN8 _ _ _ _ => none
  | .ldsN16 _ _ _ _ => none
  | .ldsB32 _ _ _ _ => none
  | .ldsB64 d _ _ _ => limit (d.val % 2 = 0) .oddPair none
  | .stsB8 _ _ _ => none
  | .stsB16 _ _ _ => none
  | .stsB32 _ _ _ => none
  | .stsB64 s _ _ => limit (s.val % 2 = 0) .oddPair none
  | .atomAdd _ _ _ o l => limit (o.val % 2 = 0 ∨ l.val = 0) .lookaheadField none
  | .atomMin _ _ _ o l => limit (o.val % 2 = 0 ∨ l.val = 0) .lookaheadField none
  | .atomMax _ _ _ o l => limit (o.val % 2 = 0 ∨ l.val = 0) .lookaheadField none
  | .atomAnd _ _ _ o l => limit (o.val % 2 = 0 ∨ l.val = 0) .lookaheadField none
  | .atomOr _ _ _ o l => limit (o.val % 2 = 0 ∨ l.val = 0) .lookaheadField none
  | .atomXor _ _ _ o l => limit (o.val % 2 = 0 ∨ l.val = 0) .lookaheadField none
  | .atomXchg _ _ _ o l => limit (o.val % 2 = 0 ∨ l.val = 0) .lookaheadField none
  | .atomCas d _ _ o l => limit (o.val % 2 = 0 ∨ l.val = 0) .lookaheadField (limit (d.val % 2 = 0) .oddPair none)
  | .settle _ b => limit (b.val % 2 = 0) .oddPair none
  | .redF32 _ _ b => limit (b.val % 2 = 0) .oddPair none
  | .redBf16 _ _ b => limit (b.val % 2 = 0) .oddPair none
  | .redE4m3 _ _ b => limit (b.val % 2 = 0) .oddPair none
  | .redE5m2 _ _ b => limit (b.val % 2 = 0) .oddPair none
  | .combLd _ a _ _ => limit (a.val % 2 = 0) .oddPair none
  | .combSt _ a _ => limit (a.val % 2 = 0) .oddPair none
  | .epiSt f _ _ b => limit (b.val % 2 = 0) .oddPair (limit (f.val < 7) .fieldRange none)
  | .mma _ _ _ _ _ => none
  | .mmaZ _ _ _ _ _ => none
  | .accZero _ _ => none
  | .accMov _ _ _ => none
  | .accRd _ _ c => limit (c.val < 36) .fieldRange none
  | .accWr _ _ c => limit (c.val < 36) .fieldRange none
  | .gets d n => limit (specialRegister n.val) .absentRegister (limit (specialWide n.val = false ∨ d.val % 2 = 0) .oddPair none)
  | .qpush _ _ => none
  | .qpop _ _ _ => none
  | .gAddB32 _ _ _ => none
  | .gAddSatI32 _ _ _ => none
  | .gAddSatN32 _ _ _ => none
  | .gSubB32 _ _ _ => none
  | .gSubSatI32 _ _ _ => none
  | .gSubSatN32 _ _ _ => none
  | .gMulLoB32 _ _ _ => none
  | .gMulHiI32 _ _ _ => none
  | .gMulHiN32 _ _ _ => none
  | .gMadB32 _ _ _ => none
  | .gMinI32 _ _ _ => none
  | .gMinN32 _ _ _ => none
  | .gMaxI32 _ _ _ => none
  | .gMaxN32 _ _ _ => none
  | .gAddB64 d a b => limit (d.val % 2 = 0) .oddPair (limit (a.val % 2 = 0) .oddPair (limit (b.val % 2 = 0) .oddPair none))
  | .gSubB64 d a b => limit (d.val % 2 = 0) .oddPair (limit (a.val % 2 = 0) .oddPair (limit (b.val % 2 = 0) .oddPair none))
  | .gAddi _ _ _ => none
  | .gMuli _ _ _ => none
  | .gAndi _ _ _ => none
  | .gOri _ _ _ => none
  | .gXori _ _ _ => none
  | .gShli _ _ i => limit (i.toNat < 32) .fieldRange none
  | .gShri _ _ i => limit (i.toNat < 32) .fieldRange none
  | .gSari _ _ i => limit (i.toNat < 32) .fieldRange none
  | .gAndB32 _ _ _ => none
  | .gOrB32 _ _ _ => none
  | .gXorB32 _ _ _ => none
  | .gAndnB32 _ _ _ => none
  | .gShlB32 _ _ _ => none
  | .gShrN32 _ _ _ => none
  | .gSarI32 _ _ _ => none
  | .gRotB32 _ _ _ => none
  | .gPopcB32 _ _ => none
  | .gClzB32 _ _ => none
  | .gCtzB32 _ _ => none
  | .gBrevB32 _ _ => none
  | .gBfeN32 _ _ _ => none
  | .gBfeI32 _ _ _ => none
  | .gBfiB32 _ _ _ => none
  | .gMovB32 _ _ => none
  | .gMovB64 d a => limit (d.val % 2 = 0) .oddPair (limit (a.val % 2 = 0) .oddPair none)
  | .lcLo _ _ => none
  | .lcHi _ _ => none
  | .gCmpEqB32 _ _ _ => none
  | .gCmpEqF32 _ _ _ => none
  | .gCmpNeB32 _ _ _ => none
  | .gCmpNeF32 _ _ _ => none
  | .gCmpLtI32 _ _ _ => none
  | .gCmpLtN32 _ _ _ => none
  | .gCmpLtF32 _ _ _ => none
  | .gCmpLeI32 _ _ _ => none
  | .gCmpLeN32 _ _ _ => none
  | .gCmpLeF32 _ _ _ => none
  | .gFaddF32 _ _ _ _ => none
  | .gFsubF32 _ _ _ _ => none
  | .gFmulF32 _ _ _ _ => none
  | .gFfmaF32 _ _ _ _ => none
  | .br _ => none
  | .call _ => none
  | .jmp a => limit (a.val % 2 = 0) .oddPair none
  | .ret a => limit (a.val % 2 = 0) .oddPair none
  | .guard _ n => limit (n.val < 8) .fieldRange none
  | .guardN _ n => limit (n.val < 8) .fieldRange none
  | .exit => none
  | .yield => none
  | .join k => limit (k.val < 12) .maskField none
  | .leave k => limit (k.val < 12) .maskField none
  | .wait k => limit (k.val < 12) .maskField none
  | .barG => none
  | .barC => none
  | .kmov a d => limit (a.val < 12) .maskField (limit (d.val < 12) .maskField none)
  | .trap _ => none
  | .rett => none
  | .nop => none
  | .sleep _ => none
  | .gGets d n => limit (specialRegister n.val) .absentRegister (limit (specialWide n.val = false ∨ d.val % 2 = 0) .oddPair none)
  | .sets s n x => limit (specialRegister n.val) .absentRegister (limit (specialWide n.val = false ∨ s.val % 2 = 0) .oddPair (limit (x.val = 0 ∨ specialPerLane n.val = true) .fieldRange none))
  | .acquire => none
  | .acquireExplicit a => limit (a.val % 2 = 0) .oddPair none
  | .spawn r _ => limit (r.val % 2 = 0) .oddPair none
  | .joindec r => limit (r.val % 2 = 0) .oddPair none
  | .cancel d => limit (d.val % 2 = 0) .oddPair none
  | .submit _ p => limit (p.val % 2 = 0) .oddPair none
  | .qbind p _ => limit (p.val < 3) .fieldRange none
  | .fenceAcq => none
  | .fenceRel => none
  | .fenceFull => none
  | .drainNt => none
  | .wbRange a _ => limit (a.val % 2 = 0) .oddPair none
  | .invRange a _ => limit (a.val % 2 = 0) .oddPair none
  | .ldgB32 _ a _ => limit (a.val % 2 = 0) .oddPair none
  | .ldgB64 d a _ => limit (d.val % 2 = 0) .oddPair (limit (a.val % 2 = 0) .oddPair none)
  | .stgB32 _ a _ => limit (a.val % 2 = 0) .oddPair none
  | .stgB64 d a _ => limit (d.val % 2 = 0) .oddPair (limit (a.val % 2 = 0) .oddPair none)
  | .cpSc a b => limit (a.val % 2 = 0) .oddPair (limit (b.val % 2 = 0) .oddPair none)
  | .waitAny a => limit (a.val % 2 = 0) .oddPair none
  | .waitAll a => limit (a.val % 2 = 0) .oddPair none
  | .ffrTag _ a => limit (a.val % 2 = 0) .oddPair none
  | .ffrTagHeld _ a => limit (a.val % 2 = 0) .oddPair none
  | .prefetch a => limit (a.val % 2 = 0) .oddPair none
  | .prefetchL2 a => limit (a.val % 2 = 0) .oddPair none
  | .ldsgB32 _ _ _ => none
  | .stsgB32 _ _ _ => none
  | .rdlane _ _ _ _ => none
  | .cpy d s _ => limit (d.val % 2 = 0) .oddPair (limit (s.val % 2 = 0) .oddPair none)
  | .relayout d s t => limit (d.val % 2 = 0) .oddPair (limit (s.val % 2 = 0) .oddPair (limit (t.val % 2 = 0) .oddPair none))
  | .pub b => limit (b.val % 2 = 0) .oddPair none
  | .pubOpen b _ => limit (b.val % 2 = 0) .oddPair none
  | .pubDrop b => limit (b.val % 2 = 0) .oddPair none
  | .pubClose b => limit (b.val % 2 = 0) .oddPair none
  | .wrlane _ _ _ => none
  | .votec _ _ _ => none
  | .ckChk m _ a => limit (m.val < 3) .fieldRange (limit (a.val < 4) .checksumField none)
  | .obres a _ => limit (a.val % 2 = 0) .oddPair none
  | .obfill _ _ _ => none
  | .obfillX _ _ _ => none
  | .cmergeSoft r o _ _ => limit (r.val < 12) .fieldRange (limit (o.val = 1 ∨ r.val = 0) .fieldRange none)
  | .cmergeSum r o _ _ => limit (r.val < 12) .fieldRange (limit (o.val = 1 ∨ r.val = 0) .fieldRange none)
  | .cmergeIsum r o _ _ => limit (r.val < 12) .fieldRange (limit (o.val = 1 ∨ r.val = 0) .fieldRange none)
  | .attnQk _ _ _ _ _ => none
  | .attnPv _ _ _ _ _ => none
  | .combSum _ _ _ _ _ => none
  | .topk _ _ _ _ => none
  | .topkC _ _ _ _ => none
  | .gatherComb h _ _ => limit (h.val % 2 = 0) .oddPair none
  | .obrel _ => none
  | .fabStr _ _ => none
  | .fabA2a _ _ => none
  | .fabRing _ _ => none
  | .qstat _ _ => none
  | .tlbinv _ s => limit (s.val < 3) .fieldRange none
  | .atomgAdd _ a _ => limit (a.val % 2 = 0) .oddPair none
  | .atomgCas d a _ => limit (d.val % 2 = 0) .oddPair (limit (a.val % 2 = 0) .oddPair none)
  | .cmpiEq _ _ _ => none
  | .cmpiLt _ _ _ => none
  | .selz _ _ _ => none
  | .popk _ k => limit (k.val < 12) .maskField none
  | .settleAll => none
  | .migrate _ _ _ => none
  | .icinv => none
  | .combInv _ s => limit (s.val < 3) .fieldRange none
  | .bkpt => none
  | .halt => none
  | .longLatencyCompletion _ => some .noEncoding
  | .handlerEntry => some .noEncoding
  | .groupEnd => some .noEncoding
  | .groupAdmission _ => some .noEncoding
  | .distributorRefill _ => some .noEncoding
  | .stealRequest _ => some .noEncoding
  | .stealAnswer _ => some .noEncoding
  | .queueBalancing _ => some .noEncoding
  | .acquireGrant _ => some .noEncoding
  | .acquireDeadlockSave _ => some .noEncoding
  | .latencyTakeBack _ => some .noEncoding
  | .drainTimeout _ => some .noEncoding
  | .groupSave _ => some .noEncoding
  | .groupRestore _ _ => some .noEncoding
  | .budgetExhausted _ _ => some .noEncoding
  | .deadlineExpiry _ _ => some .noEncoding
  | .floorLost _ => some .noEncoding
  | .floorRegained _ => some .noEncoding
  | .midgeStart _ => some .noEncoding
  | .midgeEnd _ => some .noEncoding
  | .sleepExpiry => some .noEncoding
  | .haltResume _ => some .noEncoding
  | .haltedGroupCancel _ => some .noEncoding
  | .copyCompletion _ => some .noEncoding
  | .epilogueRowStore _ => some .noEncoding
  | .gatherCommand _ => some .noEncoding
  | .fabricCommandCompletion _ _ => some .noEncoding
  | .missFillArrival _ _ => some .noEncoding
  | .ownershipRevocation _ _ => some .noEncoding
  | .l2Replacement _ => some .noEncoding
  | .guestFill _ _ => some .noEncoding
  | .directoryFanOut _ _ _ => some .noEncoding
  | .invalidation _ _ => some .noEncoding
  | .invalidationAnswer _ _ _ => some .noEncoding
  | .invtoExpiry _ _ => some .noEncoding
  | .rejoin _ => some .noEncoding
  | .sourceProbe _ => some .noEncoding
  | .baseDieMaterialise _ => some .noEncoding
  | .faultSlotFreed _ => some .noEncoding
  | .engineWalkRetry _ => some .noEncoding
  | .leaseRequest _ _ => some .noEncoding
  | .leaseAnswer _ _ _ _ _ _ => some .noEncoding
  | .recall _ _ => some .noEncoding
  | .recallAcknowledgement _ _ => some .noEncoding
  | .leaseRelease _ _ => some .noEncoding
  | .migrationCopyDone _ _ => some .noEncoding
  | .gollysRead _ _ _ _ => some .noEncoding
  | .gollysWrite _ _ _ _ => some .noEncoding
  | .gollysAtomic _ _ _ _ _ _ => some .noEncoding
  | .gollysResponse _ _ _ _ => some .noEncoding
  | .fabricData _ _ _ _ _ => some .noEncoding
  | .fabricAcknowledgement _ _ => some .noEncoding
  | .gollysAuditMarker _ => some .noEncoding
  | .gollysAuditEcho _ _ => some .noEncoding
  | .idle _ _ _ _ => some .noEncoding
  | .idleSend _ => some .noEncoding
  | .bridgeMessage _ _ => some .noEncoding
  | .crcFailureReplay _ => some .noEncoding
  | .linkDown _ => some .noEncoding
  | .glowwormAudit _ => some .noEncoding
  | .liveRecalibration _ => some .noEncoding
  | .recalibrationTimeout _ => some .noEncoding
  | .isaisRead _ _ _ => some .noEncoding
  | .maskedWrite _ _ _ _ _ _ => some .noEncoding
  | .compareWrite _ _ _ _ => some .noEncoding
  | .poisonReport _ _ _ => some .noEncoding
  | .scrubReport _ _ _ _ => some .noEncoding
  | .calibration _ _ => some .noEncoding
  | .script _ _ _ _ => some .noEncoding
  | .capabilityRead _ _ => some .noEncoding
  | .isaisReply _ _ _ => some .noEncoding
  | .isaisAuditMarker _ => some .noEncoding
  | .isaisAuditEcho _ _ => some .noEncoding
  | .isaisRequestTimeout _ _ => some .noEncoding
  | .weevilBurst _ _ _ => some .noEncoding
  | .uncorrectableStateError _ _ _ => some .noEncoding
  | .deviceFault _ _ => some .noEncoding
  | .freezeL => some .noEncoding
  | .deviceReset _ => some .noEncoding
  | .bootRetry _ => some .noEncoding
  | .devcmdReset _ => some .noEncoding
  | .devcmdFreeze => some .noEncoding
  | .hostsub _ => some .noEncoding
  | .hostSubmitRetry => some .noEncoding
  | .hoststatRejoin => some .noEncoding
  | .hostAccess _ _ _ => some .noEncoding
  | .ctxctlCreate _ => some .noEncoding
  | .ctxctlTearDown _ => some .noEncoding
  | .contextTeardownDone _ => some .noEncoding
  | .cohcfgWrite _ _ => some .noEncoding
  | .attestationNonce _ => some .noEncoding
  | .attestationReportReady => some .noEncoding
  | .registerWrite _ _ _ => some .noEncoding
  | .firmwareUpdate _ => some .noEncoding
  | .spareCoreSwap _ _ => some .noEncoding
  | .rowSparing _ => some .noEncoding
  | .configurationRecord _ => some .noEncoding
  | .linkUp _ => some .noEncoding
  | .laneFailure _ => some .noEncoding
  | .takeBackRequest _ => some .noEncoding
  | .cxlCacheResponse _ _ _ => some .noEncoding

/-- A term is an instruction when it breaks no limit. -/
def Instr.wellFormed (i : Instr) : Bool := i.check.isNone

end Sys2Proof
end

