-- ==== Sys2Proof/Decode.lean ====
section
/-! DEFINITION. The decoder, written from the opcode maps of R63 and R64, the formats of R52 and the fields of each
instruction's entry; total on any bytes, rejecting by name (R66). After it the encoder, from the same tables. -/

namespace Sys2Proof

/-- The field of n values of a word whose lowest bit is lo. -/
def field (n : Nat) [NeZero n] (w lo : Nat) : Fin n := Fin.ofNat n (w / 2 ^ lo)

/-- The n bits of a word from bit lo. -/
def immField (n w lo : Nat) : BitVec n := BitVec.ofNat n (w / 2 ^ lo)

/-- Lane-set words of the lower majors (R63): bits 31:23 select, and a sub field where the major has one. -/
def laneLow (w : Nat) : Except Reject Instr :=
  match w / 8388608 with
  | 128 => 
    match w % 4 with
    | 0 => .ok (.addB32 (field 128 w 16) (field 128 w 9) (field 128 w 2))
    | 1 => .ok (.addSatI32 (field 128 w 16) (field 128 w 9) (field 128 w 2))
    | 2 => .ok (.addSatN32 (field 128 w 16) (field 128 w 9) (field 128 w 2))
    | _ => .error .reservedSub
  | 129 => 
    match w % 4 with
    | 0 => .ok (.subB32 (field 128 w 16) (field 128 w 9) (field 128 w 2))
    | 1 => .ok (.subSatI32 (field 128 w 16) (field 128 w 9) (field 128 w 2))
    | 2 => .ok (.subSatN32 (field 128 w 16) (field 128 w 9) (field 128 w 2))
    | _ => .error .reservedSub
  | 130 => 
    match w % 4 with
    | 0 => .ok (.mulLoB32 (field 128 w 16) (field 128 w 9) (field 128 w 2))
    | 1 => .ok (.mulHiI32 (field 128 w 16) (field 128 w 9) (field 128 w 2))
    | 2 => .ok (.mulHiN32 (field 128 w 16) (field 128 w 9) (field 128 w 2))
    | _ => .error .reservedSub
  | 131 => .ok (.madB32 (field 128 w 16) (field 128 w 9) (field 128 w 2))
  | 132 => 
    match w % 4 with
    | 0 => .ok (.minI32 (field 128 w 16) (field 128 w 9) (field 128 w 2))
    | 1 => .ok (.minN32 (field 128 w 16) (field 128 w 9) (field 128 w 2))
    | _ => .error .reservedSub
  | 133 => 
    match w % 4 with
    | 0 => .ok (.maxI32 (field 128 w 16) (field 128 w 9) (field 128 w 2))
    | 1 => .ok (.maxN32 (field 128 w 16) (field 128 w 9) (field 128 w 2))
    | _ => .error .reservedSub
  | 134 => 
    match w % 4 with
    | 0 => .ok (.addB64 (field 128 w 16) (field 128 w 9) (field 128 w 2))
    | 1 => .ok (.subB64 (field 128 w 16) (field 128 w 9) (field 128 w 2))
    | _ => .error .reservedSub
  | 136 => .ok (.addi (field 128 w 16) (field 128 w 9) (immField 9 w 0))
  | 137 => .ok (.muli (field 128 w 16) (field 128 w 9) (immField 9 w 0))
  | 138 => .ok (.andi (field 128 w 16) (field 128 w 9) (immField 9 w 0))
  | 139 => .ok (.ori (field 128 w 16) (field 128 w 9) (immField 9 w 0))
  | 140 => .ok (.xori (field 128 w 16) (field 128 w 9) (immField 9 w 0))
  | 141 => .ok (.shli (field 128 w 16) (field 128 w 9) (immField 9 w 0))
  | 142 => .ok (.shri (field 128 w 16) (field 128 w 9) (immField 9 w 0))
  | 143 => .ok (.sari (field 128 w 16) (field 128 w 9) (immField 9 w 0))
  | 144 => 
    match w % 4 with
    | 0 => .ok (.andB32 (field 128 w 16) (field 128 w 9) (field 128 w 2))
    | 1 => .ok (.orB32 (field 128 w 16) (field 128 w 9) (field 128 w 2))
    | 2 => .ok (.xorB32 (field 128 w 16) (field 128 w 9) (field 128 w 2))
    | 3 => .ok (.andnB32 (field 128 w 16) (field 128 w 9) (field 128 w 2))
    | _ => .error .reservedSub
  | 145 => 
    match w % 4 with
    | 0 => .ok (.shlB32 (field 128 w 16) (field 128 w 9) (field 128 w 2))
    | 1 => .ok (.shrN32 (field 128 w 16) (field 128 w 9) (field 128 w 2))
    | 2 => .ok (.sarI32 (field 128 w 16) (field 128 w 9) (field 128 w 2))
    | 3 => .ok (.rotB32 (field 128 w 16) (field 128 w 9) (field 128 w 2))
    | _ => .error .reservedSub
  | 146 => 
    match w % 512 with
    | 0 => .ok (.popcB32 (field 128 w 16) (field 128 w 9))
    | 1 => .ok (.clzB32 (field 128 w 16) (field 128 w 9))
    | 2 => .ok (.ctzB32 (field 128 w 16) (field 128 w 9))
    | 3 => .ok (.brevB32 (field 128 w 16) (field 128 w 9))
    | _ => .error .reservedSub
  | 147 => 
    match w % 4 with
    | 0 => .ok (.bfeN32 (field 128 w 16) (field 128 w 9) (field 128 w 2))
    | 1 => .ok (.bfeI32 (field 128 w 16) (field 128 w 9) (field 128 w 2))
    | _ => .error .reservedSub
  | 148 => .ok (.bfiB32 (field 128 w 16) (field 128 w 9) (field 128 w 2))
  | 149 => 
    match w % 4 with
    | 0 => .ok (.permB8 (field 128 w 16) (field 128 w 9) (field 128 w 2))
    | 1 => .ok (.lutN4 (field 128 w 16) (field 128 w 9) (field 128 w 2))
    | _ => .error .reservedSub
  | 150 => 
    match w % 512 with
    | 0 => .ok (.movB32 (field 128 w 16) (field 128 w 9))
    | 1 => .ok (.movB64 (field 128 w 16) (field 128 w 9))
    | _ => .error .reservedSub
  | 151 => .ok (.movs (field 128 w 16) (field 128 w 9))
  | 152 => 
    match w % 4 with
    | 0 => .ok (.cmpEqB32 (field 128 w 16) (field 128 w 9) (field 128 w 2))
    | 1 => .ok (.cmpEqF32 (field 128 w 16) (field 128 w 9) (field 128 w 2))
    | _ => .error .reservedSub
  | 153 => 
    match w % 4 with
    | 0 => .ok (.cmpNeB32 (field 128 w 16) (field 128 w 9) (field 128 w 2))
    | 1 => .ok (.cmpNeF32 (field 128 w 16) (field 128 w 9) (field 128 w 2))
    | _ => .error .reservedSub
  | 154 => 
    match w % 4 with
    | 0 => .ok (.cmpLtI32 (field 128 w 16) (field 128 w 9) (field 128 w 2))
    | 1 => .ok (.cmpLtN32 (field 128 w 16) (field 128 w 9) (field 128 w 2))
    | 2 => .ok (.cmpLtF32 (field 128 w 16) (field 128 w 9) (field 128 w 2))
    | _ => .error .reservedSub
  | 155 => 
    match w % 4 with
    | 0 => .ok (.cmpLeI32 (field 128 w 16) (field 128 w 9) (field 128 w 2))
    | 1 => .ok (.cmpLeN32 (field 128 w 16) (field 128 w 9) (field 128 w 2))
    | 2 => .ok (.cmpLeF32 (field 128 w 16) (field 128 w 9) (field 128 w 2))
    | _ => .error .reservedSub
  | 156 => .ok (.sel (field 128 w 16) (field 128 w 9) (field 128 w 2) (field 4 w 0))
  | 160 => 
    match w % 4 with
    | 0 => .ok (.xlaneFrom (field 128 w 16) (field 128 w 9) (field 128 w 2))
    | 1 => .ok (.xlaneBack (field 128 w 16) (field 128 w 9) (field 128 w 2))
    | 2 => .ok (.xlaneFwd (field 128 w 16) (field 128 w 9) (field 128 w 2))
    | 3 => .ok (.xlaneSwap (field 128 w 16) (field 128 w 9) (field 128 w 2))
    | _ => .error .reservedSub
  | 161 => 
    match w % 4 with
    | 0 => .ok (.lshB32 (field 128 w 16) (field 128 w 9) (field 128 w 2))
    | 1 => .ok (.lshB8 (field 128 w 16) (field 128 w 9) (field 128 w 2))
    | _ => .error .reservedSub
  | 162 => .ok (.bcast (field 128 w 16) (field 128 w 9) (field 128 w 2))
  | 163 => 
    match w % 512 with
    | 0 => .ok (.wtestEvery (field 128 w 16) (field 128 w 9))
    | 1 => .ok (.wtestSome (field 128 w 16) (field 128 w 9))
    | 2 => .ok (.wtestAgree (field 128 w 16) (field 128 w 9))
    | _ => .error .reservedSub
  | 164 => .ok (.ballot (field 128 w 16) (field 128 w 9))
  | 168 => .ok (.faddF32 (field 128 w 16) (field 128 w 9) (field 128 w 2) (field 4 w 0))
  | 169 => .ok (.fsubF32 (field 128 w 16) (field 128 w 9) (field 128 w 2) (field 4 w 0))
  | 170 => .ok (.fmulF32 (field 128 w 16) (field 128 w 9) (field 128 w 2) (field 4 w 0))
  | 171 => .ok (.ffmaF32 (field 128 w 16) (field 128 w 9) (field 128 w 2) (field 4 w 0))
  | 172 => 
    match w % 4 with
    | 0 => .ok (.fminF32 (field 128 w 16) (field 128 w 9) (field 128 w 2))
    | 1 => .ok (.fminNumF32 (field 128 w 16) (field 128 w 9) (field 128 w 2))
    | _ => .error .reservedSub
  | 173 => 
    match w % 4 with
    | 0 => .ok (.fmaxF32 (field 128 w 16) (field 128 w 9) (field 128 w 2))
    | 1 => .ok (.fmaxNumF32 (field 128 w 16) (field 128 w 9) (field 128 w 2))
    | _ => .error .reservedSub
  | 174 => 
    match w % 4 with
    | 0 => .ok (.fabsF32 (field 128 w 16) (field 128 w 9))
    | 1 => .ok (.fnegF32 (field 128 w 16) (field 128 w 9))
    | 2 => .ok (.fcopysignF32 (field 128 w 16) (field 128 w 9) (field 128 w 2))
    | _ => .error .reservedSub
  | 176 => .ok (.frcpF32 (field 128 w 16) (field 128 w 9) (field 16 w 0))
  | 177 => .ok (.frsqF32 (field 128 w 16) (field 128 w 9) (field 16 w 0))
  | 178 => .ok (.fsqrtF32 (field 128 w 16) (field 128 w 9) (field 4 w 4) (field 16 w 0))
  | 179 => .ok (.fexp2F32 (field 128 w 16) (field 128 w 9) (field 16 w 0))
  | 180 => .ok (.flog2F32 (field 128 w 16) (field 128 w 9) (field 16 w 0))
  | 181 => 
    match w / 16 % 32 with
    | 0 => .ok (.fsinF32 (field 128 w 16) (field 128 w 9) (field 16 w 0))
    | 1 => .ok (.fcosF32 (field 128 w 16) (field 128 w 9) (field 16 w 0))
    | _ => .error .reservedSub
  | 182 => .ok (.cvtf (field 128 w 16) (field 128 w 9) (field 8 w 6) (field 8 w 3) (field 4 w 0))
  | 183 => .ok (.cvti (field 128 w 16) (field 128 w 9) (field 8 w 6) (field 8 w 3) (field 4 w 0))
  | _ => .error .reservedMajor

/-- Lane-set words of the upper majors (R63). -/
def laneHigh (w : Nat) : Except Reject Instr :=
  match w / 8388608 with
  | 184 => 
    match w % 512 with
    | 0 => .ok (.sbpackSb3 (field 128 w 16) (field 128 w 9))
    | 1 => .ok (.sbpackSb5 (field 128 w 16) (field 128 w 9))
    | 2 => .ok (.sbpackSb8 (field 128 w 16) (field 128 w 9))
    | _ => .error .reservedSub
  | 185 => 
    match w % 512 with
    | 0 => .ok (.sbunpSb3 (field 128 w 16) (field 128 w 9))
    | 1 => .ok (.sbunpSb5 (field 128 w 16) (field 128 w 9))
    | 2 => .ok (.sbunpSb8 (field 128 w 16) (field 128 w 9))
    | _ => .error .reservedSub
  | 186 => 
    match w % 512 with
    | 0 => .ok (.ckAccB32 (field 128 w 16) (field 128 w 9))
    | 1 => .ok (.ckAccB64 (field 128 w 16) (field 128 w 9))
    | _ => .error .reservedSub
  | 192 => .ok (.ldN8 (field 128 w 16) (field 128 w 9) (field 32 w 4) (field 16 w 0))
  | 193 => .ok (.ldI8 (field 128 w 16) (field 128 w 9) (field 32 w 4) (field 16 w 0))
  | 194 => .ok (.ldN16 (field 128 w 16) (field 128 w 9) (field 32 w 4) (field 16 w 0))
  | 195 => .ok (.ldB32 (field 128 w 16) (field 128 w 9) (field 32 w 4) (field 16 w 0))
  | 196 => .ok (.ldB64 (field 128 w 16) (field 128 w 9) (field 32 w 4) (field 16 w 0))
  | 197 => .ok (.ldRoB32 (field 128 w 16) (field 128 w 9) (field 32 w 4) (field 16 w 0))
  | 198 => .ok (.ldRoB64 (field 128 w 16) (field 128 w 9) (field 32 w 4) (field 16 w 0))
  | 200 => .ok (.stB8 (field 128 w 16) (field 128 w 9) (field 32 w 4))
  | 201 => .ok (.stB16 (field 128 w 16) (field 128 w 9) (field 32 w 4))
  | 202 => .ok (.stB32 (field 128 w 16) (field 128 w 9) (field 32 w 4))
  | 203 => .ok (.stB64 (field 128 w 16) (field 128 w 9) (field 32 w 4))
  | 204 => .ok (.stNtB32 (field 128 w 16) (field 128 w 9) (field 32 w 4))
  | 205 => .ok (.stNtB64 (field 128 w 16) (field 128 w 9) (field 32 w 4))
  | 206 => .ok (.tst (field 128 w 16) (field 128 w 9) (field 32 w 4))
  | 207 => .ok (.retract (field 128 w 16) (field 128 w 9) (field 32 w 4) (field 16 w 0))
  | 208 => .ok (.ldsN8 (field 128 w 16) (field 128 w 9) (field 32 w 4) (field 16 w 0))
  | 209 => .ok (.ldsN16 (field 128 w 16) (field 128 w 9) (field 32 w 4) (field 16 w 0))
  | 210 => .ok (.ldsB32 (field 128 w 16) (field 128 w 9) (field 32 w 4) (field 16 w 0))
  | 211 => .ok (.ldsB64 (field 128 w 16) (field 128 w 9) (field 32 w 4) (field 16 w 0))
  | 212 => .ok (.stsB8 (field 128 w 16) (field 128 w 9) (field 32 w 4))
  | 213 => .ok (.stsB16 (field 128 w 16) (field 128 w 9) (field 32 w 4))
  | 214 => .ok (.stsB32 (field 128 w 16) (field 128 w 9) (field 32 w 4))
  | 215 => .ok (.stsB64 (field 128 w 16) (field 128 w 9) (field 32 w 4))
  | 216 => .ok (.atomAdd (field 128 w 16) (field 128 w 9) (field 8 w 6) (field 4 w 4) (field 16 w 0))
  | 217 => .ok (.atomMin (field 128 w 16) (field 128 w 9) (field 8 w 6) (field 4 w 4) (field 16 w 0))
  | 218 => .ok (.atomMax (field 128 w 16) (field 128 w 9) (field 8 w 6) (field 4 w 4) (field 16 w 0))
  | 219 => .ok (.atomAnd (field 128 w 16) (field 128 w 9) (field 8 w 6) (field 4 w 4) (field 16 w 0))
  | 220 => .ok (.atomOr (field 128 w 16) (field 128 w 9) (field 8 w 6) (field 4 w 4) (field 16 w 0))
  | 221 => .ok (.atomXor (field 128 w 16) (field 128 w 9) (field 8 w 6) (field 4 w 4) (field 16 w 0))
  | 222 => .ok (.atomXchg (field 128 w 16) (field 128 w 9) (field 8 w 6) (field 4 w 4) (field 16 w 0))
  | 223 => .ok (.atomCas (field 128 w 16) (field 128 w 9) (field 8 w 6) (field 4 w 4) (field 16 w 0))
  | 224 => .ok (.settle (field 128 w 9) (field 32 w 4))
  | 225 => .ok (.redF32 (field 128 w 16) (field 128 w 9) (field 32 w 4))
  | 226 => .ok (.redBf16 (field 128 w 16) (field 128 w 9) (field 32 w 4))
  | 227 => .ok (.redE4m3 (field 128 w 16) (field 128 w 9) (field 32 w 4))
  | 228 => .ok (.redE5m2 (field 128 w 16) (field 128 w 9) (field 32 w 4))
  | 229 => .ok (.combLd (field 128 w 16) (field 128 w 9) (field 32 w 4) (field 16 w 0))
  | 230 => .ok (.combSt (field 128 w 16) (field 128 w 9) (field 32 w 4))
  | 231 => .ok (.epiSt (field 8 w 20) (field 16 w 16) (field 128 w 9) (field 32 w 4))
  | 232 => .ok (.mma (field 16 w 19) (field 8 w 16) (field 8 w 13) (field 256 w 4) (field 16 w 0))
  | 233 => .ok (.mmaZ (field 16 w 19) (field 8 w 16) (field 8 w 13) (field 256 w 4) (field 16 w 0))
  | 234 => 
    match w % 4 with
    | 0 => .ok (.accZero (field 16 w 16) (field 2 w 2))
    | 1 => .ok (.accMov (field 16 w 16) (field 16 w 9) (field 2 w 2))
    | 2 => .ok (.accRd (field 128 w 16) (field 16 w 9) (field 128 w 2))
    | 3 => .ok (.accWr (field 16 w 16) (field 128 w 9) (field 128 w 2))
    | _ => .error .reservedSub
  | 235 => .ok (.gets (field 128 w 16) (field 512 w 0))
  | 236 => .ok (.qpush (field 128 w 16) (field 16 w 4))
  | 237 => .ok (.qpop (field 128 w 16) (field 16 w 4) (field 16 w 0))
  | _ => .error .reservedMajor

/-- Group-set words of the lower majors (R64). -/
def groupLow (w : Nat) : Except Reject Instr :=
  match w / 8388608 with
  | 384 => 
    match w % 4 with
    | 0 => .ok (.gAddB32 (field 128 w 16) (field 128 w 9) (field 128 w 2))
    | 1 => .ok (.gAddSatI32 (field 128 w 16) (field 128 w 9) (field 128 w 2))
    | 2 => .ok (.gAddSatN32 (field 128 w 16) (field 128 w 9) (field 128 w 2))
    | _ => .error .reservedSub
  | 385 => 
    match w % 4 with
    | 0 => .ok (.gSubB32 (field 128 w 16) (field 128 w 9) (field 128 w 2))
    | 1 => .ok (.gSubSatI32 (field 128 w 16) (field 128 w 9) (field 128 w 2))
    | 2 => .ok (.gSubSatN32 (field 128 w 16) (field 128 w 9) (field 128 w 2))
    | _ => .error .reservedSub
  | 386 => 
    match w % 4 with
    | 0 => .ok (.gMulLoB32 (field 128 w 16) (field 128 w 9) (field 128 w 2))
    | 1 => .ok (.gMulHiI32 (field 128 w 16) (field 128 w 9) (field 128 w 2))
    | 2 => .ok (.gMulHiN32 (field 128 w 16) (field 128 w 9) (field 128 w 2))
    | _ => .error .reservedSub
  | 387 => .ok (.gMadB32 (field 128 w 16) (field 128 w 9) (field 128 w 2))
  | 388 => 
    match w % 4 with
    | 0 => .ok (.gMinI32 (field 128 w 16) (field 128 w 9) (field 128 w 2))
    | 1 => .ok (.gMinN32 (field 128 w 16) (field 128 w 9) (field 128 w 2))
    | _ => .error .reservedSub
  | 389 => 
    match w % 4 with
    | 0 => .ok (.gMaxI32 (field 128 w 16) (field 128 w 9) (field 128 w 2))
    | 1 => .ok (.gMaxN32 (field 128 w 16) (field 128 w 9) (field 128 w 2))
    | _ => .error .reservedSub
  | 390 => 
    match w % 4 with
    | 0 => .ok (.gAddB64 (field 128 w 16) (field 128 w 9) (field 128 w 2))
    | 1 => .ok (.gSubB64 (field 128 w 16) (field 128 w 9) (field 128 w 2))
    | _ => .error .reservedSub
  | 392 => .ok (.gAddi (field 128 w 16) (field 128 w 9) (immField 9 w 0))
  | 393 => .ok (.gMuli (field 128 w 16) (field 128 w 9) (immField 9 w 0))
  | 394 => .ok (.gAndi (field 128 w 16) (field 128 w 9) (immField 9 w 0))
  | 395 => .ok (.gOri (field 128 w 16) (field 128 w 9) (immField 9 w 0))
  | 396 => .ok (.gXori (field 128 w 16) (field 128 w 9) (immField 9 w 0))
  | 397 => .ok (.gShli (field 128 w 16) (field 128 w 9) (immField 9 w 0))
  | 398 => .ok (.gShri (field 128 w 16) (field 128 w 9) (immField 9 w 0))
  | 399 => .ok (.gSari (field 128 w 16) (field 128 w 9) (immField 9 w 0))
  | 400 => 
    match w % 4 with
    | 0 => .ok (.gAndB32 (field 128 w 16) (field 128 w 9) (field 128 w 2))
    | 1 => .ok (.gOrB32 (field 128 w 16) (field 128 w 9) (field 128 w 2))
    | 2 => .ok (.gXorB32 (field 128 w 16) (field 128 w 9) (field 128 w 2))
    | 3 => .ok (.gAndnB32 (field 128 w 16) (field 128 w 9) (field 128 w 2))
    | _ => .error .reservedSub
  | 401 => 
    match w % 4 with
    | 0 => .ok (.gShlB32 (field 128 w 16) (field 128 w 9) (field 128 w 2))
    | 1 => .ok (.gShrN32 (field 128 w 16) (field 128 w 9) (field 128 w 2))
    | 2 => .ok (.gSarI32 (field 128 w 16) (field 128 w 9) (field 128 w 2))
    | 3 => .ok (.gRotB32 (field 128 w 16) (field 128 w 9) (field 128 w 2))
    | _ => .error .reservedSub
  | 402 => 
    match w % 512 with
    | 0 => .ok (.gPopcB32 (field 128 w 16) (field 128 w 9))
    | 1 => .ok (.gClzB32 (field 128 w 16) (field 128 w 9))
    | 2 => .ok (.gCtzB32 (field 128 w 16) (field 128 w 9))
    | 3 => .ok (.gBrevB32 (field 128 w 16) (field 128 w 9))
    | _ => .error .reservedSub
  | 403 => 
    match w % 4 with
    | 0 => .ok (.gBfeN32 (field 128 w 16) (field 128 w 9) (field 128 w 2))
    | 1 => .ok (.gBfeI32 (field 128 w 16) (field 128 w 9) (field 128 w 2))
    | _ => .error .reservedSub
  | 404 => .ok (.gBfiB32 (field 128 w 16) (field 128 w 9) (field 128 w 2))
  | 405 => 
    match w % 512 with
    | 0 => .ok (.gMovB32 (field 128 w 16) (field 128 w 9))
    | 1 => .ok (.gMovB64 (field 128 w 16) (field 128 w 9))
    | _ => .error .reservedSub
  | 406 => .ok (.lcLo (field 128 w 16) (immField 16 w 0))
  | 407 => .ok (.lcHi (field 128 w 16) (immField 16 w 0))
  | 408 => 
    match w % 4 with
    | 0 => .ok (.gCmpEqB32 (field 128 w 16) (field 128 w 9) (field 128 w 2))
    | 1 => .ok (.gCmpEqF32 (field 128 w 16) (field 128 w 9) (field 128 w 2))
    | _ => .error .reservedSub
  | 409 => 
    match w % 4 with
    | 0 => .ok (.gCmpNeB32 (field 128 w 16) (field 128 w 9) (field 128 w 2))
    | 1 => .ok (.gCmpNeF32 (field 128 w 16) (field 128 w 9) (field 128 w 2))
    | _ => .error .reservedSub
  | 410 => 
    match w % 4 with
    | 0 => .ok (.gCmpLtI32 (field 128 w 16) (field 128 w 9) (field 128 w 2))
    | 1 => .ok (.gCmpLtN32 (field 128 w 16) (field 128 w 9) (field 128 w 2))
    | 2 => .ok (.gCmpLtF32 (field 128 w 16) (field 128 w 9) (field 128 w 2))
    | _ => .error .reservedSub
  | 411 => 
    match w % 4 with
    | 0 => .ok (.gCmpLeI32 (field 128 w 16) (field 128 w 9) (field 128 w 2))
    | 1 => .ok (.gCmpLeN32 (field 128 w 16) (field 128 w 9) (field 128 w 2))
    | 2 => .ok (.gCmpLeF32 (field 128 w 16) (field 128 w 9) (field 128 w 2))
    | _ => .error .reservedSub
  | 412 => .ok (.gFaddF32 (field 128 w 16) (field 128 w 9) (field 128 w 2) (field 4 w 0))
  | 413 => .ok (.gFsubF32 (field 128 w 16) (field 128 w 9) (field 128 w 2) (field 4 w 0))
  | 414 => .ok (.gFmulF32 (field 128 w 16) (field 128 w 9) (field 128 w 2) (field 4 w 0))
  | 415 => .ok (.gFfmaF32 (field 128 w 16) (field 128 w 9) (field 128 w 2) (field 4 w 0))
  | 416 => .ok (.br (immField 23 w 0))
  | 417 => .ok (.call (immField 23 w 0))
  | 418 => .ok (.jmp (field 128 w 9))
  | 419 => .ok (.ret (field 128 w 16))
  | 420 => 
    match w / 2048 % 4096 with
    | 0 => .ok (.guard (field 8 w 8) (field 16 w 4))
    | 1 => .ok (.guardN (field 8 w 8) (field 16 w 4))
    | _ => .error .reservedSub
  | 421 => .ok .exit
  | 422 => .ok .yield
  | 423 => .ok (.join (field 16 w 4))
  | 424 => .ok (.leave (field 16 w 4))
  | 425 => .ok (.wait (field 16 w 4))
  | 426 => 
    match w % 8388608 with
    | 0 => .ok .barG
    | 256 => .ok .barC
    | _ => .error .reservedSub
  | 427 => .ok (.kmov (field 16 w 8) (field 16 w 4))
  | 428 => .ok (.trap (immField 8 w 8))
  | 429 => .ok .rett
  | 430 => .ok .nop
  | 431 => .ok (.sleep (field 128 w 16))
  | 432 => .ok (.gGets (field 128 w 16) (field 512 w 7))
  | 433 => .ok (.sets (field 128 w 16) (field 512 w 7) (field 2 w 6))
  | 434 => 
    match w % 65536 with
    | 0 => .ok .acquire
    | 256 => .ok (.acquireExplicit (field 128 w 16))
    | _ => .error .reservedSub
  | 435 => .ok (.spawn (field 128 w 16) (field 128 w 9))
  | 436 => .ok (.joindec (field 128 w 16))
  | _ => .error .reservedMajor

/-- Group-set words of the upper majors (R64). -/
noncomputable def groupHigh (w : Nat) : Except Reject Instr :=
  match w / 8388608 with
  | 437 => .ok (.cancel (field 128 w 16))
  | 438 => .ok (.submit (field 128 w 16) (field 128 w 9))
  | 439 => .ok (.qbind (field 16 w 8) (field 16 w 4))
  | 440 => 
    match w % 8388608 with
    | 0 => .ok .fenceAcq
    | 256 => .ok .fenceRel
    | 512 => .ok .fenceFull
    | _ => .error .reservedSub
  | 441 => .ok .drainNt
  | 442 => .ok (.wbRange (field 128 w 16) (field 128 w 9))
  | 443 => .ok (.invRange (field 128 w 16) (field 128 w 9))
  | 444 => .ok (.ldgB32 (field 128 w 16) (field 128 w 9) (immField 9 w 0))
  | 445 => .ok (.ldgB64 (field 128 w 16) (field 128 w 9) (immField 9 w 0))
  | 446 => .ok (.stgB32 (field 128 w 16) (field 128 w 9) (immField 9 w 0))
  | 447 => .ok (.stgB64 (field 128 w 16) (field 128 w 9) (immField 9 w 0))
  | 448 => .ok (.cpSc (field 128 w 16) (field 128 w 9))
  | 449 => .ok (.waitAny (field 128 w 16))
  | 450 => .ok (.waitAll (field 128 w 16))
  | 451 => 
    match w % 512 with
    | 0 => .ok (.ffrTag (field 128 w 16) (field 128 w 9))
    | 256 => .ok (.ffrTagHeld (field 128 w 16) (field 128 w 9))
    | _ => .error .reservedSub
  | 452 => 
    match w % 65536 with
    | 0 => .ok (.prefetch (field 128 w 16))
    | 256 => .ok (.prefetchL2 (field 128 w 16))
    | _ => .error .reservedSub
  | 453 => .ok (.ldsgB32 (field 128 w 16) (field 128 w 9) (immField 9 w 0))
  | 454 => .ok (.stsgB32 (field 128 w 16) (field 128 w 9) (immField 9 w 0))
  | 455 => .ok (.rdlane (field 128 w 16) (field 128 w 9) (field 32 w 4) (field 16 w 0))
  | 456 => .ok (.cpy (field 128 w 16) (field 128 w 9) (field 32 w 4))
  | 457 => .ok (.relayout (field 128 w 16) (field 128 w 9) (field 32 w 4))
  | 458 => 
    match w % 512 with
    | 0 => .ok (.pub (field 128 w 16))
    | 16 => .ok (.pubOpen (field 128 w 16) (field 128 w 9))
    | 32 => .ok (.pubDrop (field 128 w 16))
    | 48 => .ok (.pubClose (field 128 w 16))
    | _ => .error .reservedSub
  | 459 => .ok (.wrlane (field 128 w 16) (field 128 w 9) (field 32 w 4))
  | 460 => .ok (.votec (field 128 w 16) (field 8 w 8) (field 16 w 0))
  | 461 => .ok (.ckChk (field 4 w 10) (field 4 w 8) (field 16 w 4))
  | 462 => .ok (.obres (field 128 w 16) (field 8 w 4))
  | 463 => .ok (.obfill (field 128 w 16) (field 128 w 9) (field 8 w 4))
  | 464 => .ok (.obfillX (field 128 w 16) (field 128 w 9) (field 8 w 4))
  | 465 => 
    match w / 256 % 4 with
    | 0 => .ok (.cmergeSoft (field 16 w 11) (field 2 w 10) (field 16 w 4) (field 16 w 0))
    | 1 => .ok (.cmergeSum (field 16 w 11) (field 2 w 10) (field 16 w 4) (field 16 w 0))
    | 2 => .ok (.cmergeIsum (field 16 w 11) (field 2 w 10) (field 16 w 4) (field 16 w 0))
    | _ => .error .reservedSub
  | 466 => .ok (.attnQk (field 64 w 17) (field 16 w 13) (field 8 w 10) (field 32 w 4) (field 16 w 0))
  | 467 => .ok (.attnPv (field 64 w 17) (field 16 w 13) (field 16 w 9) (field 32 w 4) (field 16 w 0))
  | 468 => .ok (.combSum (field 64 w 17) (field 16 w 13) (field 8 w 10) (field 32 w 4) (field 16 w 0))
  | 469 => 
    match w / 256 % 8 with
    | 0 => .ok (.topk (field 128 w 16) (field 32 w 11) (field 16 w 4) (field 16 w 0))
    | 4 => .ok (.topkC (field 128 w 16) (field 32 w 11) (field 16 w 4) (field 16 w 0))
    | _ => .error .reservedSub
  | 470 => .ok (.gatherComb (field 64 w 17) (field 32 w 12) (field 16 w 8))
  | 471 => .ok (.obrel (immField 8 w 8))
  | 472 => .ok (.fabStr (field 64 w 17) (field 16 w 8))
  | 473 => .ok (.fabA2a (field 64 w 17) (field 16 w 8))
  | 474 => .ok (.fabRing (field 64 w 17) (field 16 w 8))
  | 475 => .ok (.qstat (field 128 w 16) (field 16 w 4))
  | 476 => .ok (.tlbinv (field 64 w 17) (field 4 w 8))
  | 477 => .ok (.atomgAdd (field 128 w 16) (field 128 w 9) (immField 9 w 0))
  | 478 => .ok (.atomgCas (field 128 w 16) (field 128 w 9) (immField 9 w 0))
  | 479 => .ok (.cmpiEq (field 128 w 16) (field 128 w 9) (immField 9 w 0))
  | 480 => .ok (.cmpiLt (field 128 w 16) (field 128 w 9) (immField 9 w 0))
  | 481 => .ok (.selz (field 128 w 16) (field 128 w 9) (field 128 w 2))
  | 482 => .ok (.popk (field 128 w 16) (field 16 w 4))
  | 483 => .ok .settleAll
  | 484 => .ok (.migrate (field 64 w 17) (field 64 w 11) (field 128 w 4))
  | 485 => .ok .icinv
  | 486 => .ok (.combInv (field 64 w 17) (field 4 w 8))
  | 487 => .ok .bkpt
  | 488 => .ok .halt
  | _ => .error .reservedMajor

/-- The instruction that the selecting fields of a word name, whatever its unused fields hold. -/
noncomputable def select (w : Nat) : Except Reject Instr :=
  if w / 8388608 < 184 then laneLow w
  else if w / 8388608 < 256 then laneHigh w
  else if w / 8388608 < 437 then groupLow w
  else groupHigh w

/-- The bits of an instruction: a 32-bit word by the formats of R52, or the parcel of a dictionary code (R48). -/
def encode : Instr → Nat
  | .dictionaryCode s i l => 0 + s.val * 32768 + i.val * 16 + l.val
  | .addB32 d a b => 1073741824 + d.val * 65536 + a.val * 512 + b.val * 4
  | .addSatI32 d a b => 1073741825 + d.val * 65536 + a.val * 512 + b.val * 4
  | .addSatN32 d a b => 1073741826 + d.val * 65536 + a.val * 512 + b.val * 4
  | .subB32 d a b => 1082130432 + d.val * 65536 + a.val * 512 + b.val * 4
  | .subSatI32 d a b => 1082130433 + d.val * 65536 + a.val * 512 + b.val * 4
  | .subSatN32 d a b => 1082130434 + d.val * 65536 + a.val * 512 + b.val * 4
  | .mulLoB32 d a b => 1090519040 + d.val * 65536 + a.val * 512 + b.val * 4
  | .mulHiI32 d a b => 1090519041 + d.val * 65536 + a.val * 512 + b.val * 4
  | .mulHiN32 d a b => 1090519042 + d.val * 65536 + a.val * 512 + b.val * 4
  | .madB32 d a b => 1098907648 + d.val * 65536 + a.val * 512 + b.val * 4
  | .minI32 d a b => 1107296256 + d.val * 65536 + a.val * 512 + b.val * 4
  | .minN32 d a b => 1107296257 + d.val * 65536 + a.val * 512 + b.val * 4
  | .maxI32 d a b => 1115684864 + d.val * 65536 + a.val * 512 + b.val * 4
  | .maxN32 d a b => 1115684865 + d.val * 65536 + a.val * 512 + b.val * 4
  | .addB64 d a b => 1124073472 + d.val * 65536 + a.val * 512 + b.val * 4
  | .subB64 d a b => 1124073473 + d.val * 65536 + a.val * 512 + b.val * 4
  | .addi d a i => 1140850688 + d.val * 65536 + a.val * 512 + i.toNat
  | .muli d a i => 1149239296 + d.val * 65536 + a.val * 512 + i.toNat
  | .andi d a i => 1157627904 + d.val * 65536 + a.val * 512 + i.toNat
  | .ori d a i => 1166016512 + d.val * 65536 + a.val * 512 + i.toNat
  | .xori d a i => 1174405120 + d.val * 65536 + a.val * 512 + i.toNat
  | .shli d a i => 1182793728 + d.val * 65536 + a.val * 512 + i.toNat
  | .shri d a i => 1191182336 + d.val * 65536 + a.val * 512 + i.toNat
  | .sari d a i => 1199570944 + d.val * 65536 + a.val * 512 + i.toNat
  | .andB32 d a b => 1207959552 + d.val * 65536 + a.val * 512 + b.val * 4
  | .orB32 d a b => 1207959553 + d.val * 65536 + a.val * 512 + b.val * 4
  | .xorB32 d a b => 1207959554 + d.val * 65536 + a.val * 512 + b.val * 4
  | .andnB32 d a b => 1207959555 + d.val * 65536 + a.val * 512 + b.val * 4
  | .shlB32 d a b => 1216348160 + d.val * 65536 + a.val * 512 + b.val * 4
  | .shrN32 d a b => 1216348161 + d.val * 65536 + a.val * 512 + b.val * 4
  | .sarI32 d a b => 1216348162 + d.val * 65536 + a.val * 512 + b.val * 4
  | .rotB32 d a b => 1216348163 + d.val * 65536 + a.val * 512 + b.val * 4
  | .popcB32 d a => 1224736768 + d.val * 65536 + a.val * 512
  | .clzB32 d a => 1224736769 + d.val * 65536 + a.val * 512
  | .ctzB32 d a => 1224736770 + d.val * 65536 + a.val * 512
  | .brevB32 d a => 1224736771 + d.val * 65536 + a.val * 512
  | .bfeN32 d a b => 1233125376 + d.val * 65536 + a.val * 512 + b.val * 4
  | .bfeI32 d a b => 1233125377 + d.val * 65536 + a.val * 512 + b.val * 4
  | .bfiB32 d a b => 1241513984 + d.val * 65536 + a.val * 512 + b.val * 4
  | .permB8 d a b => 1249902592 + d.val * 65536 + a.val * 512 + b.val * 4
  | .lutN4 d a b => 1249902593 + d.val * 65536 + a.val * 512 + b.val * 4
  | .movB32 d a => 1258291200 + d.val * 65536 + a.val * 512
  | .movB64 d a => 1258291201 + d.val * 65536 + a.val * 512
  | .movs d a => 1266679808 + d.val * 65536 + a.val * 512
  | .cmpEqB32 d a b => 1275068416 + d.val * 65536 + a.val * 512 + b.val * 4
  | .cmpEqF32 d a b => 1275068417 + d.val * 65536 + a.val * 512 + b.val * 4
  | .cmpNeB32 d a b => 1283457024 + d.val * 65536 + a.val * 512 + b.val * 4
  | .cmpNeF32 d a b => 1283457025 + d.val * 65536 + a.val * 512 + b.val * 4
  | .cmpLtI32 d a b => 1291845632 + d.val * 65536 + a.val * 512 + b.val * 4
  | .cmpLtN32 d a b => 1291845633 + d.val * 65536 + a.val * 512 + b.val * 4
  | .cmpLtF32 d a b => 1291845634 + d.val * 65536 + a.val * 512 + b.val * 4
  | .cmpLeI32 d a b => 1300234240 + d.val * 65536 + a.val * 512 + b.val * 4
  | .cmpLeN32 d a b => 1300234241 + d.val * 65536 + a.val * 512 + b.val * 4
  | .cmpLeF32 d a b => 1300234242 + d.val * 65536 + a.val * 512 + b.val * 4
  | .sel d a b p => 1308622848 + d.val * 65536 + a.val * 512 + b.val * 4 + p.val
  | .xlaneFrom d a b => 1342177280 + d.val * 65536 + a.val * 512 + b.val * 4
  | .xlaneBack d a b => 1342177281 + d.val * 65536 + a.val * 512 + b.val * 4
  | .xlaneFwd d a b => 1342177282 + d.val * 65536 + a.val * 512 + b.val * 4
  | .xlaneSwap d a b => 1342177283 + d.val * 65536 + a.val * 512 + b.val * 4
  | .lshB32 d a b => 1350565888 + d.val * 65536 + a.val * 512 + b.val * 4
  | .lshB8 d a b => 1350565889 + d.val * 65536 + a.val * 512 + b.val * 4
  | .bcast d a l => 1358954496 + d.val * 65536 + a.val * 512 + l.val * 4
  | .wtestEvery d a => 1367343104 + d.val * 65536 + a.val * 512
  | .wtestSome d a => 1367343105 + d.val * 65536 + a.val * 512
  | .wtestAgree d a => 1367343106 + d.val * 65536 + a.val * 512
  | .ballot d a => 1375731712 + d.val * 65536 + a.val * 512
  | .faddF32 d a b r => 1409286144 + d.val * 65536 + a.val * 512 + b.val * 4 + r.val
  | .fsubF32 d a b r => 1417674752 + d.val * 65536 + a.val * 512 + b.val * 4 + r.val
  | .fmulF32 d a b r => 1426063360 + d.val * 65536 + a.val * 512 + b.val * 4 + r.val
  | .ffmaF32 d a b r => 1434451968 + d.val * 65536 + a.val * 512 + b.val * 4 + r.val
  | .fminF32 d a b => 1442840576 + d.val * 65536 + a.val * 512 + b.val * 4
  | .fminNumF32 d a b => 1442840577 + d.val * 65536 + a.val * 512 + b.val * 4
  | .fmaxF32 d a b => 1451229184 + d.val * 65536 + a.val * 512 + b.val * 4
  | .fmaxNumF32 d a b => 1451229185 + d.val * 65536 + a.val * 512 + b.val * 4
  | .fabsF32 d a => 1459617792 + d.val * 65536 + a.val * 512
  | .fnegF32 d a => 1459617793 + d.val * 65536 + a.val * 512
  | .fcopysignF32 d a b => 1459617794 + d.val * 65536 + a.val * 512 + b.val * 4
  | .frcpF32 d a l => 1476395008 + d.val * 65536 + a.val * 512 + l.val
  | .frsqF32 d a l => 1484783616 + d.val * 65536 + a.val * 512 + l.val
  | .fsqrtF32 d a r l => 1493172224 + d.val * 65536 + a.val * 512 + r.val * 16 + l.val
  | .fexp2F32 d a l => 1501560832 + d.val * 65536 + a.val * 512 + l.val
  | .flog2F32 d a l => 1509949440 + d.val * 65536 + a.val * 512 + l.val
  | .fsinF32 d a l => 1518338048 + d.val * 65536 + a.val * 512 + l.val
  | .fcosF32 d a l => 1518338064 + d.val * 65536 + a.val * 512 + l.val
  | .cvtf d a y x r => 1526726656 + d.val * 65536 + a.val * 512 + y.val * 64 + x.val * 8 + r.val
  | .cvti d a y x r => 1535115264 + d.val * 65536 + a.val * 512 + y.val * 64 + x.val * 8 + r.val
  | .sbpackSb3 d a => 1543503872 + d.val * 65536 + a.val * 512
  | .sbpackSb5 d a => 1543503873 + d.val * 65536 + a.val * 512
  | .sbpackSb8 d a => 1543503874 + d.val * 65536 + a.val * 512
  | .sbunpSb3 d a => 1551892480 + d.val * 65536 + a.val * 512
  | .sbunpSb5 d a => 1551892481 + d.val * 65536 + a.val * 512
  | .sbunpSb8 d a => 1551892482 + d.val * 65536 + a.val * 512
  | .ckAccB32 h a => 1560281088 + h.val * 65536 + a.val * 512
  | .ckAccB64 h a => 1560281089 + h.val * 65536 + a.val * 512
  | .ldN8 d a b l => 1610612736 + d.val * 65536 + a.val * 512 + b.val * 16 + l.val
  | .ldI8 d a b l => 1619001344 + d.val * 65536 + a.val * 512 + b.val * 16 + l.val
  | .ldN16 d a b l => 1627389952 + d.val * 65536 + a.val * 512 + b.val * 16 + l.val
  | .ldB32 d a b l => 1635778560 + d.val * 65536 + a.val * 512 + b.val * 16 + l.val
  | .ldB64 d a b l => 1644167168 + d.val * 65536 + a.val * 512 + b.val * 16 + l.val
  | .ldRoB32 d a b l => 1652555776 + d.val * 65536 + a.val * 512 + b.val * 16 + l.val
  | .ldRoB64 d a b l => 1660944384 + d.val * 65536 + a.val * 512 + b.val * 16 + l.val
  | .stB8 s a b => 1677721600 + s.val * 65536 + a.val * 512 + b.val * 16
  | .stB16 s a b => 1686110208 + s.val * 65536 + a.val * 512 + b.val * 16
  | .stB32 s a b => 1694498816 + s.val * 65536 + a.val * 512 + b.val * 16
  | .stB64 s a b => 1702887424 + s.val * 65536 + a.val * 512 + b.val * 16
  | .stNtB32 s a b => 1711276032 + s.val * 65536 + a.val * 512 + b.val * 16
  | .stNtB64 s a b => 1719664640 + s.val * 65536 + a.val * 512 + b.val * 16
  | .tst s a b => 1728053248 + s.val * 65536 + a.val * 512 + b.val * 16
  | .retract p a b l => 1736441856 + p.val * 65536 + a.val * 512 + b.val * 16 + l.val
  | .ldsN8 d a b l => 1744830464 + d.val * 65536 + a.val * 512 + b.val * 16 + l.val
  | .ldsN16 d a b l => 1753219072 + d.val * 65536 + a.val * 512 + b.val * 16 + l.val
  | .ldsB32 d a b l => 1761607680 + d.val * 65536 + a.val * 512 + b.val * 16 + l.val
  | .ldsB64 d a b l => 1769996288 + d.val * 65536 + a.val * 512 + b.val * 16 + l.val
  | .stsB8 s a b => 1778384896 + s.val * 65536 + a.val * 512 + b.val * 16
  | .stsB16 s a b => 1786773504 + s.val * 65536 + a.val * 512 + b.val * 16
  | .stsB32 s a b => 1795162112 + s.val * 65536 + a.val * 512 + b.val * 16
  | .stsB64 s a b => 1803550720 + s.val * 65536 + a.val * 512 + b.val * 16
  | .atomAdd d a b o l => 1811939328 + d.val * 65536 + a.val * 512 + b.val * 64 + o.val * 16 + l.val
  | .atomMin d a b o l => 1820327936 + d.val * 65536 + a.val * 512 + b.val * 64 + o.val * 16 + l.val
  | .atomMax d a b o l => 1828716544 + d.val * 65536 + a.val * 512 + b.val * 64 + o.val * 16 + l.val
  | .atomAnd d a b o l => 1837105152 + d.val * 65536 + a.val * 512 + b.val * 64 + o.val * 16 + l.val
  | .atomOr d a b o l => 1845493760 + d.val * 65536 + a.val * 512 + b.val * 64 + o.val * 16 + l.val
  | .atomXor d a b o l => 1853882368 + d.val * 65536 + a.val * 512 + b.val * 64 + o.val * 16 + l.val
  | .atomXchg d a b o l => 1862270976 + d.val * 65536 + a.val * 512 + b.val * 64 + o.val * 16 + l.val
  | .atomCas d a b o l => 1870659584 + d.val * 65536 + a.val * 512 + b.val * 64 + o.val * 16 + l.val
  | .settle a b => 1879048192 + a.val * 512 + b.val * 16
  | .redF32 s a b => 1887436800 + s.val * 65536 + a.val * 512 + b.val * 16
  | .redBf16 s a b => 1895825408 + s.val * 65536 + a.val * 512 + b.val * 16
  | .redE4m3 s a b => 1904214016 + s.val * 65536 + a.val * 512 + b.val * 16
  | .redE5m2 s a b => 1912602624 + s.val * 65536 + a.val * 512 + b.val * 16
  | .combLd d a b l => 1920991232 + d.val * 65536 + a.val * 512 + b.val * 16 + l.val
  | .combSt s a b => 1929379840 + s.val * 65536 + a.val * 512 + b.val * 16
  | .epiSt f t a b => 1937768448 + f.val * 1048576 + t.val * 65536 + a.val * 512 + b.val * 16
  | .mma t x y s l => 1946157056 + t.val * 524288 + x.val * 65536 + y.val * 8192 + s.val * 16 + l.val
  | .mmaZ t x y s l => 1954545664 + t.val * 524288 + x.val * 65536 + y.val * 8192 + s.val * 16 + l.val
  | .accZero t s => 1962934272 + t.val * 65536 + s.val * 4
  | .accMov d a s => 1962934273 + d.val * 65536 + a.val * 512 + s.val * 4
  | .accRd d t c => 1962934274 + d.val * 65536 + t.val * 512 + c.val * 4
  | .accWr t a c => 1962934275 + t.val * 65536 + a.val * 512 + c.val * 4
  | .gets d n => 1971322880 + d.val * 65536 + n.val
  | .qpush s q => 1979711488 + s.val * 65536 + q.val * 16
  | .qpop d q l => 1988100096 + d.val * 65536 + q.val * 16 + l.val
  | .gAddB32 d a b => 3221225472 + d.val * 65536 + a.val * 512 + b.val * 4
  | .gAddSatI32 d a b => 3221225473 + d.val * 65536 + a.val * 512 + b.val * 4
  | .gAddSatN32 d a b => 3221225474 + d.val * 65536 + a.val * 512 + b.val * 4
  | .gSubB32 d a b => 3229614080 + d.val * 65536 + a.val * 512 + b.val * 4
  | .gSubSatI32 d a b => 3229614081 + d.val * 65536 + a.val * 512 + b.val * 4
  | .gSubSatN32 d a b => 3229614082 + d.val * 65536 + a.val * 512 + b.val * 4
  | .gMulLoB32 d a b => 3238002688 + d.val * 65536 + a.val * 512 + b.val * 4
  | .gMulHiI32 d a b => 3238002689 + d.val * 65536 + a.val * 512 + b.val * 4
  | .gMulHiN32 d a b => 3238002690 + d.val * 65536 + a.val * 512 + b.val * 4
  | .gMadB32 d a b => 3246391296 + d.val * 65536 + a.val * 512 + b.val * 4
  | .gMinI32 d a b => 3254779904 + d.val * 65536 + a.val * 512 + b.val * 4
  | .gMinN32 d a b => 3254779905 + d.val * 65536 + a.val * 512 + b.val * 4
  | .gMaxI32 d a b => 3263168512 + d.val * 65536 + a.val * 512 + b.val * 4
  | .gMaxN32 d a b => 3263168513 + d.val * 65536 + a.val * 512 + b.val * 4
  | .gAddB64 d a b => 3271557120 + d.val * 65536 + a.val * 512 + b.val * 4
  | .gSubB64 d a b => 3271557121 + d.val * 65536 + a.val * 512 + b.val * 4
  | .gAddi d a i => 3288334336 + d.val * 65536 + a.val * 512 + i.toNat
  | .gMuli d a i => 3296722944 + d.val * 65536 + a.val * 512 + i.toNat
  | .gAndi d a i => 3305111552 + d.val * 65536 + a.val * 512 + i.toNat
  | .gOri d a i => 3313500160 + d.val * 65536 + a.val * 512 + i.toNat
  | .gXori d a i => 3321888768 + d.val * 65536 + a.val * 512 + i.toNat
  | .gShli d a i => 3330277376 + d.val * 65536 + a.val * 512 + i.toNat
  | .gShri d a i => 3338665984 + d.val * 65536 + a.val * 512 + i.toNat
  | .gSari d a i => 3347054592 + d.val * 65536 + a.val * 512 + i.toNat
  | .gAndB32 d a b => 3355443200 + d.val * 65536 + a.val * 512 + b.val * 4
  | .gOrB32 d a b => 3355443201 + d.val * 65536 + a.val * 512 + b.val * 4
  | .gXorB32 d a b => 3355443202 + d.val * 65536 + a.val * 512 + b.val * 4
  | .gAndnB32 d a b => 3355443203 + d.val * 65536 + a.val * 512 + b.val * 4
  | .gShlB32 d a b => 3363831808 + d.val * 65536 + a.val * 512 + b.val * 4
  | .gShrN32 d a b => 3363831809 + d.val * 65536 + a.val * 512 + b.val * 4
  | .gSarI32 d a b => 3363831810 + d.val * 65536 + a.val * 512 + b.val * 4
  | .gRotB32 d a b => 3363831811 + d.val * 65536 + a.val * 512 + b.val * 4
  | .gPopcB32 d a => 3372220416 + d.val * 65536 + a.val * 512
  | .gClzB32 d a => 3372220417 + d.val * 65536 + a.val * 512
  | .gCtzB32 d a => 3372220418 + d.val * 65536 + a.val * 512
  | .gBrevB32 d a => 3372220419 + d.val * 65536 + a.val * 512
  | .gBfeN32 d a b => 3380609024 + d.val * 65536 + a.val * 512 + b.val * 4
  | .gBfeI32 d a b => 3380609025 + d.val * 65536 + a.val * 512 + b.val * 4
  | .gBfiB32 d a b => 3388997632 + d.val * 65536 + a.val * 512 + b.val * 4
  | .gMovB32 d a => 3397386240 + d.val * 65536 + a.val * 512
  | .gMovB64 d a => 3397386241 + d.val * 65536 + a.val * 512
  | .lcLo d i => 3405774848 + d.val * 65536 + i.toNat
  | .lcHi d i => 3414163456 + d.val * 65536 + i.toNat
  | .gCmpEqB32 d a b => 3422552064 + d.val * 65536 + a.val * 512 + b.val * 4
  | .gCmpEqF32 d a b => 3422552065 + d.val * 65536 + a.val * 512 + b.val * 4
  | .gCmpNeB32 d a b => 3430940672 + d.val * 65536 + a.val * 512 + b.val * 4
  | .gCmpNeF32 d a b => 3430940673 + d.val * 65536 + a.val * 512 + b.val * 4
  | .gCmpLtI32 d a b => 3439329280 + d.val * 65536 + a.val * 512 + b.val * 4
  | .gCmpLtN32 d a b => 3439329281 + d.val * 65536 + a.val * 512 + b.val * 4
  | .gCmpLtF32 d a b => 3439329282 + d.val * 65536 + a.val * 512 + b.val * 4
  | .gCmpLeI32 d a b => 3447717888 + d.val * 65536 + a.val * 512 + b.val * 4
  | .gCmpLeN32 d a b => 3447717889 + d.val * 65536 + a.val * 512 + b.val * 4
  | .gCmpLeF32 d a b => 3447717890 + d.val * 65536 + a.val * 512 + b.val * 4
  | .gFaddF32 d a b r => 3456106496 + d.val * 65536 + a.val * 512 + b.val * 4 + r.val
  | .gFsubF32 d a b r => 3464495104 + d.val * 65536 + a.val * 512 + b.val * 4 + r.val
  | .gFmulF32 d a b r => 3472883712 + d.val * 65536 + a.val * 512 + b.val * 4 + r.val
  | .gFfmaF32 d a b r => 3481272320 + d.val * 65536 + a.val * 512 + b.val * 4 + r.val
  | .br f => 3489660928 + f.toNat
  | .call f => 3498049536 + f.toNat
  | .jmp a => 3506438144 + a.val * 512
  | .ret a => 3514826752 + a.val * 65536
  | .guard p n => 3523215360 + p.val * 256 + n.val * 16
  | .guardN p n => 3523217408 + p.val * 256 + n.val * 16
  | .exit => 3531603968
  | .yield => 3539992576
  | .join k => 3548381184 + k.val * 16
  | .leave k => 3556769792 + k.val * 16
  | .wait k => 3565158400 + k.val * 16
  | .barG => 3573547008
  | .barC => 3573547264
  | .kmov a d => 3581935616 + a.val * 256 + d.val * 16
  | .trap c => 3590324224 + c.toNat * 256
  | .rett => 3598712832
  | .nop => 3607101440
  | .sleep a => 3615490048 + a.val * 65536
  | .gGets d n => 3623878656 + d.val * 65536 + n.val * 128
  | .sets s n x => 3632267264 + s.val * 65536 + n.val * 128 + x.val * 64
  | .acquire => 3640655872
  | .acquireExplicit a => 3640656128 + a.val * 65536
  | .spawn r n => 3649044480 + r.val * 65536 + n.val * 512
  | .joindec r => 3657433088 + r.val * 65536
  | .cancel d => 3665821696 + d.val * 65536
  | .submit d p => 3674210304 + d.val * 65536 + p.val * 512
  | .qbind p q => 3682598912 + p.val * 256 + q.val * 16
  | .fenceAcq => 3690987520
  | .fenceRel => 3690987776
  | .fenceFull => 3690988032
  | .drainNt => 3699376128
  | .wbRange a b => 3707764736 + a.val * 65536 + b.val * 512
  | .invRange a b => 3716153344 + a.val * 65536 + b.val * 512
  | .ldgB32 d a i => 3724541952 + d.val * 65536 + a.val * 512 + i.toNat
  | .ldgB64 d a i => 3732930560 + d.val * 65536 + a.val * 512 + i.toNat
  | .stgB32 d a i => 3741319168 + d.val * 65536 + a.val * 512 + i.toNat
  | .stgB64 d a i => 3749707776 + d.val * 65536 + a.val * 512 + i.toNat
  | .cpSc a b => 3758096384 + a.val * 65536 + b.val * 512
  | .waitAny a => 3766484992 + a.val * 65536
  | .waitAll a => 3774873600 + a.val * 65536
  | .ffrTag d a => 3783262208 + d.val * 65536 + a.val * 512
  | .ffrTagHeld d a => 3783262464 + d.val * 65536 + a.val * 512
  | .prefetch a => 3791650816 + a.val * 65536
  | .prefetchL2 a => 3791651072 + a.val * 65536
  | .ldsgB32 d a i => 3800039424 + d.val * 65536 + a.val * 512 + i.toNat
  | .stsgB32 d a i => 3808428032 + d.val * 65536 + a.val * 512 + i.toNat
  | .rdlane d a l k => 3816816640 + d.val * 65536 + a.val * 512 + l.val * 16 + k.val
  | .cpy d s l => 3825205248 + d.val * 65536 + s.val * 512 + l.val * 16
  | .relayout d s t => 3833593856 + d.val * 65536 + s.val * 512 + t.val * 16
  | .pub b => 3841982464 + b.val * 65536
  | .pubOpen b l => 3841982480 + b.val * 65536 + l.val * 512
  | .pubDrop b => 3841982496 + b.val * 65536
  | .pubClose b => 3841982512 + b.val * 65536
  | .wrlane d a l => 3850371072 + d.val * 65536 + a.val * 512 + l.val * 16
  | .votec d p k => 3858759680 + d.val * 65536 + p.val * 256 + k.val
  | .ckChk m b a => 3867148288 + m.val * 1024 + b.val * 256 + a.val * 16
  | .obres a n => 3875536896 + a.val * 65536 + n.val * 16
  | .obfill a b n => 3883925504 + a.val * 65536 + b.val * 512 + n.val * 16
  | .obfillX a b n => 3892314112 + a.val * 65536 + b.val * 512 + n.val * 16
  | .cmergeSoft r o t l => 3900702720 + r.val * 2048 + o.val * 1024 + t.val * 16 + l.val
  | .cmergeSum r o t l => 3900702976 + r.val * 2048 + o.val * 1024 + t.val * 16 + l.val
  | .cmergeIsum r o t l => 3900703232 + r.val * 2048 + o.val * 1024 + t.val * 16 + l.val
  | .attnQk h t q n l => 3909091328 + h.val * 131072 + t.val * 8192 + q.val * 1024 + n.val * 16 + l.val
  | .attnPv h o p n l => 3917479936 + h.val * 131072 + o.val * 8192 + p.val * 512 + n.val * 16 + l.val
  | .combSum h t q n l => 3925868544 + h.val * 131072 + t.val * 8192 + q.val * 1024 + n.val * 16 + l.val
  | .topk d k t l => 3934257152 + d.val * 65536 + k.val * 2048 + t.val * 16 + l.val
  | .topkC d k t l => 3934258176 + d.val * 65536 + k.val * 2048 + t.val * 16 + l.val
  | .gatherComb h m q => 3942645760 + h.val * 131072 + m.val * 4096 + q.val * 256
  | .obrel m => 3951034368 + m.toNat * 256
  | .fabStr c q => 3959422976 + c.val * 131072 + q.val * 256
  | .fabA2a c q => 3967811584 + c.val * 131072 + q.val * 256
  | .fabRing c q => 3976200192 + c.val * 131072 + q.val * 256
  | .qstat d q => 3984588800 + d.val * 65536 + q.val * 16
  | .tlbinv v s => 3992977408 + v.val * 131072 + s.val * 256
  | .atomgAdd d a i => 4001366016 + d.val * 65536 + a.val * 512 + i.toNat
  | .atomgCas d a i => 4009754624 + d.val * 65536 + a.val * 512 + i.toNat
  | .cmpiEq d a i => 4018143232 + d.val * 65536 + a.val * 512 + i.toNat
  | .cmpiLt d a i => 4026531840 + d.val * 65536 + a.val * 512 + i.toNat
  | .selz d a b => 4034920448 + d.val * 65536 + a.val * 512 + b.val * 4
  | .popk d k => 4043309056 + d.val * 65536 + k.val * 16
  | .settleAll => 4051697664
  | .migrate v p d => 4060086272 + v.val * 131072 + p.val * 2048 + d.val * 16
  | .icinv => 4068474880
  | .combInv h s => 4076863488 + h.val * 131072 + s.val * 256
  | .bkpt => 4085252096
  | .halt => 4093640704
  | .longLatencyCompletion _ => 0
  | .handlerEntry => 0
  | .groupEnd => 0
  | .groupAdmission _ => 0
  | .distributorRefill _ => 0
  | .stealRequest _ => 0
  | .stealAnswer _ => 0
  | .queueBalancing _ => 0
  | .acquireGrant _ => 0
  | .acquireDeadlockSave _ => 0
  | .latencyTakeBack _ => 0
  | .drainTimeout _ => 0
  | .groupSave _ => 0
  | .groupRestore _ _ => 0
  | .budgetExhausted _ _ => 0
  | .deadlineExpiry _ _ => 0
  | .floorLost _ => 0
  | .floorRegained _ => 0
  | .midgeStart _ => 0
  | .midgeEnd _ => 0
  | .sleepExpiry => 0
  | .haltResume _ => 0
  | .haltedGroupCancel _ => 0
  | .copyCompletion _ => 0
  | .epilogueRowStore _ => 0
  | .gatherCommand _ => 0
  | .fabricCommandCompletion _ _ => 0
  | .missFillArrival _ _ => 0
  | .ownershipRevocation _ _ => 0
  | .l2Replacement _ => 0
  | .guestFill _ _ => 0
  | .directoryFanOut _ _ _ => 0
  | .invalidation _ _ => 0
  | .invalidationAnswer _ _ _ => 0
  | .invtoExpiry _ _ => 0
  | .rejoin _ => 0
  | .sourceProbe _ => 0
  | .baseDieMaterialise _ => 0
  | .faultSlotFreed _ => 0
  | .engineWalkRetry _ => 0
  | .leaseRequest _ _ => 0
  | .leaseAnswer _ _ _ _ _ _ => 0
  | .recall _ _ => 0
  | .recallAcknowledgement _ _ => 0
  | .leaseRelease _ _ => 0
  | .migrationCopyDone _ _ => 0
  | .gollysRead _ _ _ _ => 0
  | .gollysWrite _ _ _ _ => 0
  | .gollysAtomic _ _ _ _ _ _ => 0
  | .gollysResponse _ _ _ _ => 0
  | .fabricData _ _ _ _ _ => 0
  | .fabricAcknowledgement _ _ => 0
  | .gollysAuditMarker _ => 0
  | .gollysAuditEcho _ _ => 0
  | .idle _ _ _ _ => 0
  | .idleSend _ => 0
  | .bridgeMessage _ _ => 0
  | .crcFailureReplay _ => 0
  | .linkDown _ => 0
  | .glowwormAudit _ => 0
  | .liveRecalibration _ => 0
  | .recalibrationTimeout _ => 0
  | .isaisRead _ _ _ => 0
  | .maskedWrite _ _ _ _ _ _ => 0
  | .compareWrite _ _ _ _ => 0
  | .poisonReport _ _ _ => 0
  | .scrubReport _ _ _ _ => 0
  | .calibration _ _ => 0
  | .script _ _ _ _ => 0
  | .capabilityRead _ _ => 0
  | .isaisReply _ _ _ => 0
  | .isaisAuditMarker _ => 0
  | .isaisAuditEcho _ _ => 0
  | .isaisRequestTimeout _ _ => 0
  | .weevilBurst _ _ _ => 0
  | .uncorrectableStateError _ _ _ => 0
  | .deviceFault _ _ => 0
  | .freezeL => 0
  | .deviceReset _ => 0
  | .bootRetry _ => 0
  | .devcmdReset _ => 0
  | .devcmdFreeze => 0
  | .hostsub _ => 0
  | .hostSubmitRetry => 0
  | .hoststatRejoin => 0
  | .hostAccess _ _ _ => 0
  | .ctxctlCreate _ => 0
  | .ctxctlTearDown _ => 0
  | .contextTeardownDone _ => 0
  | .cohcfgWrite _ _ => 0
  | .attestationNonce _ => 0
  | .attestationReportReady => 0
  | .registerWrite _ _ _ => 0
  | .firmwareUpdate _ => 0
  | .spareCoreSwap _ _ => 0
  | .rowSparing _ => 0
  | .configurationRecord _ => 0
  | .linkUp _ => 0
  | .laneFailure _ => 0
  | .takeBackRequest _ => 0
  | .cxlCacheResponse _ _ _ => 0

/-- A 32-bit word as an instruction: selected by its opcode, its unused fields 0 and its fields within the limits of its
entry (R53, R66). -/
noncomputable def decodeWord (w : Nat) : Except Reject Instr :=
  match select w with
  | .error e => .error e
  | .ok i =>
    if encode i = w then
      match i.check with
      | none => .ok i
      | some e => .error e
    else .error .nonzeroUnused

/-- A one-parcel dictionary code (R48). -/
def decodeCode (p : Nat) : Instr := .dictionaryCode (field 2 p 15) (field 1024 p 4) (field 16 p 0)

/-- Whether the format of a word has a lookahead field (R52, R63, R64). -/
def lookFormat (w : Nat) : Bool :=
  let m := w / 2 ^ 23 % 128
  if w / 2 ^ 31 % 2 = 0 then
    (0x30 ≤ m && m ≤ 0x35) || (0x40 ≤ m && m ≤ 0x69) || m == 0x6C || m == 0x6D
  else (0x23 ≤ m && m ≤ 0x3B) || (0x40 ≤ m && m ≤ 0x44) || (0x47 ≤ m && m ≤ 0x5C) || (0x62 ≤ m && m ≤ 0x68)

/-- The word that a dictionary code executes: its entry, with LOOK in place of the lookahead where LOOK is below 0xF. A SET that
differs, an entry whose bit 30 is 0 and a LOOK without a field to replace are refused (R51, R66). -/
def codeWord (set look entry : Nat) : Except Reject Nat :=
  if entry / 2 ^ 31 % 2 ≠ set then .error .fieldRange
  else if entry / 2 ^ 30 % 2 = 0 then .error .reservedMajor
  else if look = 15 then .ok entry
  else if lookFormat entry then .ok (entry / 16 * 16 + look)
  else .error .lookaheadField

/-- Bit 14 of a parcel: the length bit (R44). -/
def longParcel (p : Nat) : Bool := p / 16384 % 2 == 1

/-- A parcel from its two bytes, little-endian (R44). -/
def parcel (b0 b1 : Byte) : Nat := b0.toNat + 256 * b1.toNat

/-- The instruction at the head of a stream of bytes and the bytes after it (R44). -/
noncomputable def decode : List Byte → Except Reject (Instr × List Byte)
  | b0 :: b1 :: rest =>
    if longParcel (parcel b0 b1) then
      match rest with
      | b2 :: b3 :: rest' =>
        match decodeWord (parcel b0 b1 * 65536 + parcel b2 b3) with
        | .ok i => .ok (i, rest')
        | .error e => .error e
      | _ => .error .truncated
    else .ok (decodeCode (parcel b0 b1), rest)
  | _ => .error .truncated

/-- The two bytes of a parcel, little-endian (R44). -/
def parcelBytes (p : Nat) : List Byte := [BitVec.ofNat 8 p, BitVec.ofNat 8 (p / 256)]

/-- A 32-bit word as code stores it, the high parcel first (R44). -/
def wordBytes (w : Nat) : List Byte := parcelBytes (w / 65536) ++ parcelBytes w

/-- The bytes of an instruction as code stores them. -/
def encodeBytes : Instr → List Byte
  | .dictionaryCode s i l => parcelBytes (encode (.dictionaryCode s i l))
  | i => wordBytes (encode i)

/-- The bytes of an opcode-table row's bits: a 16-bit row is one parcel, a 32-bit row one 32-bit word (R44). -/
def tableBytes (nbits w : Nat) : List Byte :=
  if nbits = 16 then parcelBytes w else if nbits = 32 then wordBytes w else []

/-- The instruction the decoder reads from an instruction of nbits bits numbered as the opcode table numbers them. -/
noncomputable def decodeTableWord (nbits w : Nat) : Option Instr :=
  match decode (tableBytes nbits w) with
  | .ok (i, _) => some i
  | .error _ => none

end Sys2Proof
end

