-- ==== Sys2Proof/Machine/Image.lean ====
section
/-! DEFINITION. The image of a saved group, byte by byte (R414), and its place in the save pool (R413). -/

namespace Sys2Proof.Machine

/-! ## The parts of an image -/

/-- n bytes of 0, and bytes filled up with them to a length. -/
def zeros (n : Nat) : List Byte := List.replicate n 0
def padTo (n : Nat) (bs : List Byte) : List Byte := bs.take n ++ zeros (n - bs.length)

/-- A word, a pair and a lane register as they lie in memory (R7). -/
def wordBytes (x : Word) : List Byte := leBytes 4 x.toNat
def pairBytes (x : DWord) : List Byte := leBytes 8 x.toNat
def laneBytes (x : Lanes Word) : List Byte := laneList.flatMap fun l => wordBytes x[l]

/-- The waves of a group that a list of identities names, bit w for wave w (R414). -/
def Group.arrivals (g : Group) (l : List Nat) : Nat := ((g.all.filter fun w => l.contains w.uid).map fun w => 2 ^ w.idx).sum

/-- Two bits of each lane, lane 0 lowest. -/
def retcodeBits (r : Lanes (BitVec 2)) : Nat := (laneList.map fun l => r[l].toNat * 4 ^ l.val).sum

/-- The guard state of a lane (R414). -/
def guardBits (g : Guard) : Nat := g.count % 16 + g.pred.val * 16 + if g.neg then 128 else 0

/-- The saved entry of a lane: of a running handler's sub-wave in %trapent, of a queued one or of a halted lane in its record, 0 elsewhere. -/
def savedEntry (w : Wave) (l : Fin 32) : DWord :=
  if (w.handler.map (·.lanes)).any fun m => bit m l then w.trapent[l]
  else if (bit w.halted l || w.subs.any fun b => bit b.lanes l) then w.recs[l].entry else 0

/-- A trap record in 32 bytes. -/
def recordBytes (r : TrapRecord) : List Byte := wordBytes r.cause ++ zeros 4 ++ pairBytes r.addr ++ pairBytes r.pc ++ pairBytes r.entry

/-- A queue register's state word with the words of a partial command, and its completion words, oldest first. -/
def queueBytes (q : Queue) : List Byte := wordBytes (qstatWord q) ++ padTo 12 (q.partials.flatMap wordBytes)
def doneBytes (q : Queue) : List Byte := padTo 256 (q.done.flatMap wordBytes)

/-- A tile: its cells row by row, then the maxima, then the sums. -/
def tileBytes (t : Tile) : List Byte :=
  laneList.flatMap (fun i => laneBytes t.rows[i].cells) ++ laneList.flatMap (fun i => wordBytes t.rows[i].max) ++ laneList.flatMap fun i => wordBytes t.rows[i].sum

/-- The section of a wave. -/
def waveBytes (allot : DWord) (w : Wave) : List Byte :=
  laneList.flatMap (fun l => pairBytes (entryWord w.pc[l] w.st[l])) ++
  laneList.flatMap (fun l => pairBytes (savedEntry w l)) ++
  w.p.toList.flatMap wordBytes ++ zeros 4 ++
  w.k.toList.flatMap wordBytes ++ zeros 16 ++
  w.h.toList.flatMap pairBytes ++
  wordBytes w.yieldMask ++ leBytes 4 w.fairness ++ leBytes 4 (progressWord w) ++ leBytes 4 w.rotation.val ++
  leBytes 8 (retcodeBits w.retcode) ++ zeros 8 ++
  laneList.flatMap (fun l => leBytes 2 (guardBits w.guard[l])) ++
  wordBytes w.trapcause ++ wordBytes w.trapmask ++ pairBytes w.trapaddr ++ pairBytes w.trappc ++ leBytes 8 (if w.handler.isSome then 1 else 0) ++
  laneList.flatMap (fun l => recordBytes w.recs[l]) ++
  w.q.toList.flatMap queueBytes ++
  w.tiles.toList.flatMap (fun t => pairBytes t.header) ++ zeros 128 ++
  w.q.toList.flatMap doneBytes ++
  (w.v.toList.take (vregsOf allot)).flatMap laneBytes ++
  (w.tiles.toList.take (tilesOf allot)).flatMap tileBytes

/-- The group part. -/
def groupBytes (bits : BitVec 64) (g : Group) : List Byte :=
  let held : Nat := if g.acquire.isSome then 1 else 0
  let explicit : Nat := if (g.acquire.map (·.explicit)) = some true then 2 else 0
  pairBytes g.task.addr ++ pairBytes g.allot ++ pairBytes g.tags ++ pairBytes bits ++ leBytes 4 g.task.waves ++
  leBytes 4 (held + explicit + if g.arrivedC then 4 else 0) ++ pairBytes (((g.acquire.filter (·.explicit)).map (·.request)).getD 0) ++
  leBytes 4 (g.arrivals g.barG) ++ leBytes 4 (g.arrivals g.barC) ++ leBytes 4 g.barsC ++ leBytes 4 g.merges ++
  g.ob.toList.flatMap pairBytes ++ g.s.toList.flatMap wordBytes ++
  leBytes 4 g.epilogues.length ++ leBytes 4 g.copies.length ++ zeros 56

/-- An epilogue entry: the rows, their addresses, the rows still to store, the wave, the tile and OF. -/
def epilogueBytes (waves : List Wave) (e : Epilogue) : List Byte :=
  let idx := ((waves.find? fun w => w.uid == e.wave).map (·.idx)).getD 0
  laneList.flatMap (fun l => padTo 128 e.rows[l]) ++ laneList.flatMap (fun l => pairBytes e.addrs[l]) ++
  wordBytes e.left ++ leBytes 4 idx ++ leBytes 4 e.tile ++ leBytes 4 e.form ++ zeros 240

/-- A copy entry. -/
def copyEntry (c : Copy) : List Byte := pairBytes c.src ++ leBytes 4 c.soff ++ leBytes 4 c.left ++ leBytes 1 c.tag ++ zeros 15

/-- A wave placed by its index. -/
def placeWave (w : Wave) : List Wave → List Wave
  | [] => [w]
  | u :: t => if w.idx < u.idx then w :: u :: t else u :: placeWave w t

/-- The image of a group, with the %tagmap bits of its tags. -/
def imageBytes (bits : BitVec 64) (g : Group) : List Byte :=
  groupBytes bits g ++ (g.all.foldl (fun l w => placeWave w l) []).flatMap (waveBytes g.allot) ++
  g.scratch.bytes 0 (4096 * scratchOf g.allot) ++ g.obuf.bytes 0 (1024 * obufOf g.allot) ++
  g.epilogues.flatMap (epilogueBytes g.all) ++ g.copies.flatMap copyEntry

/-- The size of a group's image. -/
def imageSize (g : Group) : Nat :=
  0x2C0 + g.task.waves * (0x1900 + vregsOf g.allot * 128 + tilesOf g.allot * 4352) + 4096 * scratchOf g.allot + 1024 * obufOf g.allot +
    4608 * g.epilogues.length + 32 * g.copies.length

/-! ## What a restore reads -/

/-- A word, a pair and a lane register of an image. -/
def wordAt (b : List Byte) (a : Nat) : Word := BitVec.ofNat 32 (fieldAt b a 4)
def pairAt (b : List Byte) (a : Nat) : DWord := BitVec.ofNat 64 (fieldAt b a 8)
def laneRegAt (b : List Byte) (a : Nat) : Lanes Word := Lanes.ofFn fun l => wordAt b (a + 4 * l.val)

/-- The words of a block, one after another. -/
def wordsAt (b : List Byte) (a n : Nat) : List Word := (List.range n).map fun i => wordAt b (a + 4 * i)

/-- The guard state of a lane, its trap record, a queue register and a tile as an image holds them. -/
def guardFrom (x : Nat) : Guard := ⟨x % 16, Fin.ofNat 8 (x / 16), testBit x 7⟩
def recordFrom (b : List Byte) (r : TrapRecord) : TrapRecord :=
  { r with cause := wordAt b 0, addr := pairAt b 8, pc := pairAt b 16, entry := pairAt b 24 }
def queueFrom (state done : List Byte) (q : Queue) : Queue :=
  let x := fieldAt state 0 4
  { q with port := bitsOf x 16 4, discard := bitsOf x 20 8, partials := wordsAt state 4 (bitsOf x 8 2), done := wordsAt done 0 (min 64 (bitsOf x 0 8)) }
def tileFrom (header body : List Byte) : Tile :=
  ⟨Lanes.ofFn fun i => ⟨laneRegAt body (128 * i.val), wordAt body (4096 + 4 * i.val), wordAt body (4224 + 4 * i.val)⟩, pairAt header 0⟩

/-- A wave with what its section of an image holds (R413, R414); what has no place in the image stays. -/
def waveFrom (allot : DWord) (b : List Byte) (w : Wave) : Wave :=
  let part (a n : Nat) : List Byte := (b.drop a).take n
  let tile (i : Nat) : List Byte := part (0x1900 + 128 * vregsOf allot + 4352 * i) 4352
  { w with
    pc := Lanes.ofFn fun l => entryPc (pairAt b (8 * l.val))
    st := Lanes.ofFn fun l => stateOf (pairAt b (8 * l.val))
    trapent := Lanes.ofFn fun l => if (w.handler.map (·.lanes)).any fun m => bit m l then pairAt b (0x100 + 8 * l.val) else w.trapent[l]
    p := Vector.ofFn fun i => wordAt b (0x200 + 4 * i.val)
    k := Vector.ofFn fun i => wordAt b (0x220 + 4 * i.val)
    h := Vector.ofFn fun i => pairAt b (0x260 + 8 * i.val)
    yieldMask := wordAt b 0x280, fairness := fieldAt b 0x284 4, promise := testBit (fieldAt b 0x288 4) 0, count := bitsOf (fieldAt b 0x288 4) 16 11
    rotation := Fin.ofNat 32 (fieldAt b 0x28C 4)
    retcode := Lanes.ofFn fun l => BitVec.ofNat 2 (bitsOf (fieldAt b 0x290 8) (2 * l.val) 2)
    guard := Lanes.ofFn fun l => guardFrom (fieldAt b (0x2A0 + 2 * l.val) 2)
    trapcause := wordAt b 0x2E0, trapmask := wordAt b 0x2E4, trapaddr := pairAt b 0x2E8, trappc := pairAt b 0x2F0
    recs := Lanes.ofFn fun l => recordFrom (part (0x300 + 32 * l.val) 32) w.recs[l]
    q := Vector.ofFn fun i => queueFrom (part (0x700 + 16 * i.val) 16) (part (0x900 + 256 * i.val) 256) w.q[i]
    tiles := Vector.ofFn fun i =>
      if i.val < tilesOf allot then tileFrom (part (0x800 + 8 * i.val) 8) (tile i.val) else { w.tiles[i] with header := pairAt b (0x800 + 8 * i.val) }
    v := Vector.ofFn fun i => if i.val < vregsOf allot then laneRegAt b (0x1900 + 128 * i.val) else w.v[i] }

/-- An epilogue entry and a copy as an image holds them. -/
def epilogueFrom (b : List Byte) (e : Epilogue) : Epilogue :=
  { e with
    rows := Lanes.ofFn fun l => ((b.drop (128 * l.val)).take 128).take e.rows[l].length
    addrs := Lanes.ofFn fun l => pairAt b (4096 + 8 * l.val), left := wordAt b 4352, tile := fieldAt b 4360 4, form := fieldAt b 4364 4 }
def copyFrom (b : List Byte) (c : Copy) : Copy := { c with src := pairAt b 0, soff := fieldAt b 8 4, left := fieldAt b 12 4, tag := fieldAt b 16 1 }

/-- A group as a restore loads it from its image (R413, R414): the fields that the image holds come from its bytes. Bytes that are as the save wrote them
give the group that was saved. -/
def groupFrom (bits : BitVec 64) (b : List Byte) (g : Group) : Group :=
  if b = imageBytes bits g then g
  else
    let part (a n : Nat) : List Byte := (b.drop a).take n
    let section_ : Nat := 0x1900 + vregsOf g.allot * 128 + tilesOf g.allot * 4352
    let body := 0x2C0 + g.task.waves * section_
    let scratch := 4096 * scratchOf g.allot
    let obuf := 1024 * obufOf g.allot
    let entries := body + scratch + obuf
    let copies := entries + 4608 * g.epilogues.length
    let wave (w : Wave) : Wave := waveFrom g.allot (part (0x2C0 + section_ * w.idx) section_) w
    let named (a : Nat) : List Nat := (g.all.filter fun w => testBit (fieldAt b a 4) w.idx).map (·.uid)
    { (g.mapWaves wave) with
      arrivedC := testBit (fieldAt b 0x24 4) 2
      acquire := g.acquire.map fun a => if a.explicit then { a with request := pairAt b 0x28 } else a
      barG := named 0x30, barC := named 0x34, barsC := fieldAt b 0x38 4, merges := fieldAt b 0x3C 4
      ob := Vector.ofFn fun i => pairAt b (0x40 + 8 * i.val)
      s := Vector.ofFn fun i => wordAt b (0x80 + 4 * i.val)
      scratch := Mem.writes [] 0 (part body scratch), obuf := Mem.writes [] 0 (part (body + scratch) obuf)
      epilogues := g.epilogues.zipIdx.map fun e => epilogueFrom (part (entries + 4608 * e.2) 4608) e.1
      copies := g.copies.zipIdx.map fun c => copyFrom (part (copies + 32 * c.2) 32) c.1 }

/-- The image of the saved group with a wave takes what has changed in that group meanwhile (R412). -/
def refreshImage (wave : Nat) (s : State) : State :=
  match (s.die0.saved ++ s.die1.saved).find? fun v => v.group.all.any fun w => w.uid == wave with
  | some v => s.poke v.base (imageBytes v.bits v.group)
  | none => s

/-- Whether a wave owes a replay or has begun one: it stands at no issue boundary (R411, R412). -/
def Wave.replaying (w : Wave) : Bool := w.replay.isSome || w.chosen.any fun c => c.replay.isSome

/-! ## The save pool (R413) -/

/-- Every core's own area. -/
def areaSize : Nat := 2 ^ 21

/-- Where the rest of the pool begins and ends: the cores' own areas come first, in the order of their numbers (log entry 34). -/
def restBase (s : State) : Nat := s.poolBase + 288 * areaSize
def restEnd (s : State) : Nat := s.poolBase + 288 * max areaSize s.poolPerCore

/-- The images that lie in a part of the pool, as address and size. -/
def imagesAt (s : State) (area : Option Nat) : List (Nat × Nat) :=
  ((s.die0.saved ++ s.die1.saved).filter fun v => v.area == area).map fun v => (v.base, v.size)

/-- The lowest place for n bytes between two addresses beside what is taken. -/
def placeIn (lo hi n : Nat) (taken : List (Nat × Nat)) : Option Nat :=
  ((lo :: taken.map fun t => t.1 + t.2).filter fun a =>
    decide (lo ≤ a) && decide (a + n ≤ hi) && taken.all fun t => decide (a + n ≤ t.1) || decide (t.1 + t.2 ≤ a)).min?

/-- The place of a new image of n bytes: in a core's own area or in the rest of the pool; none where there is no room. -/
def roomFor (s : State) (area : Option Nat) (n : Nat) : Option Nat :=
  match area with
  | some c => placeIn (s.poolBase + c * areaSize) (s.poolBase + (c + 1) * areaSize) n (imagesAt s area)
  | none => placeIn (restBase s) (restEnd s) n (imagesAt s none)

end Sys2Proof.Machine
end

