-- ==== Sys2Proof/Machine/Flags.lean ====
section
/-! DEFINITION. What stands in for flags on this machine: no instruction keeps a carry or an overflow (R101). The relations of
R111, the clamps of R103 and the tests of R123 answer a value of their own. -/

namespace Sys2Proof.Machine

/-- A sum or difference clamped to the signed and the natural words (R103). -/
def clampSigned (z : Int) : Word := BitVec.ofInt 32 (max (-2 ^ 31) (min z (2 ^ 31 - 1)))
def clampNatural (z : Int) : Word := BitVec.ofInt 32 (max 0 (min z (2 ^ 32 - 1)))

/-- A relation as the word of a group compare (R112). -/
def boolWord (b : Bool) : Word := if b then 1 else 0

/-- The relations of R111. -/
def eqB32 (a b : Word) : Bool := a == b
def neB32 (a b : Word) : Bool := a != b
def ltI32 (a b : Word) : Bool := decide (a.toInt < b.toInt)
def ltN32 (a b : Word) : Bool := decide (a.toNat < b.toNat)
def leI32 (a b : Word) : Bool := decide (a.toInt ≤ b.toInt)
def leN32 (a b : Word) : Bool := decide (a.toNat ≤ b.toNat)

/-- The place of an FP32 number in numeric order; both zeros take the same place. -/
def numKey (x : Word) : Int := if testBit x.toNat 31 then -((x.toNat % 2 ^ 31 : Nat) : Int) else (x.toNat : Int)

/-- The FP32 relations of R111: with a NaN only cmp.ne holds. -/
def eqF32 (a b : Word) : Bool := !(nan32 a || nan32 b) && numKey a == numKey b
def neF32 (a b : Word) : Bool := !eqF32 a b
def ltF32 (a b : Word) : Bool := !(nan32 a || nan32 b) && decide (numKey a < numKey b)
def leF32 (a b : Word) : Bool := !(nan32 a || nan32 b) && decide (numKey a ≤ numKey b)

/-- The tests of R123 over the enabled lanes. -/
def everyLane (m : Mask) (f : Fin 32 → Bool) : Bool := (lanesOf m).all f
def someLane (m : Mask) (f : Fin 32 → Bool) : Bool := (lanesOf m).any f
def agreeLane (m : Mask) (f : Fin 32 → Bool) : Bool := (lanesOf m).all f || !(lanesOf m).any f

end Sys2Proof.Machine
end

