-- ==== Sys2Proof/Machine/Int.lean ====
section
/-! DEFINITION. The integer instructions of both sets (R100 to R110): every source is read before the destination is written,
in the enabled lanes in the lane set, once for the run in the group set. -/

namespace Sys2Proof.Machine

/-! ## The operations -/

/-- The arithmetic of R103. -/
def addOp (a b : Word) : Word := a + b
def addSatI (a b : Word) : Word := clampSigned (a.toInt + b.toInt)
def addSatN (a b : Word) : Word := clampNatural ((a.toNat : Int) + b.toNat)
def subOp (a b : Word) : Word := a - b
def subSatI (a b : Word) : Word := clampSigned (a.toInt - b.toInt)
def subSatN (a b : Word) : Word := clampNatural ((a.toNat : Int) - b.toNat)
def mulLo (a b : Word) : Word := a * b
def mulHiI (a b : Word) : Word := BitVec.ofInt 32 (a.toInt * b.toInt / 2 ^ 32)
def mulHiN (a b : Word) : Word := BitVec.ofNat 32 (a.toNat * b.toNat / 2 ^ 32)
def madOp (d a b : Word) : Word := d + a * b
def minI (a b : Word) : Word := if a.toInt ≤ b.toInt then a else b
def minN (a b : Word) : Word := if a.toNat ≤ b.toNat then a else b
def maxI (a b : Word) : Word := if b.toInt ≤ a.toInt then a else b
def maxN (a b : Word) : Word := if b.toNat ≤ a.toNat then a else b

/-- The 64-bit forms (R109). -/
def addPair (a b : DWord) : DWord := a + b
def subPair (a b : DWord) : DWord := a - b

/-- An immediate of nine bits, sign-extended (R104). -/
def imm9 (i : BitVec 9) : Word := i.signExtend 32

/-- The logical and shift operations of R105; a shift count is bits 7:0 of b. -/
def andOp (a b : Word) : Word := a &&& b
def orOp (a b : Word) : Word := a ||| b
def xorOp (a b : Word) : Word := a ^^^ b
def andnOp (a b : Word) : Word := a &&& ~~~b
def shiftCount (b : Word) : Nat := bitsOf b.toNat 0 8
def shlOp (a b : Word) : Word := a <<< shiftCount b
def shrOp (a b : Word) : Word := a >>> shiftCount b
def sarOp (a b : Word) : Word := a.sshiftRight (shiftCount b)
def rotOp (a b : Word) : Word := a.rotateLeft (shiftCount b % 32)

/-- The counts of R106. -/
def popcOp (a : Word) : Word := BitVec.ofNat 32 (popMask a)
def clzOp (a : Word) : Word := if a = 0 then 32 else BitVec.ofNat 32 (31 - Nat.log2 a.toNat)
def ctzOp (a : Word) : Word := match lowest a with
  | some i => BitVec.ofNat 32 i.val
  | none => 32
def brevOp (a : Word) : Word := maskOf fun i => bit a ⟨31 - i.val, by omega⟩

/-- Position and width of the field that b names (R107). -/
def fieldPos (b : Word) : Nat := bitsOf b.toNat 0 5
def fieldWidth (b : Word) : Nat := min (fieldPos b + min (bitsOf b.toNat 8 6) 32) 32 - fieldPos b

/-- bfe and bfi (R107, R108). -/
def bfeN (a b : Word) : Word := BitVec.ofNat 32 (bitsOf a.toNat (fieldPos b) (fieldWidth b))
def bfeI (a b : Word) : Word :=
  let f := bitsOf a.toNat (fieldPos b) (fieldWidth b)
  let w := fieldWidth b
  if w ≠ 0 ∧ testBit f (w - 1) then BitVec.ofInt 32 ((f : Int) - 2 ^ w) else BitVec.ofNat 32 f
def bfiOp (d a b : Word) : Word :=
  let m : Word := BitVec.ofNat 32 ((2 ^ fieldWidth b - 1) * 2 ^ fieldPos b)
  d &&& ~~~m ||| a <<< fieldPos b &&& m

/-- lc.lo and lc.hi (R110). -/
def constLow (d : Word) (i : BitVec 16) : Word := d &&& 0xFFFF0000 ||| i.setWidth 32
def constHigh (d : Word) (i : BitVec 16) : Word := d &&& 0xFFFF ||| i.setWidth 32 <<< 16

/-! ## The forms -/

/-- Lane forms of one, two and three sources; the last reads its destination too. -/
def laneOp1 (f : Word → Word) (d a : Fin 128) (x : Exec) (s : State) : State :=
  s.modW fun w => w.wrV d x.en fun l => f (w.rdV a l)
def laneOp2 (f : Word → Word → Word) (d a b : Fin 128) (x : Exec) (s : State) : State :=
  s.modW fun w => w.wrV d x.en fun l => f (w.rdV a l) (w.rdV b l)
def laneOp3 (f : Word → Word → Word → Word) (d a b : Fin 128) (x : Exec) (s : State) : State :=
  s.modW fun w => w.wrV d x.en fun l => f (w.rdV d l) (w.rdV a l) (w.rdV b l)
def lanePair1 (f : DWord → DWord) (d a : Fin 128) (x : Exec) (s : State) : State :=
  s.modW fun w => w.wrVV d x.en fun l => f (w.rdVV a l)
def lanePair2 (f : DWord → DWord → DWord) (d a b : Fin 128) (x : Exec) (s : State) : State :=
  s.modW fun w => w.wrVV d x.en fun l => f (w.rdVV a l) (w.rdVV b l)

/-- Group forms. -/
def groupOp1 (f : Word → Word) (d a : Fin 128) (_ : Exec) (s : State) : State := s.wrS d (f (s.rdS a))
def groupOp2 (f : Word → Word → Word) (d a b : Fin 128) (_ : Exec) (s : State) : State :=
  s.wrS d (f (s.rdS a) (s.rdS b))
def groupOp3 (f : Word → Word → Word → Word) (d a b : Fin 128) (_ : Exec) (s : State) : State :=
  s.wrS d (f (s.rdS d) (s.rdS a) (s.rdS b))
def groupPair1 (f : DWord → DWord) (d a : Fin 128) (_ : Exec) (s : State) : State := s.wrSS d (f (s.rdSS a))
def groupPair2 (f : DWord → DWord → DWord) (d a b : Fin 128) (_ : Exec) (s : State) : State :=
  s.wrSS d (f (s.rdSS a) (s.rdSS b))

/-- The signatures of forms that read their destination. -/
def lane3d (d a b : Fin 128) : Sig := { reads := vReg d ++ vReg a ++ vReg b, writes := vReg d }
def group3d (d a b : Fin 128) : Sig := { reads := sReg d ++ sReg a ++ sReg b, writes := sReg d, perLane := false }

/-- A meaning answers a next state or stops. -/
abbrev Outcome := Host.Outcome State Fault Refusal


/-! ## The lane set -/

/-- addB32 (R103). -/
def execAddB32 (d a b : Fin 128) (s : State) : Outcome := issue (lane3 d a b) (laneOp2 addOp d a b) s
/-- addSatI32 (R103). -/
def execAddSatI32 (d a b : Fin 128) (s : State) : Outcome := issue (lane3 d a b) (laneOp2 addSatI d a b) s
/-- addSatN32 (R103). -/
def execAddSatN32 (d a b : Fin 128) (s : State) : Outcome := issue (lane3 d a b) (laneOp2 addSatN d a b) s
/-- subB32 (R103). -/
def execSubB32 (d a b : Fin 128) (s : State) : Outcome := issue (lane3 d a b) (laneOp2 subOp d a b) s
/-- subSatI32 (R103). -/
def execSubSatI32 (d a b : Fin 128) (s : State) : Outcome := issue (lane3 d a b) (laneOp2 subSatI d a b) s
/-- subSatN32 (R103). -/
def execSubSatN32 (d a b : Fin 128) (s : State) : Outcome := issue (lane3 d a b) (laneOp2 subSatN d a b) s
/-- mulLoB32 (R103). -/
def execMulLoB32 (d a b : Fin 128) (s : State) : Outcome := issue (lane3 d a b) (laneOp2 mulLo d a b) s
/-- mulHiI32 (R103). -/
def execMulHiI32 (d a b : Fin 128) (s : State) : Outcome := issue (lane3 d a b) (laneOp2 mulHiI d a b) s
/-- mulHiN32 (R103). -/
def execMulHiN32 (d a b : Fin 128) (s : State) : Outcome := issue (lane3 d a b) (laneOp2 mulHiN d a b) s
/-- minI32 (R103). -/
def execMinI32 (d a b : Fin 128) (s : State) : Outcome := issue (lane3 d a b) (laneOp2 minI d a b) s
/-- minN32 (R103). -/
def execMinN32 (d a b : Fin 128) (s : State) : Outcome := issue (lane3 d a b) (laneOp2 minN d a b) s
/-- maxI32 (R103). -/
def execMaxI32 (d a b : Fin 128) (s : State) : Outcome := issue (lane3 d a b) (laneOp2 maxI d a b) s
/-- maxN32 (R103). -/
def execMaxN32 (d a b : Fin 128) (s : State) : Outcome := issue (lane3 d a b) (laneOp2 maxN d a b) s
/-- andB32 (R105). -/
def execAndB32 (d a b : Fin 128) (s : State) : Outcome := issue (lane3 d a b) (laneOp2 andOp d a b) s
/-- orB32 (R105). -/
def execOrB32 (d a b : Fin 128) (s : State) : Outcome := issue (lane3 d a b) (laneOp2 orOp d a b) s
/-- xorB32 (R105). -/
def execXorB32 (d a b : Fin 128) (s : State) : Outcome := issue (lane3 d a b) (laneOp2 xorOp d a b) s
/-- andnB32 (R105). -/
def execAndnB32 (d a b : Fin 128) (s : State) : Outcome := issue (lane3 d a b) (laneOp2 andnOp d a b) s
/-- shlB32 (R105). -/
def execShlB32 (d a b : Fin 128) (s : State) : Outcome := issue (lane3 d a b) (laneOp2 shlOp d a b) s
/-- shrN32 (R105). -/
def execShrN32 (d a b : Fin 128) (s : State) : Outcome := issue (lane3 d a b) (laneOp2 shrOp d a b) s
/-- sarI32 (R105). -/
def execSarI32 (d a b : Fin 128) (s : State) : Outcome := issue (lane3 d a b) (laneOp2 sarOp d a b) s
/-- rotB32 (R105). -/
def execRotB32 (d a b : Fin 128) (s : State) : Outcome := issue (lane3 d a b) (laneOp2 rotOp d a b) s
/-- bfeN32 (R107). -/
def execBfeN32 (d a b : Fin 128) (s : State) : Outcome := issue (lane3 d a b) (laneOp2 bfeN d a b) s
/-- bfeI32 (R107). -/
def execBfeI32 (d a b : Fin 128) (s : State) : Outcome := issue (lane3 d a b) (laneOp2 bfeI d a b) s
/-- popcB32 (R106). -/
def execPopcB32 (d a : Fin 128) (s : State) : Outcome := issue (lane2 d a) (laneOp1 popcOp d a) s
/-- clzB32 (R106). -/
def execClzB32 (d a : Fin 128) (s : State) : Outcome := issue (lane2 d a) (laneOp1 clzOp d a) s
/-- ctzB32 (R106). -/
def execCtzB32 (d a : Fin 128) (s : State) : Outcome := issue (lane2 d a) (laneOp1 ctzOp d a) s
/-- brevB32 (R106). -/
def execBrevB32 (d a : Fin 128) (s : State) : Outcome := issue (lane2 d a) (laneOp1 brevOp d a) s
/-- addi (R104). -/
def execAddi (d a : Fin 128) (i : BitVec 9) (s : State) : Outcome := issue (lane2 d a) (laneOp1 (fun a => addOp a (imm9 i)) d a) s
/-- muli (R104). -/
def execMuli (d a : Fin 128) (i : BitVec 9) (s : State) : Outcome := issue (lane2 d a) (laneOp1 (fun a => mulLo a (imm9 i)) d a) s
/-- andi (R104). -/
def execAndi (d a : Fin 128) (i : BitVec 9) (s : State) : Outcome := issue (lane2 d a) (laneOp1 (fun a => andOp a (imm9 i)) d a) s
/-- ori (R104). -/
def execOri (d a : Fin 128) (i : BitVec 9) (s : State) : Outcome := issue (lane2 d a) (laneOp1 (fun a => orOp a (imm9 i)) d a) s
/-- xori (R104). -/
def execXori (d a : Fin 128) (i : BitVec 9) (s : State) : Outcome := issue (lane2 d a) (laneOp1 (fun a => xorOp a (imm9 i)) d a) s
/-- shli (R104). -/
def execShli (d a : Fin 128) (i : BitVec 9) (s : State) : Outcome := issue (lane2 d a) (laneOp1 (fun a => shlOp a (imm9 i)) d a) s
/-- shri (R104). -/
def execShri (d a : Fin 128) (i : BitVec 9) (s : State) : Outcome := issue (lane2 d a) (laneOp1 (fun a => shrOp a (imm9 i)) d a) s
/-- sari (R104). -/
def execSari (d a : Fin 128) (i : BitVec 9) (s : State) : Outcome := issue (lane2 d a) (laneOp1 (fun a => sarOp a (imm9 i)) d a) s
/-- madB32 (R103). -/
def execMadB32 (d a b : Fin 128) (s : State) : Outcome := issue (lane3d d a b) (laneOp3 madOp d a b) s
/-- bfiB32 (R108). -/
def execBfiB32 (d a b : Fin 128) (s : State) : Outcome := issue (lane3d d a b) (laneOp3 bfiOp d a b) s
/-- addB64 (R109). -/
def execAddB64 (d a b : Fin 128) (s : State) : Outcome := issue (lane3Pair d a b) (lanePair2 addPair d a b) s
/-- subB64 (R109). -/
def execSubB64 (d a b : Fin 128) (s : State) : Outcome := issue (lane3Pair d a b) (lanePair2 subPair d a b) s

/-! ## The group set -/

/-- gAddB32 (R103). -/
def execGAddB32 (d a b : Fin 128) (s : State) : Outcome := issue (group3 d a b) (groupOp2 addOp d a b) s
/-- gAddSatI32 (R103). -/
def execGAddSatI32 (d a b : Fin 128) (s : State) : Outcome := issue (group3 d a b) (groupOp2 addSatI d a b) s
/-- gAddSatN32 (R103). -/
def execGAddSatN32 (d a b : Fin 128) (s : State) : Outcome := issue (group3 d a b) (groupOp2 addSatN d a b) s
/-- gSubB32 (R103). -/
def execGSubB32 (d a b : Fin 128) (s : State) : Outcome := issue (group3 d a b) (groupOp2 subOp d a b) s
/-- gSubSatI32 (R103). -/
def execGSubSatI32 (d a b : Fin 128) (s : State) : Outcome := issue (group3 d a b) (groupOp2 subSatI d a b) s
/-- gSubSatN32 (R103). -/
def execGSubSatN32 (d a b : Fin 128) (s : State) : Outcome := issue (group3 d a b) (groupOp2 subSatN d a b) s
/-- gMulLoB32 (R103). -/
def execGMulLoB32 (d a b : Fin 128) (s : State) : Outcome := issue (group3 d a b) (groupOp2 mulLo d a b) s
/-- gMulHiI32 (R103). -/
def execGMulHiI32 (d a b : Fin 128) (s : State) : Outcome := issue (group3 d a b) (groupOp2 mulHiI d a b) s
/-- gMulHiN32 (R103). -/
def execGMulHiN32 (d a b : Fin 128) (s : State) : Outcome := issue (group3 d a b) (groupOp2 mulHiN d a b) s
/-- gMinI32 (R103). -/
def execGMinI32 (d a b : Fin 128) (s : State) : Outcome := issue (group3 d a b) (groupOp2 minI d a b) s
/-- gMinN32 (R103). -/
def execGMinN32 (d a b : Fin 128) (s : State) : Outcome := issue (group3 d a b) (groupOp2 minN d a b) s
/-- gMaxI32 (R103). -/
def execGMaxI32 (d a b : Fin 128) (s : State) : Outcome := issue (group3 d a b) (groupOp2 maxI d a b) s
/-- gMaxN32 (R103). -/
def execGMaxN32 (d a b : Fin 128) (s : State) : Outcome := issue (group3 d a b) (groupOp2 maxN d a b) s
/-- gAndB32 (R105). -/
def execGAndB32 (d a b : Fin 128) (s : State) : Outcome := issue (group3 d a b) (groupOp2 andOp d a b) s
/-- gOrB32 (R105). -/
def execGOrB32 (d a b : Fin 128) (s : State) : Outcome := issue (group3 d a b) (groupOp2 orOp d a b) s
/-- gXorB32 (R105). -/
def execGXorB32 (d a b : Fin 128) (s : State) : Outcome := issue (group3 d a b) (groupOp2 xorOp d a b) s
/-- gAndnB32 (R105). -/
def execGAndnB32 (d a b : Fin 128) (s : State) : Outcome := issue (group3 d a b) (groupOp2 andnOp d a b) s
/-- gShlB32 (R105). -/
def execGShlB32 (d a b : Fin 128) (s : State) : Outcome := issue (group3 d a b) (groupOp2 shlOp d a b) s
/-- gShrN32 (R105). -/
def execGShrN32 (d a b : Fin 128) (s : State) : Outcome := issue (group3 d a b) (groupOp2 shrOp d a b) s
/-- gSarI32 (R105). -/
def execGSarI32 (d a b : Fin 128) (s : State) : Outcome := issue (group3 d a b) (groupOp2 sarOp d a b) s
/-- gRotB32 (R105). -/
def execGRotB32 (d a b : Fin 128) (s : State) : Outcome := issue (group3 d a b) (groupOp2 rotOp d a b) s
/-- gBfeN32 (R107). -/
def execGBfeN32 (d a b : Fin 128) (s : State) : Outcome := issue (group3 d a b) (groupOp2 bfeN d a b) s
/-- gBfeI32 (R107). -/
def execGBfeI32 (d a b : Fin 128) (s : State) : Outcome := issue (group3 d a b) (groupOp2 bfeI d a b) s
/-- gPopcB32 (R106). -/
def execGPopcB32 (d a : Fin 128) (s : State) : Outcome := issue (group2 d a) (groupOp1 popcOp d a) s
/-- gClzB32 (R106). -/
def execGClzB32 (d a : Fin 128) (s : State) : Outcome := issue (group2 d a) (groupOp1 clzOp d a) s
/-- gCtzB32 (R106). -/
def execGCtzB32 (d a : Fin 128) (s : State) : Outcome := issue (group2 d a) (groupOp1 ctzOp d a) s
/-- gBrevB32 (R106). -/
def execGBrevB32 (d a : Fin 128) (s : State) : Outcome := issue (group2 d a) (groupOp1 brevOp d a) s
/-- gAddi (R104). -/
def execGAddi (d a : Fin 128) (i : BitVec 9) (s : State) : Outcome := issue (group2 d a) (groupOp1 (fun a => addOp a (imm9 i)) d a) s
/-- gMuli (R104). -/
def execGMuli (d a : Fin 128) (i : BitVec 9) (s : State) : Outcome := issue (group2 d a) (groupOp1 (fun a => mulLo a (imm9 i)) d a) s
/-- gAndi (R104). -/
def execGAndi (d a : Fin 128) (i : BitVec 9) (s : State) : Outcome := issue (group2 d a) (groupOp1 (fun a => andOp a (imm9 i)) d a) s
/-- gOri (R104). -/
def execGOri (d a : Fin 128) (i : BitVec 9) (s : State) : Outcome := issue (group2 d a) (groupOp1 (fun a => orOp a (imm9 i)) d a) s
/-- gXori (R104). -/
def execGXori (d a : Fin 128) (i : BitVec 9) (s : State) : Outcome := issue (group2 d a) (groupOp1 (fun a => xorOp a (imm9 i)) d a) s
/-- gShli (R104). -/
def execGShli (d a : Fin 128) (i : BitVec 9) (s : State) : Outcome := issue (group2 d a) (groupOp1 (fun a => shlOp a (imm9 i)) d a) s
/-- gShri (R104). -/
def execGShri (d a : Fin 128) (i : BitVec 9) (s : State) : Outcome := issue (group2 d a) (groupOp1 (fun a => shrOp a (imm9 i)) d a) s
/-- gSari (R104). -/
def execGSari (d a : Fin 128) (i : BitVec 9) (s : State) : Outcome := issue (group2 d a) (groupOp1 (fun a => sarOp a (imm9 i)) d a) s
/-- gMadB32 (R103). -/
def execGMadB32 (d a b : Fin 128) (s : State) : Outcome := issue (group3d d a b) (groupOp3 madOp d a b) s
/-- gBfiB32 (R108). -/
def execGBfiB32 (d a b : Fin 128) (s : State) : Outcome := issue (group3d d a b) (groupOp3 bfiOp d a b) s
/-- gAddB64 (R109). -/
def execGAddB64 (d a b : Fin 128) (s : State) : Outcome := issue (group3Pair d a b) (groupPair2 addPair d a b) s
/-- gSubB64 (R109). -/
def execGSubB64 (d a b : Fin 128) (s : State) : Outcome := issue (group3Pair d a b) (groupPair2 subPair d a b) s
/-- lcLo (R110). -/
def execLcLo (d : Fin 128) (i : BitVec 16) (s : State) : Outcome := issue (group2 d d) (groupOp1 (fun x => constLow x i) d d) s
/-- lcHi (R110). -/
def execLcHi (d : Fin 128) (i : BitVec 16) (s : State) : Outcome := issue (group2 d d) (groupOp1 (fun x => constHigh x i) d d) s

end Sys2Proof.Machine
end

