-- ==== Sys2Proof/Machine/Lanes.lean ====
section
/-! DEFINITION. Compares and selects (R111 to R114), byte permute and lookup (R115, R116), moves between registers (R117,
R118), and the exchange of values between lanes (R119 to R124). -/

namespace Sys2Proof.Machine

/-! ## Compare and select -/

/-- A lane compare writes a predicate in the enabled lanes (R111); a group compare writes 1 or 0 (R112). -/
def laneCmp (f : Word → Word → Bool) (d a b : Fin 128) (x : Exec) (s : State) : State :=
  s.modW fun w => w.wrP d.val x.en fun l => f (w.rdV a l) (w.rdV b l)
def cmpSig (d a b : Fin 128) : Sig := { reads := vReg a ++ vReg b, writes := pReg d.val }
def groupCmp (f : Word → Word → Bool) (d a b : Fin 128) (x : Exec) (s : State) : State :=
  groupOp2 (fun a b => boolWord (f a b)) d a b x s

/-- cmpEqB32 (R111). -/
def execCmpEqB32 (d a b : Fin 128) (s : State) : Outcome := issue (cmpSig d a b) (laneCmp eqB32 d a b) s
/-- cmpEqF32 (R111). -/
def execCmpEqF32 (d a b : Fin 128) (s : State) : Outcome := issue (cmpSig d a b) (laneCmp eqF32 d a b) s
/-- cmpNeB32 (R111). -/
def execCmpNeB32 (d a b : Fin 128) (s : State) : Outcome := issue (cmpSig d a b) (laneCmp neB32 d a b) s
/-- cmpNeF32 (R111). -/
def execCmpNeF32 (d a b : Fin 128) (s : State) : Outcome := issue (cmpSig d a b) (laneCmp neF32 d a b) s
/-- cmpLtI32 (R111). -/
def execCmpLtI32 (d a b : Fin 128) (s : State) : Outcome := issue (cmpSig d a b) (laneCmp ltI32 d a b) s
/-- cmpLtN32 (R111). -/
def execCmpLtN32 (d a b : Fin 128) (s : State) : Outcome := issue (cmpSig d a b) (laneCmp ltN32 d a b) s
/-- cmpLtF32 (R111). -/
def execCmpLtF32 (d a b : Fin 128) (s : State) : Outcome := issue (cmpSig d a b) (laneCmp ltF32 d a b) s
/-- cmpLeI32 (R111). -/
def execCmpLeI32 (d a b : Fin 128) (s : State) : Outcome := issue (cmpSig d a b) (laneCmp leI32 d a b) s
/-- cmpLeN32 (R111). -/
def execCmpLeN32 (d a b : Fin 128) (s : State) : Outcome := issue (cmpSig d a b) (laneCmp leN32 d a b) s
/-- cmpLeF32 (R111). -/
def execCmpLeF32 (d a b : Fin 128) (s : State) : Outcome := issue (cmpSig d a b) (laneCmp leF32 d a b) s
/-- gCmpEqB32 (R112). -/
def execGCmpEqB32 (d a b : Fin 128) (s : State) : Outcome := issue (group3 d a b) (groupCmp eqB32 d a b) s
/-- gCmpEqF32 (R112). -/
def execGCmpEqF32 (d a b : Fin 128) (s : State) : Outcome := issue (group3 d a b) (groupCmp eqF32 d a b) s
/-- gCmpNeB32 (R112). -/
def execGCmpNeB32 (d a b : Fin 128) (s : State) : Outcome := issue (group3 d a b) (groupCmp neB32 d a b) s
/-- gCmpNeF32 (R112). -/
def execGCmpNeF32 (d a b : Fin 128) (s : State) : Outcome := issue (group3 d a b) (groupCmp neF32 d a b) s
/-- gCmpLtI32 (R112). -/
def execGCmpLtI32 (d a b : Fin 128) (s : State) : Outcome := issue (group3 d a b) (groupCmp ltI32 d a b) s
/-- gCmpLtN32 (R112). -/
def execGCmpLtN32 (d a b : Fin 128) (s : State) : Outcome := issue (group3 d a b) (groupCmp ltN32 d a b) s
/-- gCmpLtF32 (R112). -/
def execGCmpLtF32 (d a b : Fin 128) (s : State) : Outcome := issue (group3 d a b) (groupCmp ltF32 d a b) s
/-- gCmpLeI32 (R112). -/
def execGCmpLeI32 (d a b : Fin 128) (s : State) : Outcome := issue (group3 d a b) (groupCmp leI32 d a b) s
/-- gCmpLeN32 (R112). -/
def execGCmpLeN32 (d a b : Fin 128) (s : State) : Outcome := issue (group3 d a b) (groupCmp leN32 d a b) s
/-- gCmpLeF32 (R112). -/
def execGCmpLeF32 (d a b : Fin 128) (s : State) : Outcome := issue (group3 d a b) (groupCmp leF32 d a b) s
/-- cmpiEq (R112). -/
def execCmpiEq (d a : Fin 128) (i : BitVec 9) (s : State) : Outcome := issue (group2 d a) (groupOp1 (fun a => boolWord (eqB32 a (imm9 i))) d a) s
/-- cmpiLt (R112). -/
def execCmpiLt (d a : Fin 128) (i : BitVec 9) (s : State) : Outcome := issue (group2 d a) (groupOp1 (fun a => boolWord (ltI32 a (imm9 i))) d a) s

/-- sel: the choice of a lane (R113). -/
def selLanes (d a b : Fin 128) (p : Fin 4) (x : Exec) (s : State) : State :=
  s.modW fun w => w.wrV d x.en fun l => if w.rdP p.val l then w.rdV a l else w.rdV b l

/-- sel (R113). -/
def execSel (d a b : Fin 128) (p : Fin 4) (s : State) : Outcome := issue ({ reads := vReg a ++ vReg b ++ pReg p.val, writes := vReg d }) (selLanes d a b p) s
/-- selz (R114). -/
def execSelz (d a b : Fin 128) (s : State) : Outcome := issue (group3d d a b) (groupOp3 (fun d a b => if b = 0 then a else d) d a b) s

/-! ## Byte permute and nibble lookup -/

/-- Byte i of a word. -/
def byteOf (x : Word) (i : Nat) : Nat := bitsOf x.toNat (8 * i) 8

/-- A word from its four bytes. -/
def wordFrom (f : Nat → Nat) : Word := BitVec.ofNat 32 (f 0 + 256 * f 1 + 65536 * f 2 + 16777216 * f 3)

/-- perm.b8: the selector is the old destination (R115). -/
def permOp (sel a b : Word) : Word :=
  wordFrom fun j =>
    let c := byteOf sel j
    let src := if testBit c 2 then byteOf b (c % 4) else byteOf a (c % 4)
    if testBit c 7 then 0 else if testBit c 6 then (if testBit src 7 then 255 else 0) else src

/-- The register t places above another. -/
def above (n : Fin 128) (t : Nat) : Fin 128 := ⟨(n.val + t) % 128, Nat.mod_lt _ (by decide)⟩

/-- lut.n4: the table stands in four registers from va (R116). -/
def lutLanes (d a b : Fin 128) (x : Exec) (s : State) : State :=
  s.modW fun w => w.wrV d x.en fun l => wordFrom fun j =>
    let t := byteOf (w.rdV b l) j % 16
    byteOf (w.rdV (above a (t / 4)) l) (t % 4)

/-- n registers from a first one. -/
def vSpan (a : Fin 128) (n : Nat) : List Reg := (List.range n).map fun i => .v (a.val + i)

/-- permB8 (R115). -/
def execPermB8 (d a b : Fin 128) (s : State) : Outcome := issue (lane3d d a b) (laneOp3 permOp d a b) s
/-- lutN4 (R116). -/
def execLutN4 (d a b : Fin 128) (s : State) : Outcome := issue ({ reads := vSpan a 4 ++ vReg b, writes := vReg d }) (lutLanes d a b) s

/-! ## Moves -/

/-- movB32 (R117). -/
def execMovB32 (d a : Fin 128) (s : State) : Outcome := issue (lane2 d a) (laneOp1 id d a) s
/-- movB64 (R117). -/
def execMovB64 (d a : Fin 128) (s : State) : Outcome := issue ({ reads := vPair a, writes := vPair d }) (lanePair1 id d a) s
/-- gMovB32 (R117). -/
def execGMovB32 (d a : Fin 128) (s : State) : Outcome := issue (group2 d a) (groupOp1 id d a) s
/-- gMovB64 (R117). -/
def execGMovB64 (d a : Fin 128) (s : State) : Outcome := issue ({ reads := sPair a, writes := sPair d, perLane := false }) (groupPair1 id d a) s

/-- movs: a group register in every enabled lane (R117). -/
def groupToLanes (d a : Fin 128) (x : Exec) (s : State) : State := s.modW fun w => w.wrV d x.en fun _ => s.rdS a

/-- movs (R117). -/
def execMovs (d a : Fin 128) (s : State) : Outcome := issue ({ reads := sReg a, writes := vReg d }) (groupToLanes d a) s

/-- A lane register of another lane; 0 in an inactive lane (R119). -/
def Wave.other (w : Wave) (a : Fin 128) (l : Fin 32) : Word := if w.st[l] = .inactive then 0 else w.rdV a l

/-- One lane as a mask. -/
def oneLane (l : Fin 32) : Mask := BitVec.twoPow 32 l.val

/-- rdlane (R118): long-latency, its source read when it issues (R119). -/
def rdlaneSig (d a : Fin 128) (k : Fin 16) : Sig :=
  { reads := vReg a, writes := sReg d, perLane := false, long := true, lookahead := k.val }
def rdlaneBody (d a : Fin 128) (l : Fin 32) (k : Fin 16) : Exec → State → State :=
  whenClear (vReg a) (oneLane l) fun x s => deliver (rdlaneSig d a k) x [.s d (s.w.other a l)] [] s

/-- rdlane (R118). -/
def execRdlane (d a : Fin 128) (l : Fin 32) (k : Fin 16) (s : State) : Outcome := issue (rdlaneSig d a k) (rdlaneBody d a l k) s

/-- wrlane (R118): the lane's register, unless the lane is inactive. -/
def wrlaneBody (d a : Fin 128) (l : Fin 32) : Exec → State → State :=
  whenClear (vReg d) (oneLane l) fun _ s =>
    s.modW fun w => if w.st[l] = .inactive then w else w.wrV d (oneLane l) fun _ => s.rdS a

/-- wrlane (R118). -/
def execWrlane (d a : Fin 128) (l : Fin 32) (s : State) : Outcome := issue ({ reads := sReg a, writes := vReg d, perLane := false }) (wrlaneBody d a l) s

/-- votec (R118): how many enabled lanes hold 1. -/
def votecSig (d : Fin 128) (p : Fin 8) (k : Fin 16) : Sig :=
  { reads := pReg p.val, writes := sReg d, perLane := false, long := true, lookahead := k.val }
def votecBody (d : Fin 128) (p : Fin 8) (k : Fin 16) (x : Exec) (s : State) : State :=
  let n := ((lanesOf x.en).filter fun l => s.w.rdP p.val l).length
  deliver (votecSig d p k) x [.s d (BitVec.ofNat 32 n)] [] s

/-- votec (R118). -/
def execVotec (d : Fin 128) (p : Fin 8) (k : Fin 16) (s : State) : Outcome := issue (votecSig d p k) (votecBody d p k) s

/-! ## Exchange between lanes -/

/-- How xlane names a source lane (R120). -/
inductive Reach where
  | from_
  | back
  | fwd
  | swap
  deriving DecidableEq, Repr

/-- The source lane of a lane, from the word of its vb; none where the lane receives 0 (R120). -/
def Reach.source (r : Reach) (l : Fin 32) (b : Word) : Option (Fin 32) :=
  let δ := bitsOf b.toNat 0 5
  let wrap := testBit b.toNat 5
  match r with
  | .from_ => some (Fin.ofNat 32 δ)
  | .back => if δ ≤ l.val || wrap then some (Fin.ofNat 32 (l.val + 32 - δ)) else none
  | .fwd => if l.val + δ < 32 || wrap then some (Fin.ofNat 32 (l.val + δ)) else none
  | .swap => some (Fin.ofNat 32 (l.val ^^^ δ))

/-- The source lanes of the enabled lanes. -/
def xlaneSources (r : Reach) (b : Fin 128) (en : Mask) (w : Wave) : Mask :=
  (lanesOf en).foldl (fun m l => match r.source l (w.rdV b l) with
    | some j => m ||| oneLane j
    | none => m) 0

/-- xlane (R120). -/
def xlaneBody (r : Reach) (d a b : Fin 128) (x : Exec) (s : State) : State :=
  whenClear (vReg a) (xlaneSources r b x.en s.w) (fun x s => s.modW fun w => w.wrV d x.en fun l =>
    match r.source l (w.rdV b l) with
    | some j => w.other a j
    | none => 0) x s

/-- xlaneFrom (R120). -/
def execXlaneFrom (d a b : Fin 128) (s : State) : Outcome := issue (lane3 d a b) (xlaneBody .from_ d a b) s
/-- xlaneBack (R120). -/
def execXlaneBack (d a b : Fin 128) (s : State) : Outcome := issue (lane3 d a b) (xlaneBody .back d a b) s
/-- xlaneFwd (R120). -/
def execXlaneFwd (d a b : Fin 128) (s : State) : Outcome := issue (lane3 d a b) (xlaneBody .fwd d a b) s
/-- xlaneSwap (R120). -/
def execXlaneSwap (d a b : Fin 128) (s : State) : Outcome := issue (lane3 d a b) (xlaneBody .swap d a b) s

/-- The lane below; lane 31 for lane 0. -/
def laneBelow (l : Fin 32) : Fin 32 := ⟨(l.val + 31) % 32, Nat.mod_lt _ (by decide)⟩

/-- The lanes that lsh reads: the lanes below the enabled ones in va, lane 31 in vb for lane 0 (R121). -/
def lshBody (f : Word → Word → Word) (d a b : Fin 128) (x : Exec) (s : State) : State :=
  let src := maskOf fun j => (lanesOf x.en).any fun l => l.val == j.val + 1
  let top := if bit x.en 0 then oneLane 31 else 0
  whenClear (vReg a) src (whenClear (vReg b) top fun x s => s.modW fun w => w.wrV d x.en fun l =>
    let below := if l = 0 then w.other b 31 else w.other a (laneBelow l)
    f below (w.rdV a l)) x s

/-- lshB32 (R121). -/
def execLshB32 (d a b : Fin 128) (s : State) : Outcome := issue (lane3 d a b) (lshBody (fun below _ => below) d a b) s
/-- lshB8 (R121). -/
def execLshB8 (d a b : Fin 128) (s : State) : Outcome := issue (lane3 d a b) (lshBody (fun below own => own <<< 8 ||| below >>> 24) d a b) s

/-- bcast (R122): vb holds the lane. -/
def bcastBody (d a : Fin 128) (l : Fin 32) : Exec → State → State :=
  whenClear (vReg a) (oneLane l) fun x s => s.modW fun w => w.wrV d x.en fun _ => w.other a l

/-- bcast (R122). -/
def execBcast (d a l : Fin 128) (s : State) : Outcome := issue (lane2 d a) (bcastBody d a (Fin.ofNat 32 l.val)) s

/-- wtest (R123): one answer in every enabled lane. -/
def wtestBody (f : Mask → (Fin 32 → Bool) → Bool) (d a : Fin 128) (x : Exec) (s : State) : State :=
  s.modW fun w => w.wrP d.val x.en fun _ => f x.en fun l => w.rdP a.val l
def wtestSig (d a : Fin 128) : Sig := { reads := pReg a.val, writes := pReg d.val }

/-- wtestEvery (R123). -/
def execWtestEvery (d a : Fin 128) (s : State) : Outcome := issue (wtestSig d a) (wtestBody everyLane d a) s
/-- wtestSome (R123). -/
def execWtestSome (d a : Fin 128) (s : State) : Outcome := issue (wtestSig d a) (wtestBody someLane d a) s
/-- wtestAgree (R123). -/
def execWtestAgree (d a : Fin 128) (s : State) : Outcome := issue (wtestSig d a) (wtestBody agreeLane d a) s

/-- ballot (R124). -/
def ballotBody (d a : Fin 128) (x : Exec) (s : State) : State :=
  s.modW fun w => w.wrV d x.en fun _ => x.en &&& maskOf fun l => w.rdP a.val l

/-- ballot (R124). -/
def execBallot (d a : Fin 128) (s : State) : Outcome := issue ({ reads := pReg a.val, writes := vReg d }) (ballotBody d a) s

end Sys2Proof.Machine
end

