-- ==== Sys2Proof/Machine/Control.lean ====
section
/-! DEFINITION. Control flow and reconvergence (R126 to R146), guard (R62), the fences and barriers (R204 to R207), trap, bkpt,
rett, nop, sleep, icinv and halt (R280 to R282), and the dictionary code (R51). -/

namespace Sys2Proof.Machine

/-! ## Branches, calls and returns -/

/-- The target of a G-BR instruction (R54). -/
def branchTarget (s : State) (f : BitVec 23) : DWord := s.here + f.signExtend 64 * 2

/-- A branch of the enabled lanes; a target with bits 63:56 not 0 is the address fault of the whole run (R54). -/
def branchTo (t : DWord) (x : Exec) (link : State → State) (s : State) : State :=
  if 2 ^ 56 ≤ t.toNat then faultRun x 0x10 t s
  else (link s).modW fun w => w.setPc x.en fun _ => t.setWidth 56

/-- br (R128). -/
def execBr (f : BitVec 23) (s : State) : Outcome :=
  issue controlSig (fun x s => branchTo (branchTarget s f) x id s) s

/-- The link of a call, in v14:v15 of the enabled lanes (R129). -/
def writeLink (x : Exec) (s : State) : State :=
  s.modW fun w => w.wrVV 14 x.en fun _ => (s.iss.pc + BitVec.ofNat 56 s.iss.len).setWidth 64

/-- call (R129). -/
def execCall (f : BitVec 23) (s : State) : Outcome :=
  issue controlSig (fun x s => branchTo (branchTarget s f) x (writeLink x) s) s

/-- jmp (R130): a target that is odd or above 56 bits is the address fault of the whole run. -/
def execJmp (a : Fin 128) (s : State) : Outcome :=
  issue { controlSig with reads := sPair a } (fun x s =>
    let t := s.rdSS a
    if t.getLsbD 0 then faultRun x 0x10 t s else branchTo t x id s) s

/-- ret (R131): each lane takes its own target, or faults alone. -/
def retBody (a : Fin 128) (x : Exec) (s : State) : State :=
  let target (l : Fin 32) : DWord := s.w.rdVV a l
  let bad (l : Fin 32) : Bool := (target l).getLsbD 0 || decide (2 ^ 56 ≤ (target l).toNat)
  let good := x.en &&& maskOf fun l => !bad l
  let s' := s.modW fun w => w.setPc good fun l => (target l).setWidth 56
  parkAgain x (((lanesOf x.en).filter bad).map fun l => ⟨l, 0x10, target l⟩) s'

/-- ret (R131). -/
def execRet (a : Fin 128) (s : State) : Outcome := issue { controlSig with reads := vPair a } (retBody a) s

/-! ## Barriers -/

/-- A wave of the group that counts for its barriers: neither a midge context nor ended (R206, R343). -/
def Wave.counts (w : Wave) : Bool := w.mode == .normal && !w.ended

/-- A wave no longer held by a barrier. -/
def Wave.unhold (h : Hold) (w : Wave) : Wave := if w.hold = some h then { w with hold := none } else w

/-- The group barrier completes when every wave that has not ended has arrived (R206). -/
def Group.settleBarG (g : Group) : Group :=
  if g.barG ≠ [] ∧ (g.all.filter (·.counts)).all fun w => g.barG.contains w.uid then
    { (g.mapWaves (Wave.unhold .barG)) with barG := [] }
  else g

/-- Whether a group has arrived at its cluster barrier: every wave that has not ended has issued bar.c (R207). -/
def Group.atBarC (g : Group) : Bool :=
  g.arrivedC || (g.barC != [] && (g.all.filter (·.counts)).all fun w => g.barC.contains w.uid)

/-- Whether a group is one of the cluster barrier of another: the same CLUS launch, else only itself (R207). -/
def Group.peerOf (g h : Group) : Bool :=
  g.uid == h.uid || (g.task.clus && h.task.clus && g.task.ctx == h.task.ctx && g.task.launch == h.task.launch)

/-- A group released from its cluster barrier. -/
def Group.passBarC (g : Group) : Group :=
  { (g.mapWaves (Wave.unhold .barC)) with barC := [], arrivedC := false, barsC := g.barsC + 1 }

/-- The saved groups of a die. -/
def Die.mapSaved (d : Die) (f : Group → Group) : Die := { d with saved := d.saved.map fun v => { v with group := f v.group } }

/-- Records of a launch that no group runs yet. -/
def State.unstarted (s : State) (ctx : Nat) (launch : DWord) : List Record :=
  let all := (s.die0.ready.toList ++ s.die1.ready.toList).flatten ++ s.die0.waiting ++ s.die1.waiting ++ s.cores.flatMap (·.2.local_)
  all.filter fun r => r.ctx == ctx && r.launch == launch

/-- The cluster barrier of the issuing group completes when every group of the launch has arrived or ended (R207). -/
def settleBarC (s : State) : State :=
  let g := s.grp
  let peer (h : Group) : Bool := h.peerOf g
  let done (h : Group) : Bool := h.atBarC || !h.all.any (·.counts)
  let s := s.modG fun g => { g with arrivedC := g.atBarC }
  let live := s.groups.filter peer
  let kept := (s.die0.saved ++ s.die1.saved).map (·.group)
  if live.any (·.atBarC) ∧ live.all done ∧ (kept.filter peer).all done ∧
      ¬ (g.task.clus ∧ s.unstarted g.task.ctx g.task.launch ≠ []) then
    let pass (h : Group) : Group := if peer h then h.passBarC else h
    let s := ((s.mapGroups pass).modDie 0 fun d => d.mapSaved pass).modDie 1 fun d => d.mapSaved pass
    (kept.filter peer).foldl (fun s h => refreshImage h.wave.uid s) s
  else s

/-- Both barriers of the issuing group are evaluated; a wave that has ended settles its cells and its epilogue rows are stored
(R187, R206, R207, R225). -/
def settleBarriers (s : State) : State :=
  let s := if s.w.ended then releaseWave s else s
  settleBarC (s.modG (·.settleBarG))

/-- bar.g (R206): the wave arrives. -/
def execBarG (s : State) : Outcome :=
  issue { perLane := false, kind := .effect, notInHandler := true } (fun _ s =>
    settleBarriers (s.modG fun g => { g with
      barG := g.wave.uid :: g.barG, wave := { g.wave with hold := some .barG } })) s

/-- bar.c (R207): the wave arrives for its group. -/
def execBarC (s : State) : Outcome :=
  issue { perLane := false, kind := .effect, notInHandler := true } (fun _ s =>
    settleBarriers (s.modG fun g => { g with
      barC := g.wave.uid :: g.barC, wave := { g.wave with hold := some .barC } })) s

/-! ## Exit, yield and the masks -/

/-- The control instructions that end the group in a trap handler (R409). -/
def maskSig : Sig := { controlSig with notInHandler := true }

/-- exit (R132): a wave that ends stores its epilogue rows first (R225). -/
def exitBody (x : Exec) (s : State) : State :=
  let leave (s : State) : State := settleBarriers (s.modW fun w => w.exit x.en)
  if (s.w.exit x.en).ended then afterStores false (fun _ s => leave s) x s else leave s

/-- exit (R132). -/
def execExit (s : State) : Outcome := issue maskSig exitBody s

/-- yield (R137). -/
def execYield (s : State) : Outcome :=
  issue maskSig (fun x s => s.modW fun w => { w with yieldMask := w.yieldMask ||| x.en }) s

/-- join (R139). -/
def execJoin (k : Fin 16) (s : State) : Outcome :=
  issue maskSig (fun x s => s.modW fun w => (w.wrK k.val (w.rdK k.val ||| x.en)).release k.val) s

/-- leave (R140). -/
def execLeave (k : Fin 16) (s : State) : Outcome :=
  issue maskSig (fun x s => s.modW fun w => (w.wrK k.val (w.rdK k.val &&& ~~~x.en)).release k.val) s

/-- wait (R141): the PC has advanced already. -/
def execWait (k : Fin 16) (s : State) : Outcome :=
  issue maskSig (fun x s => s.modW fun w => (w.setState x.en (.waiting k)).release k.val) s

/-- kmov (R145). -/
def execKmov (a d : Fin 16) (s : State) : Outcome :=
  issue { perLane := false, notInHandler := true } (fun _ s =>
    s.modW fun w => (w.wrK d.val (w.rdK a.val)).release d.val) s

/-- popk (R146). -/
def execPopk (d : Fin 128) (k : Fin 16) (s : State) : Outcome :=
  issue { writes := sReg d, perLane := false } (fun _ s => s.wrS d (BitVec.ofNat 32 (popMask (s.w.rdK k.val)))) s

/-- A reconvergence deadlock (R144): no lane ready or parked, one waits, nothing pending. -/
def Wave.deadlocked (w : Wave) : Bool :=
  w.pending.isEmpty && w.replay.isNone && w.chosen.isNone && w.handler.isNone && w.mode == .normal &&
    laneList.all (fun l => w.st[l] != .ready && w.st[l] != .parked) && w.present != 0

/-- The reconvergence-deadlock trap (R144): every waiting lane parks with its PC and KIDX. DESIGN CHOICE (log entry 68): %trapaddr,
which R144 does not name, takes the value of %trappc. -/
def deadlockTrap (s : State) : State :=
  let m := s.w.present
  match lowest m with
  | none => s
  | some j =>
    let w := s.w
    let addr : DWord := w.pc[j].setWidth 64
    (parkAt s.nextUid m (fun l =>
      ⟨causeWord 0x31 0 false, addr, addr, entryWord w.pc[l] w.st[l], w.guard[l], w.guard[l], true, false⟩) s).fresh

/-! ## Guard -/

/-- guard and guard.n (R62): the next n per-lane instructions of every lane of the run. -/
def openGuard (p : Fin 8) (n : Fin 16) (neg : Bool) (x : Exec) (s : State) : State :=
  s.modW fun w => w.setGuard x.run fun _ => ⟨n.val + 1, p, neg⟩

/-- guard (R62). -/
def execGuard (p : Fin 8) (n : Fin 16) (s : State) : Outcome := issue { names := pReg p.val, perLane := false } (openGuard p n false) s

/-- guard.n (R62). -/
def execGuardN (p : Fin 8) (n : Fin 16) (s : State) : Outcome := issue { names := pReg p.val, perLane := false } (openGuard p n true) s

/-! ## Fences -/

/-- A fence waits for the pending instructions of the wave whose ordering class is not none (R204). -/
def fenceSig : Sig := { perLane := false, fence := true, kind := .effect }

/-- fence.acq, fence.rel, fence.full (R204). -/
def execFenceAcq (s : State) : Outcome := issue fenceSig (fun _ s => acquireWave s) s

/-- fence.rel (R204). -/
def execFenceRel (s : State) : Outcome := issue fenceSig (afterRelease fun _ s => s) s

/-- fence.full (R204): release, then acquire. -/
def execFenceFull (s : State) : Outcome := issue fenceSig (afterRelease fun _ s => acquireWave s) s

/-! ## Traps by instruction -/

/-- trap and bkpt wait under R59 and act on the whole run. -/
def trapSig : Sig := { perLane := false, control := true }

/-- trap (R280): every lane of the run parks; the entries stand after it. -/
def execTrap (c : BitVec 8) (s : State) : Outcome :=
  issue trapSig (fun x s => park x.run (fun l =>
    ⟨causeWord 0x40 0 false, c.setWidth 64, s.here, entryWord s.w.pc[l] .ready, s.w.guard[l], s.w.guard[l], true, false⟩) s) s

/-- bkpt (R280): the entries stay at it. -/
def execBkpt (s : State) : Outcome := issue trapSig (fun x s => faultRun x 0x41 s.here s) s

/-- After a return the epilogue rows of the handler's lanes are discarded, but for the lanes that replay (R225). -/
def dropUnplayed (m : Mask) (s : State) : State :=
  match s.w.replay with
  | some r => dropRows (m &&& ~~~r.lanes) s
  | none => dropRows m s

/-- rett (R281, R411); where it ends the wave, the wave's rows are stored first, as soon as they can be (R225, R353). -/
def rettBody (x : Exec) (s : State) : State :=
  let t := dropUnplayed s.w.handlerLanes (returnFromTrap s)
  if t.w.ended then match blockedAt (ownRowWords t) s with
    | (s, true) => stallBack x s
    | (s, false) => settleBarriers (dropUnplayed s.w.handlerLanes (returnFromTrap s))
  else settleBarriers t

/-- rett (R281, R411). -/
def execRett (s : State) : Outcome :=
  issue { trapSig with handlerOnly := true }
    rettBody s

/-! ## Other system instructions -/

/-- nop (R282). -/
def execNop (s : State) : Outcome := issue { perLane := false } (fun _ s => s) s

/-- sleep (R282): no issue for that many ticks. -/
def execSleep (a : Fin 128) (s : State) : Outcome :=
  issue { reads := sReg a, perLane := false, kind := .effect } (fun _ s =>
    let n := bitsOf (s.rdS a).toNat 0 24
    if n = 0 then s else s.modW fun w => { w with hold := some (.sleep (s.clock + n)) }) s

/-- icinv (R282): the core fetches anew. -/
def execIcinv (s : State) : Outcome :=
  issue fenceSig (fun _ s => s.modCore s.coreNo fun c => { c with icache := [], icSeq := s.codeLog.length }) s

/-- halt (R282): every ready lane parks with the halt cause and no trap; the control cores resume it or cancel the group,
and the host is signalled (R429). -/
def execHalt (s : State) : Outcome :=
  issue { perLane := false, privileged := true, kind := .effect } (fun _ s =>
    (s.send (.msix 5)).modW fun w =>
      let m := w.ready
      { (w.setState m .parked) with
        halted := w.halted ||| m
        recs := Lanes.ofFn fun l => if bit m l then
            { w.recs[l] with
              cause := causeWord 0x42 0 false, addr := s.here, pc := s.here, entry := entryWord w.pc[l] .ready, passed := false
              guard := if bit w.handlerLanes l then w.recs[l].guard else w.guard[l] }
          else w.recs[l] }) s

/-! ## Dictionary codes -/

/-- A dictionary code (R51): the word of its entry executes in the same step, at the code's address with length 2. An INDEX at
or above DICTLEN, a SET or bit 30 that does not fit, and a LOOK with no field to replace are illegal instructions (R66). -/
def execDictionaryCode (set : Fin 2) (i : Fin 1024) (k : Fin 16) (s : State) : Outcome :=
  if mustWait {} s then next stall s
  else match s.grp.dict[i.val]? with
    | none => next (fun s => decodeFault 0x03 s.here s) s
    | some e => match codeWord set.val k.val e.toNat with
      | .error _ => next (fun s => decodeFault 0x03 s.here s) s
      | .ok w => next (fun s => { s with latch := some (BitVec.ofNat 32 w) }) s

end Sys2Proof.Machine
end

