-- ==== Sys2Proof/Machine/FloatOps.lean ====
section
/-! DEFINITION. The floating-point, conversion and checksum instructions (R148 to R164); the arithmetic stands in
Machine/Float.lean. -/

namespace Sys2Proof.Machine

/-! ## Arithmetic -/

/-- ffma with its destination as the addend (R150). -/
def fmaOp (r : Mode) (d a b : Word) : Word := ffma r a b d

/-- faddF32 (R150). -/
def execFaddF32 (d a b : Fin 128) (r : Fin 4) (s : State) : Outcome := issue (lane3 d a b) (laneOp2 (fadd (modeOf r)) d a b) s
/-- fsubF32 (R150). -/
def execFsubF32 (d a b : Fin 128) (r : Fin 4) (s : State) : Outcome := issue (lane3 d a b) (laneOp2 (fsub (modeOf r)) d a b) s
/-- fmulF32 (R150). -/
def execFmulF32 (d a b : Fin 128) (r : Fin 4) (s : State) : Outcome := issue (lane3 d a b) (laneOp2 (fmul (modeOf r)) d a b) s
/-- ffmaF32 (R150). -/
def execFfmaF32 (d a b : Fin 128) (r : Fin 4) (s : State) : Outcome := issue (lane3d d a b) (laneOp3 (fmaOp (modeOf r)) d a b) s
/-- gFaddF32 (R150). -/
def execGFaddF32 (d a b : Fin 128) (r : Fin 4) (s : State) : Outcome := issue (group3 d a b) (groupOp2 (fadd (modeOf r)) d a b) s
/-- gFsubF32 (R150). -/
def execGFsubF32 (d a b : Fin 128) (r : Fin 4) (s : State) : Outcome := issue (group3 d a b) (groupOp2 (fsub (modeOf r)) d a b) s
/-- gFmulF32 (R150). -/
def execGFmulF32 (d a b : Fin 128) (r : Fin 4) (s : State) : Outcome := issue (group3 d a b) (groupOp2 (fmul (modeOf r)) d a b) s
/-- gFfmaF32 (R150). -/
def execGFfmaF32 (d a b : Fin 128) (r : Fin 4) (s : State) : Outcome := issue (group3d d a b) (groupOp3 (fmaOp (modeOf r)) d a b) s
/-- fminF32 (R151). -/
def execFminF32 (d a b : Fin 128) (s : State) : Outcome := issue (lane3 d a b) (laneOp2 fminOp d a b) s
/-- fminNumF32 (R151). -/
def execFminNumF32 (d a b : Fin 128) (s : State) : Outcome := issue (lane3 d a b) (laneOp2 fminNum d a b) s
/-- fmaxF32 (R151). -/
def execFmaxF32 (d a b : Fin 128) (s : State) : Outcome := issue (lane3 d a b) (laneOp2 fmaxOp d a b) s
/-- fmaxNumF32 (R151). -/
def execFmaxNumF32 (d a b : Fin 128) (s : State) : Outcome := issue (lane3 d a b) (laneOp2 fmaxNum d a b) s
/-- fabsF32 (R152). -/
def execFabsF32 (d a : Fin 128) (s : State) : Outcome := issue (lane2 d a) (laneOp1 fabsOp d a) s
/-- fnegF32 (R152). -/
def execFnegF32 (d a : Fin 128) (s : State) : Outcome := issue (lane2 d a) (laneOp1 fnegOp d a) s
/-- fcopysignF32 (R152). -/
def execFcopysignF32 (d a b : Fin 128) (s : State) : Outcome := issue (lane3 d a b) (laneOp2 fcopysignOp d a b) s

/-! ## Square root and approximations -/

/-- A long-latency lane form of one source (R153). -/
def longSig (d a : Fin 128) (l : Fin 16) : Sig := { lane2 d a with long := true, lookahead := l.val }
def longOp (f : Word → Word) (d a : Fin 128) (l : Fin 16) (x : Exec) (s : State) : State :=
  deliver (longSig d a l) x [.v d x.en (Lanes.ofFn fun i => f (s.w.rdV a i))] [] s

/-- frcpF32 (R154). -/
def execFrcpF32 (d a : Fin 128) (l : Fin 16) (s : State) : Outcome := issue (longSig d a l) (longOp frcpOp d a l) s
/-- frsqF32 (R154). -/
def execFrsqF32 (d a : Fin 128) (l : Fin 16) (s : State) : Outcome := issue (longSig d a l) (longOp frsqOp d a l) s
/-- fexp2F32 (R154). -/
def execFexp2F32 (d a : Fin 128) (l : Fin 16) (s : State) : Outcome := issue (longSig d a l) (longOp fexp2Op d a l) s
/-- flog2F32 (R154). -/
def execFlog2F32 (d a : Fin 128) (l : Fin 16) (s : State) : Outcome := issue (longSig d a l) (longOp flog2Op d a l) s
/-- fsinF32 (R154). -/
def execFsinF32 (d a : Fin 128) (l : Fin 16) (s : State) : Outcome := issue (longSig d a l) (longOp fsinOp d a l) s
/-- fcosF32 (R154). -/
def execFcosF32 (d a : Fin 128) (l : Fin 16) (s : State) : Outcome := issue (longSig d a l) (longOp fcosOp d a l) s
/-- fsqrtF32 (R154). -/
def execFsqrtF32 (d a : Fin 128) (r : Fin 4) (l : Fin 16) (s : State) : Outcome := issue (longSig d a l) (longOp (fsqrtOp (modeOf r)) d a l) s

/-! ## Conversions -/

/-- Element e, w bits wide, of an operand that starts at a lane register (R157). -/
def element (wv : Wave) (a : Fin 128) (w e : Nat) (l : Fin 32) : Nat :=
  bitsOf (wv.rdV (above a (e * w / 32)) l).toNat (e * w % 32) w

/-- A conversion of n elements in every enabled lane; every source is read first (R148, R158). -/
def cvtBody (d a : Fin 128) (y x : Nat) (r : Mode) (e : Exec) (s : State) : State :=
  let n := cvtCount x y
  let wy := fmtWidth y
  let dst (i : Nat) (l : Fin 32) : Word :=
    BitVec.ofNat 32 ((List.range (32 / wy)).foldl (fun z j =>
      let k := i * (32 / wy) + j
      if k < n then z + convert x y r (element s.w a (fmtWidth x) k l) * 2 ^ (wy * j) else z) 0)
  s.modW fun w => (List.range (n * wy / 32)).foldl (fun w i => w.wrV (above d i) e.en (dst i)) w

/-- The registers that a conversion names (R157). -/
def cvtSig (d a : Fin 128) (y x : Nat) : Sig :=
  { reads := vSpan a (cvtCount x y * fmtWidth x / 32), writes := vSpan d (cvtCount x y * fmtWidth y / 32) }

/-- cvtf (R158). -/
def execCvtf (d a : Fin 128) (y x : Fin 8) (r : Fin 4) (s : State) : Outcome := issue (cvtSig d a y.val x.val) (cvtBody d a y.val x.val (modeOf r)) s
/-- cvti (R158). -/
def execCvti (d a : Fin 128) (y x : Fin 8) (r : Fin 4) (s : State) : Outcome := issue (cvtSig d a y.val x.val) (cvtBody d a y.val x.val (modeOf r)) s

/-! ## Shared-exponent blocks -/

/-- The lanes below a count. -/
def lanesBelow (n : Nat) : Mask := maskOf fun l => decide (l.val < n)

/-- sbpack (R159): two blocks over the lanes; an inactive lane contributes +0. -/
def sbpackBody (k : Nat) (d a : Fin 128) : Exec → State → State :=
  whenClear (vReg a) (~~~0#32) fun x s =>
    let xs := laneList.map fun l => (s.w.other a l).toNat
    let b := sbBytes k
    let stream := sbEncode k (xs.take 16) + sbEncode k (xs.drop 16) * 2 ^ (8 * b)
    s.modW fun w => w.wrV d x.en fun l => if 4 * l.val < 2 * b then BitVec.ofNat 32 (bitsOf stream (32 * l.val) 32) else 0

/-- sbunp (R160): the stream stands in the lowest lanes. -/
def sbunpBody (k : Nat) (d a : Fin 128) : Exec → State → State :=
  let b := sbBytes k
  let n := (2 * b + 3) / 4
  whenClear (vReg a) (lanesBelow n) fun x s =>
    let stream := (laneList.take n).foldr (fun l z => (s.w.other a l).toNat + z * 2 ^ 32) 0
    s.modW fun w => w.wrV d x.en fun l =>
      toF32 .nearest (sbValue k (bitsOf stream (8 * b * (l.val / 16)) (8 * b)) (l.val % 16))

/-- sbpackSb3 (R159). -/
def execSbpackSb3 (d a : Fin 128) (s : State) : Outcome := issue (lane2 d a) (sbpackBody 2 d a) s
/-- sbpackSb5 (R159). -/
def execSbpackSb5 (d a : Fin 128) (s : State) : Outcome := issue (lane2 d a) (sbpackBody 4 d a) s
/-- sbpackSb8 (R159). -/
def execSbpackSb8 (d a : Fin 128) (s : State) : Outcome := issue (lane2 d a) (sbpackBody 7 d a) s
/-- sbunpSb3 (R160). -/
def execSbunpSb3 (d a : Fin 128) (s : State) : Outcome := issue (lane2 d a) (sbunpBody 2 d a) s
/-- sbunpSb5 (R160). -/
def execSbunpSb5 (d a : Fin 128) (s : State) : Outcome := issue (lane2 d a) (sbunpBody 4 d a) s
/-- sbunpSb8 (R160). -/
def execSbunpSb8 (d a : Fin 128) (s : State) : Outcome := issue (lane2 d a) (sbunpBody 7 d a) s

/-! ## Checksum invariants -/

/-- One word folded into an invariant (R161). -/
def foldWord (h : DWord) (x : Word) : DWord := pairOf (loWord h + x) ((hiWord h).rotateLeft 1 ^^^ x)

/-- A checksum register. -/
def Wave.rdH (w : Wave) (h : Nat) : DWord := if i : h < 4 then w.h[h] else 0

/-- A checksum register written. -/
def Wave.wrH (w : Wave) (h : Nat) (x : DWord) : Wave := if i : h < 4 then { w with h := w.h.set h x } else w

/-- ck.acc (R161): the words of the enabled lanes in ascending lane order. -/
def ckAccBody (h : Fin 128) (words : Wave → Fin 32 → List Word) (x : Exec) (s : State) : State :=
  s.modW fun w => w.wrH h.val (((lanesOf x.en).flatMap (words w)).foldl foldWord (w.rdH h.val))

/-- ckAccB32 (R161). -/
def execCkAccB32 (h a : Fin 128) (s : State) : Outcome := issue ({ reads := vReg a }) (ckAccBody h fun w l => [w.rdV a l]) s
/-- ckAccB64 (R161). -/
def execCkAccB64 (h a : Fin 128) (s : State) : Outcome := issue ({ reads := vPair a }) (ckAccBody h fun w l => [w.rdV a l, w.rdV (odd a) l]) s

/-- The bits that a mode of ck.chk compares (R163). -/
def chkMask (m : Nat) : DWord := if m = 1 then 0xFFFFFFFF else if m = 2 then 0xFFFFFFFF00000000 else ~~~0

/-- ck.chk (R164): a difference parks the run past the instruction. -/
def ckChkBody (m b a : Nat) (x : Exec) (s : State) : State :=
  let d := s.w.rdH a ^^^ s.w.rdH b
  if d &&& chkMask m = 0 then s
  else park x.run (fun l => ⟨causeWord 0x30 0 false, d, s.here, entryWord s.w.pc[l] .ready, s.w.guard[l], s.w.guard[l], true, true⟩) s

/-- ckChk (R164). -/
def execCkChk (m b : Fin 4) (a : Fin 16) (s : State) : Outcome := issue ({ perLane := false }) (ckChkBody m.val b.val a.val) s

end Sys2Proof.Machine
end

