-- ==== Sys2Proof/Machine/Memory.lean ====
section
/-! DEFINITION. The memory access instructions (R166 to R188). -/

namespace Sys2Proof.Machine

/-! ## Global loads -/

/-- A global load of a lane register or pair (R166). -/
def ldSig (dst : List Reg) (a : Fin 128) (b : Fin 32) (l : Fin 16) : Sig :=
  { reads := vReg a ++ sPair (baseReg b), writes := dst, long := true, lookahead := l.val, ordered := true, kind := .memory }

/-- A global load of z bytes in each lane (R168 to R171). -/
def ldBody (g : Sig) (z : Nat) (wr : List (Fin 32 × Nat) → List RegWrite) (a : Fin 128) (b : Fin 32) (x : Exec) (s : State) :
    State :=
  laneAccess g { size := z, access := .load } (laneAddr s (baseReg b) a) (loadPre z) (fun gs s =>
    let (s, xs, bad) := loadLanes z gs s
    (s, wr xs, bad)) x s

/-- A byte or halfword with its sign or with zeros (R171). -/
def zeroExt (x : Nat) : Word := BitVec.ofNat 32 x
def signExt8 (x : Nat) : Word := (BitVec.ofNat 8 x).signExtend 32

/-- ldN8 (R171). -/
def execLdN8 (d a : Fin 128) (b : Fin 32) (l : Fin 16) (s : State) : Outcome :=
  issue (ldSig (vReg d) a b l) (ldBody (ldSig (vReg d) a b l) 1 (vWrite d zeroExt) a b) s
/-- ldI8 (R171). -/
def execLdI8 (d a : Fin 128) (b : Fin 32) (l : Fin 16) (s : State) : Outcome :=
  issue (ldSig (vReg d) a b l) (ldBody (ldSig (vReg d) a b l) 1 (vWrite d signExt8) a b) s
/-- ldN16 (R171). -/
def execLdN16 (d a : Fin 128) (b : Fin 32) (l : Fin 16) (s : State) : Outcome :=
  issue (ldSig (vReg d) a b l) (ldBody (ldSig (vReg d) a b l) 2 (vWrite d zeroExt) a b) s
/-- ldB32 (R171). -/
def execLdB32 (d a : Fin 128) (b : Fin 32) (l : Fin 16) (s : State) : Outcome :=
  issue (ldSig (vReg d) a b l) (ldBody (ldSig (vReg d) a b l) 4 (vWrite d zeroExt) a b) s
/-- ldB64 (R171). -/
def execLdB64 (d a : Fin 128) (b : Fin 32) (l : Fin 16) (s : State) : Outcome :=
  issue (ldSig (vPair d) a b l) (ldBody (ldSig (vPair d) a b l) 8 (vvWrite d) a b) s

/-- Read-only loads of n words in each lane (R174), with the first that is poisoned and those read afresh. -/
def roWords (g : Agent) : List Nat → State → State × List Word × Option Nat × List Nat
  | [], s => (s, [], none, [])
  | a :: t, s =>
    let (s, x, bad, new) := loadRo g a s
    let (s, xs, bad', news) := roWords g t s
    (s, x :: xs, if bad then some a else bad', new ++ news)

/-- The read-only loads of an instruction in ascending lane order, and the words read afresh. -/
def takeRoLanes (z : Nat) : List (Fin 32 × DWord × Nat × Bool) → State →
    State × List Nat × List (Fin 32 × Nat) × List Poisoned
  | [], s => (s, [], [], [])
  | (l, va, pa, _) :: t, s =>
    let (s, ws, bad, new) := roWords s.reader (wordsOf pa z) s
    let (s, news, xs, bs) := takeRoLanes z t s
    match bad with
    | some w => (s, new ++ news, xs, (l, poisonedAt va pa w) :: bs)
    | none => (s, new ++ news, (l, leNat (ws.flatMap fun x => leBytes 4 x.toNat)) :: xs, bs)

/-- The read-only loads of an instruction, with one count for each of its line requests (R173, R369). -/
def roLanes (z : Nat) (gs : List (Fin 32 × DWord × Nat × Bool)) (s : State) : State × List (Fin 32 × Nat) × List Poisoned :=
  let (s, new, r) := takeRoLanes z gs s
  (countMissing s.reader new.dedup s, r)

/-- A read-only load (R174). -/
def ldRoBody (g : Sig) (z : Nat) (wr : List (Fin 32 × Nat) → List RegWrite) (a : Fin 128) (b : Fin 32) (x : Exec) (s : State) :
    State :=
  laneAccess g { size := z, access := .load } (laneAddr s (baseReg b) a) noPre (fun gs s =>
    let (s, xs, bad) := roLanes z gs s
    (s, wr xs, bad)) x s

/-- ldRoB32 (R174). -/
def execLdRoB32 (d a : Fin 128) (b : Fin 32) (l : Fin 16) (s : State) : Outcome :=
  issue (ldSig (vReg d) a b l) (ldRoBody (ldSig (vReg d) a b l) 4 (vWrite d zeroExt) a b) s
/-- ldRoB64 (R174). -/
def execLdRoB64 (d a : Fin 128) (b : Fin 32) (l : Fin 16) (s : State) : Outcome :=
  issue (ldSig (vPair d) a b l) (ldRoBody (ldSig (vPair d) a b l) 8 (vvWrite d) a b) s

/-! ## Global stores -/

/-- A global form with no pending destination (R166). -/
def stSig (src : List Reg) (a : Fin 128) (b : Fin 32) : Sig :=
  { reads := src ++ vReg a ++ sPair (baseReg b), addr := some (vReg a ++ sPair (baseReg b)), long := true, ordered := true, kind := .store }

/-- The low z bytes of a lane register, and the eight of a pair (R171). -/
def vBytes (s : State) (v : Fin 128) (z : Nat) (l : Fin 32) : List Byte := leBytes z (s.w.rdV v l).toNat
def vvBytes (s : State) (v : Fin 128) (l : Fin 32) : List Byte := leBytes 8 (s.w.rdVV v l).toNat

/-- A global store of z bytes in each lane (R168 to R171). -/
def stBody (g : Sig) (z : Nat) (f : State → Fin 32 → List Byte) (a : Fin 128) (b : Fin 32) (x : Exec) (s : State) : State :=
  laneAccess g { size := z, access := .store, inBuffer := true } (laneAddr s (baseReg b) a) storePre
    (fun gs s => (storeLanes (f s) gs s, [], [])) x s

/-- stB8 (R171). -/
def execStB8 (v a : Fin 128) (b : Fin 32) (s : State) : Outcome :=
  issue (stSig (vReg v) a b) (stBody (stSig (vReg v) a b) 1 (fun s => vBytes s v 1) a b) s
/-- stB16 (R171). -/
def execStB16 (v a : Fin 128) (b : Fin 32) (s : State) : Outcome :=
  issue (stSig (vReg v) a b) (stBody (stSig (vReg v) a b) 2 (fun s => vBytes s v 2) a b) s
/-- stB32 (R171). -/
def execStB32 (v a : Fin 128) (b : Fin 32) (s : State) : Outcome :=
  issue (stSig (vReg v) a b) (stBody (stSig (vReg v) a b) 4 (fun s => vBytes s v 4) a b) s
/-- stB64 (R171). -/
def execStB64 (v a : Fin 128) (b : Fin 32) (s : State) : Outcome :=
  issue (stSig (vPair v) a b) (stBody (stSig (vPair v) a b) 8 (fun s => vvBytes s v) a b) s

/-- A non-temporal store of one lane (R175): in a replayable node into the shadow (R306), on a non-coherent page straight to the
home slice, else held until it performs. -/
def ntOne (va : DWord) (pa : Nat) (nc : Bool) (bs : List Byte) (s : State) : State :=
  if s.grp.task.repl then storeOne va pa nc bs s
  else if nc then sendWrite s.w.uid pa bs (updateCopy s.coreNo pa bs false (homeQuiet pa bs (writeBackRange s.coreNo pa bs.length s)))
  else s.modW fun w => { w with nt := w.nt ++ [⟨pa, bs⟩] }

/-- st.nt (R175): the stores are held; when they perform before a drain is the device's choice. -/
def ntBody (g : Sig) (z : Nat) (f : State → Fin 32 → List Byte) (a : Fin 128) (b : Fin 32) (x : Exec) (s : State) : State :=
  laneAccess g { size := z, access := .store, inBuffer := true } (laneAddr s (baseReg b) a) noPre
    (fun gs s => (gs.foldl (fun t e => ntOne e.2.1 e.2.2.1 e.2.2.2 (f s e.1) t) s, [], [])) x s

/-- stNtB32 (R175). -/
def execStNtB32 (v a : Fin 128) (b : Fin 32) (s : State) : Outcome :=
  issue (stSig (vReg v) a b) (ntBody (stSig (vReg v) a b) 4 (fun s => vBytes s v 4) a b) s
/-- stNtB64 (R175). -/
def execStNtB64 (v a : Fin 128) (b : Fin 32) (s : State) : Outcome :=
  issue (stSig (vPair v) a b) (ntBody (stSig (vPair v) a b) 8 (fun s => vvBytes s v) a b) s
/-- drainNt (R175). -/
def execDrainNt  (s : State) : Outcome :=
  issue ({ perLane := false, kind := .effect }) (fun x s => match blockedAt (ntWords s) s with
    | (s, true) => stallBack x s
    | (s, false) => drainNt s) s

/-! ## Tentative stores -/

/-- tst, retract and settle are aligned words of coherent pages, which a replayable node may not change (R183, R306). -/
def cellNeed (a : Access) (forbid : Bool) : Need := { size := 4, access := a, coherent := true, forbid := forbid }

/-- tst (R185): one cell for each word, with the highest lane's value. -/
def tstBody (g : Sig) (v a : Fin 128) (b : Fin 32) (x : Exec) (s : State) : State :=
  laneAccess g (cellNeed .store true) (laneAddr s (baseReg b) a) noPre (fun gs s =>
    ((lastPerWord gs).foldl (fun t e => tstOne e (s.w.rdV v e.1) t) s, [], [])) x s

/-- tst (R185). -/
def execTst (v a : Fin 128) (b : Fin 32) (s : State) : Outcome :=
  issue (stSig (vReg v) a b) (tstBody (stSig (vReg v) a b) v a b) s

/-- retract (R186): each word once; every lane of a word receives its code. -/
def retractBody (g : Sig) (p a : Fin 128) (b : Fin 32) (x : Exec) (s : State) : State :=
  laneAccess g (cellNeed .store true) (laneAddr s (baseReg b) a) noPre (fun gs s =>
    let bad := gs.filter fun e => s.marked (wordOf e.2.2.1)
    let gs := gs.filter fun e => !s.marked (wordOf e.2.2.1)
    let (s, codes) := retractWords (lastPerWord gs) s
    let cs := (gs.filter fun e => (codes.any fun c => c.1 == e.2.2.1)).map fun e => (e.1, look codes e.2.2.1 2)
    let m := maskFrom cs
    let zero := maskOf fun l => cs.any fun e => e.1 == l && e.2 == 0
    (s, [.p p.val m zero, .retcode m (lanesFrom 0 (cs.map fun e => (e.1, BitVec.ofNat 2 e.2)))],
      bad.map fun e => (e.1, poisonedAt e.2.1 e.2.2.1 (wordOf e.2.2.1)))) x s
def retractSig (p a : Fin 128) (b : Fin 32) (l : Fin 16) : Sig :=
  { reads := vReg a ++ sPair (baseReg b), writes := pReg p.val ++ [.retcode], long := true, lookahead := l.val,
    ordered := true, kind := .store }

/-- retract (R186). -/
def execRetract (p a : Fin 128) (b : Fin 32) (l : Fin 16) (s : State) : Outcome :=
  issue (retractSig p a b l) (retractBody (retractSig p a b l) p a b) s

/-- settle (R187). -/
def settleBody (g : Sig) (a : Fin 128) (b : Fin 32) (x : Exec) (s : State) : State :=
  laneAccess g (cellNeed .load false) (laneAddr s (baseReg b) a) noPre (fun gs s =>
    (gs.foldl (fun s e => homeSettle s.w.uid e.2.2.1 s) s, [], [])) x s

/-- settle (R187). -/
def execSettle (a : Fin 128) (b : Fin 32) (s : State) : Outcome :=
  issue ({ stSig [] a b with ordered := false }) (settleBody { stSig [] a b with ordered := false } a b) s
/-- settleAll (R187). -/
def execSettleAll  (s : State) : Outcome :=
  issue ({ perLane := false, kind := .effect }) (fun _ s => settleWave s.w.uid s) s

/-! ## Scratch -/

/-- The base register of a scratch lane form (R166). -/
def scratchBase (b : Fin 32) : Fin 128 := ⟨b.val, by omega⟩

/-- A scratch load and a scratch store (R166). -/
def ldsSig (dst : List Reg) (a : Fin 128) (b : Fin 32) (l : Fin 16) : Sig :=
  { reads := vReg a ++ sReg (scratchBase b), writes := dst, long := true, lookahead := l.val, kind := .memory }
def stsSig (src : List Reg) (a : Fin 128) (b : Fin 32) : Sig :=
  { reads := src ++ vReg a ++ sReg (scratchBase b), long := true, kind := .effect }

/-- ldsN8 (R171). -/
def execLdsN8 (d a : Fin 128) (b : Fin 32) (l : Fin 16) (s : State) : Outcome :=
  issue (ldsSig (vReg d) a b l) (fun x s => scratchLoad (ldsSig (vReg d) a b l) 1 (laneOffset s (scratchBase b) a) (vWrite d zeroExt) x s) s
/-- ldsN16 (R171). -/
def execLdsN16 (d a : Fin 128) (b : Fin 32) (l : Fin 16) (s : State) : Outcome :=
  issue (ldsSig (vReg d) a b l) (fun x s => scratchLoad (ldsSig (vReg d) a b l) 2 (laneOffset s (scratchBase b) a) (vWrite d zeroExt) x s) s
/-- ldsB32 (R171). -/
def execLdsB32 (d a : Fin 128) (b : Fin 32) (l : Fin 16) (s : State) : Outcome :=
  issue (ldsSig (vReg d) a b l) (fun x s => scratchLoad (ldsSig (vReg d) a b l) 4 (laneOffset s (scratchBase b) a) (vWrite d zeroExt) x s) s
/-- ldsB64 (R171). -/
def execLdsB64 (d a : Fin 128) (b : Fin 32) (l : Fin 16) (s : State) : Outcome :=
  issue (ldsSig (vPair d) a b l) (fun x s => scratchLoad (ldsSig (vPair d) a b l) 8 (laneOffset s (scratchBase b) a) (vvWrite d) x s) s
/-- stsB8 (R171). -/
def execStsB8 (v a : Fin 128) (b : Fin 32) (s : State) : Outcome :=
  issue (stsSig (vReg v) a b) (fun x s => scratchStores (stsSig (vReg v) a b) 1 (laneOffset s (scratchBase b) a) (vBytes s v 1) x s) s
/-- stsB16 (R171). -/
def execStsB16 (v a : Fin 128) (b : Fin 32) (s : State) : Outcome :=
  issue (stsSig (vReg v) a b) (fun x s => scratchStores (stsSig (vReg v) a b) 2 (laneOffset s (scratchBase b) a) (vBytes s v 2) x s) s
/-- stsB32 (R171). -/
def execStsB32 (v a : Fin 128) (b : Fin 32) (s : State) : Outcome :=
  issue (stsSig (vReg v) a b) (fun x s => scratchStores (stsSig (vReg v) a b) 4 (laneOffset s (scratchBase b) a) (vBytes s v 4) x s) s
/-- stsB64 (R171). -/
def execStsB64 (v a : Fin 128) (b : Fin 32) (s : State) : Outcome :=
  issue (stsSig (vPair v) a b) (fun x s => scratchStores (stsSig (vPair v) a b) 8 (laneOffset s (scratchBase b) a) (vvBytes s v) x s) s

/-! ## Group forms -/

/-- The address of a group form (R168). -/
def groupAddr (s : State) (a : Fin 128) (i : BitVec 9) : DWord := s.rdSS a + i.signExtend 64

/-- The registers of a group load and of a group store (R167). -/
def ldgSig (dst : List Reg) (a : Fin 128) : Sig := { reads := sPair a, writes := dst, perLane := false, ordered := true, kind := .memory }
def stgSig (src : List Reg) (a : Fin 128) : Sig := { reads := src ++ sPair a, addr := some (sPair a), perLane := false, ordered := true, kind := .store }

/-- A group load of a word (R171). -/
def ldgBody (g : Sig) (z : Nat) (wr : Nat → List RegWrite) (a : Fin 128) (i : BitVec 9) (x : Exec) (s : State) : State :=
  groupAccess g { size := z, access := .load } (groupAddr s a i) (loadPre z) (fun pa nc s =>
    let (s, v, bad) := loadNum s.reader s.coreNo nc pa z s
    (s, wr v, bad)) x s

/-- A group store (R171). -/
def stgBody (g : Sig) (z : Nat) (f : State → List Byte) (a : Fin 128) (i : BitVec 9) (x : Exec) (s : State) : State :=
  groupAccess g { size := z, access := .store, inBuffer := true } (groupAddr s a i) storePre (fun pa nc s =>
    (storeOne (groupAddr s a i) pa nc (f s) s, [], none)) x s

/-- A group pair written by a load. -/
def ssWrite (d : Fin 128) (x : Nat) : List RegWrite := [.s d (BitVec.ofNat 32 x), .s (odd d) (BitVec.ofNat 32 (x / 2 ^ 32))]

/-- ldgB32 (R171). -/
def execLdgB32 (d a : Fin 128) (i : BitVec 9) (s : State) : Outcome :=
  issue (ldgSig (sReg d) a) (ldgBody (ldgSig (sReg d) a) 4 (fun x => [.s d (BitVec.ofNat 32 x)]) a i) s
/-- ldgB64 (R171). -/
def execLdgB64 (d a : Fin 128) (i : BitVec 9) (s : State) : Outcome :=
  issue (ldgSig (sPair d) a) (ldgBody (ldgSig (sPair d) a) 8 (ssWrite d) a i) s
/-- stgB32 (R171). -/
def execStgB32 (d a : Fin 128) (i : BitVec 9) (s : State) : Outcome :=
  issue (stgSig (sReg d) a) (stgBody (stgSig (sReg d) a) 4 (fun s => leBytes 4 (s.rdS d).toNat) a i) s
/-- stgB64 (R171). -/
def execStgB64 (d a : Fin 128) (i : BitVec 9) (s : State) : Outcome :=
  issue (stgSig (sPair d) a) (stgBody (stgSig (sPair d) a) 8 (fun s => leBytes 8 (s.rdSS d).toNat) a i) s

/-- The scratch offset of a group form (R168). -/
def groupOffset (s : State) (a : Fin 128) (i : BitVec 9) : Nat := (s.rdS a + i.signExtend 32).toNat

/-- A group scratch access, held behind a pending one that it overlaps, or its fault for the whole run (R168, R169, R288). -/
def groupScratch (k : Kind) (a : Fin 128) (i : BitVec 9) (act : Nat → Exec → State → State) (x : Exec) (s : State) : State :=
  let off := groupOffset s a i
  match scratchFault s off 4 with
  | some c => replayRun x c (BitVec.ofNat 64 off) s
  | none => if heldBehind (Sig.over { kind := k } 2 4 ((lanesOf x.run).map fun l => (l, off))) s then stallBack x s else act off x s

/-- ldsg: a poisoned word faults (R406). -/
def ldsgAct (d : Fin 128) (off : Nat) (x : Exec) (s : State) : State :=
  if s.w.mode = .ahead then markUnknown (sReg d) s
  else if scratchBad s off 4 then
    let (s, fs) := poisonFaults 3 (poisonedRun x.run (BitVec.ofNat 64 off) off) s
    parkRestart x fs s
  else s.wrS d (BitVec.ofNat 32 (leNat (s.grp.scratch.bytes off 4)))

/-- ldsgB32 (R171). -/
def execLdsgB32 (d a : Fin 128) (i : BitVec 9) (s : State) : Outcome :=
  issue ({ reads := sReg a, writes := sReg d, perLane := false, kind := .memory }) (groupScratch .memory a i (ldsgAct d)) s
/-- stsgB32 (R171). -/
def execStsgB32 (d a : Fin 128) (i : BitVec 9) (s : State) : Outcome :=
  issue ({ reads := sReg d ++ sReg a, perLane := false, kind := .effect }) (groupScratch .store a i fun off _ s => scratchStore off (leBytes 4 (s.rdS d).toNat) s) s

/-! ## Software-managed regions -/

/-- A virtual range in pieces that each lie in one 512 KiB granule. -/
def pieces : Nat → Nat → Nat → List (Nat × Nat)
  | 0, _, _ => []
  | fuel + 1, a, n =>
    if n = 0 then []
    else
      let k := min n (2 ^ 19 - a % 2 ^ 19)
      (a, k) :: pieces fuel (a + k) (n - k)

/-- The pieces of a range of n bytes. -/
def piecesOf (a n : Nat) : List (Nat × Nat) := pieces (n / 2 ^ 19 + 2) a n

/-- The physical ranges of the mapped pieces of a virtual range, or none where a look-up waits; an unmapped piece holds nothing in L1 (R178). -/
def rangePages : List (Nat × Nat) → State → State × Option (List (Nat × Nat))
  | [], s => (s, some [])
  | p :: t, s =>
    match lookPage (.core s.coreNo) s.ctxNo .load p.1 s with
    | (s, .wait) => (s, none)
    | (s, .fault _ _ _) => rangePages t s
    | (s, .entry e) => match rangePages t s with
      | (s, some rs) => (s, some ((e.pa + (p.1 - e.page), p.2) :: rs))
      | r => r

/-- The words of a core's L1 in some ranges that hold dirty bytes. -/
def dirtyWords (core : Nat) (rs : List (Nat × Nat)) (s : State) : List Nat :=
  (s.core core).l1.flatMap fun l => if l.nc then (l.words.filter fun w => w.2.dirty != 0 && (List.range 4).any fun i => within rs (w.1 + i)).map (·.1) else []

/-- wb.range and inv.range (R177, R178): they wait for translations, and for the lines of host memory that dirty bytes go to. -/
def rangeBody (op : Nat → Nat → Nat → State → State) (a b : Fin 128) (x : Exec) (s : State) : State :=
  let p := s.rdSS a
  if 2 ^ 56 ≤ p.toNat then replayRun x 0x10 p s
  else match rangePages (piecesOf p.toNat (min (s.rdS b).toNat (2 ^ 56 - p.toNat))) s with
    | (s, none) => stallBack x s
    | (s, some rs) => match waitLines (dirtyWords s.coreNo rs s) s with
      | (s, true) => stallBack x s
      | (s, false) => rs.foldl (fun s r => op s.coreNo r.1 r.2 s) s
def rangeSig (a b : Fin 128) : Sig := { reads := sPair a ++ sReg b, perLane := false, ordered := true, kind := .effect }

/-- wbRange (R177). -/
def execWbRange (a b : Fin 128) (s : State) : Outcome :=
  issue (rangeSig a b) (rangeBody writeBackRange a b) s
/-- invRange (R178). -/
def execInvRange (a b : Fin 128) (s : State) : Outcome :=
  issue (rangeSig a b) (rangeBody invalidateRange a b) s

/-! ## Copies into scratch -/

/-- The tags that the group holds, as far as a mask names them. -/
def heldTags (s : State) (m : DWord) : DWord := m &&& s.grp.tags

/-- The lowest tag of a mask (R181). -/
def lowTag (m : DWord) : Option Nat := (List.range 64).find? fun i => m.getLsbD i

/-- The fault of a copy request (R179): the lowest cause with the address it presents. -/
def copyFault (s : State) (src d : DWord) : Option (Nat × DWord) :=
  let soff := bitsOf d.toNat 0 32
  let len := bitsOf d.toNat 32 24
  let tag := bitsOf d.toNat 56 6
  if 2 ^ 56 ≤ src.toNat then some (0x10, src)
  else if scratchOf s.grp.allot * 4096 < soff + len then some (0x12, BitVec.ofNat 64 soff)
  else if src.toNat % 4 ≠ 0 ∨ soff % 4 ≠ 0 ∨ len % 4 ≠ 0 ∨ len < 4 ∨ 262144 < len ∨ 2 ^ 62 ≤ d.toNat then some (0x21, s.here)
  else if s.grp.tags.getLsbD tag then none else some (0x22, s.here)

/-- cp.sc (R179, R180): the copy starts, and its tag's bit clears; a sixteenth copy on a tag waits. Its source loads come after every earlier
store of the wave (R290), and it is held behind a pending access of its source or its scratch bytes (R288). -/
def cpScBody (a b : Fin 128) (x : Exec) (s : State) : State :=
  let src := s.rdSS a
  let d := s.rdSS b
  match copyFault s src d with
  | some (c, addr) => faultRun x c addr s
  | none =>
    let tag := bitsOf d.toNat 56 6
    let from_ := Sig.over {} 1 (bitsOf d.toNat 32 24) ((lanesOf x.run).map fun l => (l, src.toNat))
    let to_ := Sig.over { kind := .store } 2 (bitsOf d.toNat 32 24) ((lanesOf x.run).map fun l => (l, bitsOf d.toNat 0 32))
    if decide (15 ≤ (s.grp.copies.filter fun c => c.tag == tag).length) || heldBehind from_ s || heldBehind to_ s then stallBack x s
    else afterStores true (fun _ s =>
      let s := s.modCore s.coreNo fun c => { c with tagmap := c.tagmap &&& ~~~(BitVec.twoPow 64 tag) }
      s.modG fun g => { g with copies := g.copies ++ [⟨src, bitsOf d.toNat 0 32, bitsOf d.toNat 32 24, tag, s.w.uid, false, none⟩] }) x s

/-- cpSc (R179). -/
def execCpSc (a b : Fin 128) (s : State) : Outcome :=
  issue ({ reads := sPair a ++ sPair b, perLane := false, kind := .effect }) (cpScBody a b) s

/-- A failed tag that a mask names raises the copy-error trap and loses its mark (R180), which a midge leaves (R344). -/
def failedTag (m : DWord) (x : Exec) (rest : State → State) (s : State) : State :=
  match s.grp.failedTags.find? fun f => m.getLsbD f.1 with
  | some f => faultRun x 0x23 f.2 (if s.w.mode ≠ .normal then s else s.modG fun g => { g with failedTags := g.failedTags.filter fun h => h.1 != f.1 })
  | none => rest s

/-- Whether the tags of a mask let a wait end (R181). -/
def tagsReady (tagmap m : DWord) (all : Bool) : Bool :=
  m == 0 || (if all then tagmap &&& m == m else tagmap &&& m != 0)

/-- wait.any and wait.all (R181): the run waits until the tags allow it to go on. -/
def waitTagsBody (all : Bool) (a : Fin 128) (x : Exec) (s : State) : State :=
  let m := heldTags s (s.rdSS a)
  failedTag m x (fun s =>
    if tagsReady (s.core s.coreNo).tagmap m all then s
    else stallBack x s) s
def waitTagsSig (a : Fin 128) : Sig := { reads := sPair a, perLane := false, kind := .effect }

/-- waitAny (R181). -/
def execWaitAny (a : Fin 128) (s : State) : Outcome :=
  issue (waitTagsSig a) (waitTagsBody false a) s
/-- waitAll (R181). -/
def execWaitAll (a : Fin 128) (s : State) : Outcome :=
  issue (waitTagsSig a) (waitTagsBody true a) s

/-- ffr.tag (R181): the lowest completed tag of the mask, or with HELD the lowest held one; 64 for none. -/
def ffrTagBody (held : Bool) (d a : Fin 128) (x : Exec) (s : State) : State :=
  let m := heldTags s (s.rdSS a)
  failedTag m x (fun s =>
    let done := if held then m else m &&& (s.core s.coreNo).tagmap
    s.wrS d (BitVec.ofNat 32 ((lowTag done).getD 64))) s
def ffrTagSig (d a : Fin 128) : Sig := { reads := sPair a, writes := sReg d, perLane := false }

/-- ffrTag (R181). -/
def execFfrTag (d a : Fin 128) (s : State) : Outcome :=
  issue (ffrTagSig d a) (ffrTagBody false d a) s
/-- ffrTagHeld (R181). -/
def execFfrTagHeld (d a : Fin 128) (s : State) : Outcome :=
  issue (ffrTagSig d a) (ffrTagBody true d a) s

/-- The words of a line that a core does not hold valid. -/
def lineMissing (s : State) (core line : Nat) : List Nat :=
  ((List.range 64).map fun i => line * 256 + 4 * i).filter fun w => match (s.core core).word w with
    | some x => !x.valid
    | none => true

/-- prefetch (R182): the line is requested into L2, from the agent that homes it where it is no line of the device, and into L1 but for LEVEL 1, which changes no
value; a fault drops it, but the address must be below 2^56. A request that needs more entries than are free waits (R173), and it waits for a translation. The
request counts once as a read of the aliases it draws on (R369), and whether its fills leave at once is the device's choice (R350). -/
def prefetchBody (l1 : Bool) (a : Fin 128) (x : Exec) (s : State) : State :=
  let p := s.rdSS a
  if s.w.mode = .ahead then s
  else if 2 ^ 56 ≤ p.toNat then replayRun x 0x10 p s
  else
    match translate (.core s.coreNo) s.ctxNo .load p.toNat s with
    | (s, .ok pa nc) =>
      let ws := lineMissing s s.coreNo (lineOf pa)
      let s := if lineHeld s pa then useL2 (lineOf pa) false s else askLine pa s
      if !l1 then s
      else match takeMisses s.coreNo (ws.map fun w => (w, nc)) (s.choice 2 == 1) s with
        | (s, true) => stallBack x s
        | (s, false) => if ws = [] then s else countMissing s.reader ws (s.chose 2)
    | (s, .wait) => stallBack x s
    | (s, .fault _ _ _) => s

/-- MISS_FILL_ARRIVAL (R350): the fill of an entry arrives once its slice holds the line and the line has room in L1, and frees the entry. -/
def execMissFillArrival (core i : Nat) (s : State) : Outcome :=
  next (fun s => match (s.core core).misses[i]? with
    | none => s
    | some m =>
      if !lineHeld s m.sector || !(s.core core).fits m.sector then s
      else (fillMiss core m s).modCore core fun c => { c with misses := c.misses.eraseIdx i }) s

def prefetchSig (a : Fin 128) : Sig := { reads := sPair a, perLane := false, kind := .memory }

/-- prefetch (R182). -/
def execPrefetch (a : Fin 128) (s : State) : Outcome :=
  issue (prefetchSig a) (prefetchBody true a) s
/-- prefetchL2 (R182). -/
def execPrefetchL2 (a : Fin 128) (s : State) : Outcome :=
  issue (prefetchSig a) (prefetchBody false a) s

end Sys2Proof.Machine
end

