-- ==== Sys2Proof/Machine/Matrix.lean ====
section
/-! DEFINITION. The matrix instructions: operand-buffer ranges (R210 to R215), the multiply (R216 to R220), tile moves (R221,
R222), stores of tiles (R223 to R226) and merges across a cluster (R227 to R230). -/

namespace Sys2Proof.Machine

/-! ## Operand-buffer ranges -/

/-- The fields of a reservation record (R22). -/
def obBase (r : DWord) : Nat := bitsOf r.toNat 0 10
def obLen (r : DWord) : Nat := bitsOf r.toNat 10 10
def obFmt (r : DWord) : Nat := bitsOf r.toNat 20 4
def obScale (r : DWord) : Nat := bitsOf r.toNat 24 2
def obBlk (r : DWord) : Nat := bitsOf r.toNat 32 8
def obScBase (r : DWord) : Nat := bitsOf r.toNat 40 7

/-- Line width in bytes, chunks of an operand, and units of a chunk (R210). -/
def lineWidth (fmt : Nat) : Nat :=
  if fmt < 2 then 64 else if fmt < 5 then 32 else if fmt = 5 then 36 else if fmt = 6 then 24 else 16
def chunksOf (fmt : Nat) : Nat := if fmt < 2 then 1 else 2
def chunkUnits (fmt : Nat) : Nat := lineWidth fmt / 2

/-- Whether a record passes the checks of obres (R211). -/
def recordOk (allot r : DWord) : Bool :=
  let fmt := obFmt r
  bitsOf r.toNat 26 6 == 0 && bitsOf r.toNat 47 17 == 0 && decide (fmt < 8) && decide (obScale r < 2) &&
    (obScale r == 0 || fmt == 2 || fmt == 3) && obLen r != 0 && decide (obBase r + obLen r ≤ 16 * obufOf allot) &&
    (if chunksOf fmt = 1 then decide (chunkUnits fmt ≤ obLen r)
     else decide (chunkUnits fmt ≤ obBlk r) && decide (obBlk r + chunkUnits fmt ≤ obLen r))

/-- obres (R211). -/
def obresBody (a : Fin 128) (n : Fin 8) (x : Exec) (s : State) : State :=
  let r := s.rdSS a
  if recordOk s.grp.allot r then s.modG fun g => { g with ob := g.ob.set n r } else faultRun x 0x24 s.here s

/-- obres (R211). -/
def execObres (a : Fin 128) (n : Fin 8) (s : State) : Outcome :=
  issue { reads := sPair a, perLane := false, kind := .effect } (obresBody a n) s

/-- obrel (R212). -/
def execObrel (m : BitVec 8) (s : State) : Outcome :=
  issue { perLane := false, kind := .effect } (fun _ s =>
    s.modG fun g => { g with ob := Vector.ofFn fun i => if m.getLsbD i.val then 0 else g.ob[i] }) s

/-- The first byte of line r of chunk c of a range, in the group's operand buffer (R210). -/
def lineAt (rec_ : DWord) (c r : Nat) : Nat := (obBase rec_ + c * obBlk rec_) * 64 + r * lineWidth (obFmt rec_)

/-- The operand-buffer units that bytes cover whole. -/
def wholeUnits (a n : Nat) : List Nat := (List.range ((a + n) / 64 + 1)).filter fun u => decide (a ≤ 64 * u) && decide (64 * u + 64 ≤ a + n)

/-- The lines of an operand copied from a group's scratch (R214). A unit written whole loses its poison mark (R419). -/
def fillRange (rec_ : DWord) (from_ : Group) (off pitch : Nat) (s : State) : State :=
  let w := lineWidth (obFmt rec_)
  s.modG fun g =>
    (List.range (chunksOf (obFmt rec_))).foldl (fun g c =>
      let g := (List.range 32).foldl (fun g r =>
        { g with obuf := g.obuf.writes (lineAt rec_ c r) (from_.scratch.bytes (off + r * pitch + c * w) w) }) g
      let whole := wholeUnits (lineAt rec_ c 0) (32 * w)
      { g with obufPoison := g.obufPoison.filter fun u => !whole.contains u }) g

/-- The poisoned scratch word of lowest offset that a fill reads. -/
def fillPoison (rec_ : DWord) (from_ : Group) (off pitch : Nat) : Option Nat :=
  let n := lineWidth (obFmt rec_) * chunksOf (obFmt rec_)
  ((List.range 32).flatMap fun r => wordsOf (off + r * pitch) n).find? fun w => from_.scratchPoison.contains w

/-- A fill after its source is known (R214, R215): the lowest cause first. -/
def fillQueries (rec_ : DWord) (from_ : Group) (off pitch : Nat) (operandBad : Bool) (x : Exec) (s : State) : State :=
  if obLen rec_ = 0 then faultRun x 0x24 s.here s
  else if scratchOf from_.allot * 4096 < off + 31 * pitch + chunksOf (obFmt rec_) * lineWidth (obFmt rec_) then
    faultRun x 0x12 (BitVec.ofNat 64 off) s
  else
    match fillPoison rec_ from_ off pitch with
    | some w =>
      let (s, fs) := poisonFaults 3 (poisonedRun x.run (BitVec.ofNat 64 w) w) s
      parkRestart x fs s
    | none => if operandBad || off % 4 ≠ 0 || pitch % 4 ≠ 0 then faultRun x 0x24 s.here s else fillRange rec_ from_ off pitch s

/-- obfill and obfill.x (R214, R215). -/
def fillSig (a b : Fin 128) : Sig := { reads := sReg a ++ sReg b, perLane := false, kind := .effect }

/-- obfill (R214). -/
def execObfill (a b : Fin 128) (n : Fin 8) (s : State) : Outcome :=
  issue (fillSig a b) (fun x s =>
    fillQueries s.grp.ob[n] s.grp (s.rdS a).toNat (s.rdS b).toNat false x s) s

/-- The group of the same cluster launch on a core of the cluster, not ended (R215). -/
def clusterGroup (s : State) (c : Nat) : Option Group :=
  if s.grp.task.clus then
    s.groups.find? fun g => g.peerOf s.grp && g.core == s.coreNo / 12 * 12 + c && g.all.any (·.counts)
  else none

/-- obfill.x (R215): the source group runs on core C of the cluster. -/
def obfillXBody (a b : Fin 128) (n : Fin 8) (x : Exec) (s : State) : State :=
  let v := (s.rdS a).toNat
  let off := bitsOf v 0 18
  let bad := bitsOf v 18 6 != 0 || bitsOf v 28 4 != 0 || decide (11 < bitsOf v 24 4)
  match clusterGroup s (bitsOf v 24 4) with
  | some g => fillQueries s.grp.ob[n] g off (s.rdS b).toNat bad x s
  | none =>
    if bad || obLen s.grp.ob[n] == 0 || off % 4 != 0 || (s.rdS b).toNat % 4 != 0 then faultRun x 0x24 s.here s
    else faultRun x 0x25 s.here s

/-- obfill.x (R215). -/
def execObfillX (a b : Fin 128) (n : Fin 8) (s : State) : Outcome := issue (fillSig a b) (obfillXBody a b n) s

/-! ## The multiply -/

/-- K of a pair of formats; none where they form no pair (R217). -/
def pairK (a b : Nat) : Option Nat :=
  if a = b ∧ a < 2 then some 32
  else if (a = 2 ∨ a = 3) ∧ (b = 2 ∨ b = 3) then some 64
  else if a = 4 ∧ b = 4 then some 64
  else if 5 ≤ a ∧ 5 ≤ b ∧ a < 8 ∧ b < 8 then some 64
  else none

/-- Element q of a line held as a number (R210). -/
def elementNum (fmt line q : Nat) : Num :=
  match fmt with
  | 0 => valueOf bf16 (bitsOf line (16 * q) 16)
  | 1 => valueOf fp16 (bitsOf line (16 * q) 16)
  | 2 => valueOf e4m3 (bitsOf line (8 * q) 8)
  | 3 => valueOf e5m2 (bitsOf line (8 * q) 8)
  | _ =>
    let k := if fmt = 5 then 7 else if fmt = 6 then 4 else 2
    sbValue k (bitsOf line (8 * sbBytes k * (q / 16)) (8 * sbBytes k)) (q % 16)

/-- Element q of an INT8 line. -/
def elementInt (line q : Nat) : Int := (BitVec.ofNat 8 (bitsOf line (8 * q) 8)).toInt

/-- Line r of chunk c of a range as a number. -/
def lineNum (g : Group) (rec_ : DWord) (c r : Nat) : Nat := leNat (g.obuf.bytes (lineAt rec_ c r) (lineWidth (obFmt rec_)))

/-- The scale of chunk c of a line: byte 2 * HALF + c of a lane's scale register, or 1 (R218). -/
def scaleNum (w : Wave) (rec_ : DWord) (off half c : Nat) (l : Fin 32) : Num :=
  if obScale rec_ = 0 then .fin false 1 0
  else scaleOf (bitsOf (w.other (Fin.ofNat 128 (obScBase rec_ + off)) l).toNat (8 * (2 * half + c)) 8)

/-- A floating-point cell (R96 to R98, R219). -/
def mmaFloat (w : Wave) (g : Group) (ra rb : DWord) (sel : Nat) (start : Word) (i j : Fin 32) : Word :=
  accumulate start ((List.range (chunksOf (obFmt ra))).map fun c =>
    let la := lineNum g ra c i.val
    let lb := lineNum g rb c j.val
    let sa := scaleNum w ra (bitsOf sel 0 3) (bitsOf sel 3 1) c i
    let sb := scaleNum w rb (bitsOf sel 4 3) (bitsOf sel 7 1) c j
    (List.range 32).map fun q => product (elementNum (obFmt ra) la q) (elementNum (obFmt rb) lb q) sa sb)

/-- An INT8 cell (R99). -/
def mmaInt (g : Group) (ra rb : DWord) (start : Word) (i j : Fin 32) : Word :=
  (List.range 2).foldl (fun acc c =>
    let la := lineNum g ra c i.val
    let lb := lineNum g rb c j.val
    acc + BitVec.ofInt 32 ((List.range 32).foldl (fun z q => z + elementInt la q * elementInt lb q) 0)) start

/-- The operand-buffer units that a line of a range touches. -/
def lineUnits (rec_ : DWord) (r : Nat) : List Nat :=
  (List.range (chunksOf (obFmt rec_))).flatMap fun c =>
    let a := lineAt rec_ c r
    [a / 64, (a + lineWidth (obFmt rec_) - 1) / 64]

/-- The poisoned unit that a row of a multiply reads (R406, R419). -/
def rowPoison (g : Group) (ra rb : DWord) (i : Fin 32) : Option Nat :=
  (lineUnits ra i.val ++ laneList.flatMap fun j => lineUnits rb j.val).find? fun u => g.obufPoison.contains u

/-- The scale registers of a multiply (R218). -/
def scaleRegs (ra rb : DWord) (sel : Nat) : List Nat :=
  (if obScale ra = 1 then [obScBase ra + bitsOf sel 0 3] else []) ++
    (if obScale rb = 1 then [obScBase rb + bitsOf sel 4 3] else [])

/-- Whether the ranges of a multiply pass its checks (R220). -/
def rangesOk (ra rb : DWord) (sel : Nat) : Bool :=
  obLen ra != 0 && obLen rb != 0 && (pairK (obFmt ra) (obFmt rb)).isSome &&
    (obScale ra == 1 || bitsOf sel 0 4 == 0) && (obScale rb == 1 || bitsOf sel 4 4 == 0)

/-- mma and mma.z (R219, R220). -/
def mmaBody (g : Sig) (zero : Bool) (t : Fin 16) (a b : Fin 8) (sel : Nat) (x : Exec) (s : State) : State :=
  let ra := s.grp.ob[a]
  let rb := s.grp.ob[b]
  let regs := scaleRegs ra rb sel
  if !rangesOk ra rb sel then faultRun x 0x24 s.here s
  else if regs.any fun n => decide (vregsOf s.grp.allot ≤ n) then faultRun x 0x05 s.here s
  else
    whenClear (regs.map .v) (~~~0#32) (fun x s =>
      let old := s.w.tile t
      let cell (i j : Fin 32) : Word :=
        let start := if zero then 0 else old.rows[i].cells[j]
        if obFmt ra = 4 then mmaInt s.grp ra rb start i j else mmaFloat s.w s.grp ra rb sel start i j
      let bad := (lanesOf x.en).filterMap fun i => (rowPoison s.grp ra rb i).map fun u => (i, BitVec.ofNat 64 u, u)
      let good := x.en &&& ~~~(maskFrom bad)
      let row (i : Fin 32) : Row :=
        if bit good i then { old.rows[i] with cells := Lanes.ofFn fun j => cell i j } else old.rows[i]
      let rows := Lanes.ofFn row
      let (s, fs) := poisonFaults 4 bad s
      deliver g x [.rows t good rows] fs s) x s

/-- A multiply (R216): the tile is its pending destination. -/
def mmaSig (t : Fin 16) (l : Fin 16) : Sig := { reads := tReg t, writes := tReg t, long := true, lookahead := l.val }

/-- mma (R219). -/
def execMma (t : Fin 16) (a b : Fin 8) (sel : Fin 256) (l : Fin 16) (s : State) : Outcome :=
  issue (mmaSig t l) (mmaBody (mmaSig t l) false t a b sel.val) s

/-- mma.z (R219). -/
def execMmaZ (t : Fin 16) (a b : Fin 8) (sel : Fin 256) (l : Fin 16) (s : State) : Outcome :=
  issue (mmaSig t l) (mmaBody (mmaSig t l) true t a b sel.val) s

/-! ## Tile moves -/

/-- acc.zero (R222). -/
def execAccZero (t : Fin 16) (side : Fin 2) (s : State) : Outcome :=
  issue { writes := tReg t } (fun x s => s.modW fun w => w.wrRows t x.en fun l =>
    if side = 1 then Row.granted else { (w.tile t).rows[l] with cells := Lanes.all 0 }) s

/-- acc.mov (R222). -/
def execAccMov (d a : Fin 16) (side : Fin 2) (s : State) : Outcome :=
  issue { reads := tReg a, writes := tReg d } (fun x s => s.modW fun w => w.wrRows d x.en fun l =>
    if side = 1 then (w.tile a).rows[l] else { (w.tile d).rows[l] with cells := (w.tile a).rows[l].cells }) s

/-- Column c of a row of a tile (R222). -/
def tileColumn (t : Tile) (c : Nat) (l : Fin 32) : Word :=
  if h : c < 32 then t.rows[l].cells[c]
  else if c = 32 then t.rows[l].max
  else if c = 33 then t.rows[l].sum
  else if c = 34 then loWord t.header
  else hiWord t.header

/-- acc.rd (R222). -/
def execAccRd (d : Fin 128) (t : Fin 16) (c : Fin 128) (s : State) : Outcome :=
  issue { reads := tReg t, writes := vReg d } (fun x s =>
    s.modW fun w => w.wrV d x.en fun l => tileColumn (w.tile t) c.val l) s

/-- A row with column c written. -/
def rowColumn (r : Row) (c : Nat) (x : Word) : Row :=
  if h : c < 32 then { r with cells := r.cells.set c x }
  else if c = 32 then { r with max := x }
  else { r with sum := x }

/-- A tile header as stored: its reserved bits stay 0 (R8, R21). -/
def headerBits (x : DWord) : DWord := x &&& 0x00FFFFFF03FFFFFF

/-- acc.wr (R222): the header once, from the lowest enabled lane. -/
def accWrBody (t : Fin 16) (a : Fin 128) (c : Nat) (x : Exec) (s : State) : State :=
  s.modW fun w =>
    if c < 34 then w.wrRows t x.en fun l => rowColumn (w.tile t).rows[l] c (w.rdV a l)
    else match lowest x.en with
      | some l =>
        let h := (w.tile t).header
        w.wrHeader t (headerBits (if c = 34 then pairOf (w.rdV a l) (hiWord h) else pairOf (loWord h) (w.rdV a l)))
      | none => w

/-- acc.wr (R222): the header only in a trap handler (R266). -/
def execAccWr (t : Fin 16) (a : Fin 128) (c : Fin 128) (s : State) : Outcome :=
  issue { reads := vReg a, writes := tReg t, handlerOnly := decide (34 ≤ c.val) } (accWrBody t a c.val) s

/-! ## Storing a tile -/

/-- Element bytes of an output format (R224). -/
def outBytes (f : Nat) : Nat := if f = 0 ∨ f = 5 then 4 else if f = 1 ∨ f = 2 then 2 else 1

/-- A cell as an element of an output format (R224). -/
def outElement (f : Nat) (c : Word) : Nat :=
  if f = 0 ∨ f = 5 then c.toNat
  else if f = 6 then (BitVec.ofInt 8 (max (-128) (min c.toInt 127))).toNat
  else narrow (fmtOf f) .nearest c.toNat

/-- A row of a tile converted (R224). -/
def rowBytes (f : Nat) (t : Tile) (l : Fin 32) : List Byte :=
  laneList.flatMap fun j => leBytes (outBytes f) (outElement f t.rows[l].cells[j])

/-- The entries of the core's groups (R225). -/
def entriesOnCore (s : State) : Nat := ((s.groups.filter fun g => g.core == s.coreNo).map fun g => g.epilogues.length).sum

/-- What epi.st needs of the page of a row. -/
def epiNeed (f : Nat) : Need := { size := 32 * outBytes f, access := .store, inBuffer := true }

/-- A replay of epi.st (R225): the reinserted lanes store their rows from the entry, at the row addresses that the entry holds (R414).
DEDUCED (log entry 69): the addresses are not formed anew from registers that a handler may have changed. -/
def epiReplay (e : Epilogue) (x : Exec) (s : State) : State :=
  let (s, p) := planLanes (epiNeed e.form) (fun l => e.addrs[l]) (lanesOf (x.en &&& e.left)) s
  if p.wait then stallBack x s
  else
    let go (l : Fin 32) := p.go.find? fun a => a.1 == l
    let okay := maskFrom p.go
    let e' : Epilogue := { e with
      phys := Lanes.ofFn fun l => match go l with
        | some a => a.2.2.1
        | none => e.phys[l]
      nc := e.nc ||| maskOf fun l => match go l with
        | some a => a.2.2.2
        | none => false
      parked := e.parked &&& ~~~okay }
    let s := s.modG fun g => { g with epilogues := g.epilogues.map fun f => if f = e then e' else f }
    parkRestart x p.faults (oweRecords p.pages s)

/-- epi.st (R224, R225): the rows are read and placed in an entry, which stores them afterwards; faulting lanes park and the
entry keeps their rows. A core with eight entries taken makes it wait. -/
def epiBody (g : Sig) (f : Nat) (t : Fin 16) (a : Fin 128) (b : Fin 32) (x : Exec) (s : State) : State :=
  if s.w.mode = .ahead then probe g (epiNeed f) (laneAddr s (baseReg b) a) x.en s
  else
    let kept := s.grp.epilogues.find? fun e => e.wave == s.w.uid && e.pc == s.here && (e.parked &&& x.en) != 0
    match s.iss.replay, kept with
    | some _, some e => epiReplay e x s
    | _, _ =>
      if 8 ≤ entriesOnCore s then stallBack x s
      else
        let addr := laneAddr s (baseReg b) a
        let (s, p) := planLanes (epiNeed f) addr (lanesOf x.en) s
        let z := 32 * outBytes f
        if p.wait || heldBehind (g.over 1 z ((lanesOf x.en).map fun l => (l, (addr l).toNat))) s then stallBack x s
        else match if overlapsNt s p z then blockedAt (ntWords s) s else (s, false) with
        | (s, true) => stallBack x s
        | (s, false) =>
          let s := if overlapsNt s p z then drainNt s else s
          let go (l : Fin 32) := p.go.find? fun e => e.1 == l
          let e : Epilogue := {
            rows := Lanes.ofFn fun l => if bit x.en l then rowBytes f (s.w.tile t) l else []
            addrs := Lanes.ofFn addr
            phys := Lanes.ofFn fun l => match go l with
              | some a => a.2.2.1
              | none => 0
            nc := maskOf fun l => match go l with
              | some a => a.2.2.2
              | none => false
            left := x.en, wave := s.w.uid, tile := t.val, form := f, pc := s.here, parked := faultLanes p.faults }
          let s := s.modG fun g => { g with epilogues := g.epilogues ++ [e] }
          parkRestart x p.faults (oweRecords p.pages s)

/-- epi.st (R223). -/
def epiSig (t : Fin 16) (a : Fin 128) (b : Fin 32) : Sig :=
  { reads := tReg t ++ vReg a ++ sPair (baseReg b), addr := some (vReg a ++ sPair (baseReg b)), long := true, ordered := true, kind := .store }

/-- epi.st (R224). -/
def execEpiSt (f : Fin 8) (t : Fin 16) (a : Fin 128) (b : Fin 32) (s : State) : Outcome :=
  issue (epiSig t a b) (epiBody (epiSig t a b) f.val t a b) s

/-- Rows held in the i-th entry of the issuing group are stored, once the fan-outs of their lines are done (R225, R226, R353); those of the wave's
earlier entries go first (R170). -/
def execEpilogueRowStore (i : Nat) (s : State) : Outcome :=
  next (fun s => match s.grp.epilogues[i]? with
    | some e =>
      let due := (s.grp.epilogues.take (i + 1)).filter fun f => f.wave == e.wave
      match blockedAt (due.flatMap (rowWords s s.grp)) s with
      | (s, true) => s
      | (s, false) => drainRows (fun f => due.contains f) s
    | none => s) s

/-! ## Merging across the cluster -/

/-- One row of a merge over the contributing rows in ascending core order (R229); MODE 1 and MODE 2 give its cells alone. -/
def mergeRow (mode : Nat) (rs : List Row) : Row :=
  match rs with
  | [] => Row.granted
  | r :: t =>
    let fold (f : Word → Word → Word) : Lanes Word := Lanes.ofFn fun j => t.foldl (fun z p => f z p.cells[j]) r.cells[j]
    match mode with
    | 0 =>
      let m := t.foldl (fun m p => fmaxOp m p.max) r.max
      let weight (p : Row) : Word := if m = 0xFF800000 then 0 else if t.isEmpty then 0x3F800000 else fexp2Op (fsub .nearest p.max m)
      let sum (f : Row → Word) : Word :=
        t.foldl (fun z p => ffma .nearest (weight p) (f p) z) (fmul .nearest (weight r) (f r))
      ⟨Lanes.ofFn fun j => sum fun p => p.cells[j], m, sum fun p => p.sum⟩
    | 1 => { r with cells := fold (fadd .nearest) }
    | _ => { r with cells := fold (· + ·) }

/-- The wave of an arrival, where its group is on a core. -/
def arrivalWave (s : State) (a : MergeArrival) : Option Wave :=
  ((s.groups.find? fun g => g.uid == a.group).map fun g => g.all.find? fun w => w.uid == a.wave).join

/-- Whether an arrival is one at a selection (R255). -/
def MergeArrival.pick (a : MergeArrival) : Bool := a.mode == 3

/-- The arrivals of a merge, or of a selection, in ascending core order (R229, R255). -/
def arrivalsOf (s : State) (ctx : Nat) (clus : Bool) (launch : DWord) (group : Nat) (pick : Bool) (n : Nat) : List MergeArrival :=
  let mine (a : MergeArrival) : Bool := s.groups.any fun g => g.uid == a.group && g.task.ctx == ctx
  let here := s.merges.filter fun a => a.pick == pick && a.n == n && (if clus then a.launch == launch && mine a else a.group == group)
  (List.range 12).flatMap fun c => here.filter fun a => a.core == c

/-- Every pending merge instruction of the arrivals takes its results or its fault, and stops waiting. -/
def finishMerge (as : List MergeArrival) (result : MergeArrival → List RegWrite) (bad : Bool) (s : State) : State :=
  let pend (a : MergeArrival) (p : Pending) : Pending :=
    if p.on = .merge a.launch a.pick a.n then
      if bad then { p with on := .time, restart := false, faults := allLanes p.lanes 0x26 p.pc }
      else { p with on := .time, writes := result a }
    else p
  let upd (w : Wave) : Wave := match as.find? fun a => a.wave == w.uid with
    | some a => { w with pending := w.pending.map (pend a) }
    | none => w
  let s := s.mapGroups fun g => g.mapWaves upd
  { s with merges := s.merges.filter fun a => !as.contains a }

/-- The columns that a selection chooses (R255): of all participants' scored columns the k best, ties to the lower core and then
the lower column. -/
def bestColumns (k : Nat) : List (Nat × Nat × Word) → List (Nat × Nat)
  | cs => match k with
    | 0 => []
    | k + 1 =>
      let top := cs.foldl (fun b c => match b with
        | none => some c
        | some d => if orderKey d.2.2 < orderKey c.2.2 then some c else some d) (none : Option (Nat × Nat × Word))
      match top with
      | none => []
      | some c => (c.1, c.2.1) :: bestColumns k (cs.filter fun d => !(d.1 == c.1 && d.2.1 == c.2.1))

/-- The score of a column over rows (R255). -/
def columnScore (t : Tile) (m : Mask) (j : Fin 32) : Word :=
  match lanesOf m with
  | [] => defaultNan
  | l :: ls => ls.foldl (fun x i => fmaxNum x t.rows[i].cells[j]) (fmaxNum t.rows[l].cells[j] t.rows[l].cells[j])

/-- The selectable columns of a tile, with the place of its participant (R255). -/
def selectable (place : Nat) (t : Tile) (m : Mask) : List (Nat × Nat × Word) :=
  (laneList.map fun j => (place, j.val, columnScore t m j)).filter fun c => !nan32 c.2.2 && c.2.2 != 0xFF800000

/-- The mask that a participant receives. -/
def columnMask (place : Nat) (cs : List (Nat × Nat)) : Word := maskOf fun j => cs.contains (place, j.val)

/-- A merge or a selection of a launch completes once every participant has arrived or ended (R228, R230, R255). MODE 3 marks
a selection, whose ROOT holds k. -/
def settleMerge (ctx : Nat) (clus : Bool) (launch : DWord) (group : Nat) (pick : Bool) (n : Nat) (s : State) : State :=
  let as := arrivalsOf s ctx clus launch group pick n
  let part (g : Group) : Bool :=
    g.task.ctx == ctx && (if clus then g.task.clus && g.task.launch == launch else g.uid == group) && g.all.any (·.counts)
  let live := s.groups.filter part
  let kept := ((s.die0.saved ++ s.die1.saved).map (·.group)).filter part
  if as = [] ∨ kept ≠ [] ∨ (clus ∧ s.unstarted ctx launch ≠ []) ∨ !live.all fun g => as.any fun a => a.group == g.uid then s
  else
    let same (a b : MergeArrival) : Bool := a.mode == b.mode && a.one == b.one && a.root == b.root
    let agree := as.all fun a => as.all (same a)
    let tileOf (a : MergeArrival) : Tile := match arrivalWave s a with
      | some w => w.tile (Fin.ofNat 16 a.tile)
      | none => Tile.granted
    match as with
    | [] => s
    | a0 :: _ =>
      if a0.mode = 3 then
        let cs := bestColumns a0.root (as.flatMap fun a => selectable a.core (tileOf a) a.rows)
        finishMerge as (fun a => [.s (Fin.ofNat 128 a.dest) (columnMask a.core cs)]) (!agree) s
      else
        let noRoot := a0.one && !as.any fun a => a.core == a0.root
        let merged (l : Fin 32) : Row := mergeRow a0.mode (as.map fun a => (tileOf a).rows[l])
        let rows (a : MergeArrival) : Lanes Row := Lanes.ofFn fun l =>
          if a0.mode = 0 then merged l else { (tileOf a).rows[l] with cells := (merged l).cells }
        finishMerge as (fun a => if a0.one && a.core != a0.root then [] else [.rows (Fin.ofNat 16 a.tile) (~~~0) (rows a)])
          (!agree || noRoot) s

/-- Every merge of a launch that waits is evaluated again: after a group of the launch ends. -/
def settleMerges (s : State) : State :=
  s.merges.foldl (fun s a => match s.groups.find? fun g => g.uid == a.group with
    | some g => settleMerge g.task.ctx g.task.clus g.task.launch g.uid a.pick a.n s
    | none => s) s

/-- A merge instruction joins the next merge of its launch, a cluster selection (MODE 3) the next selection (R228, R255): pending until every
participant has arrived; with lookahead 0 its results stand at once where they all have (R56). -/
def joinMerge (g : Sig) (tile mode root dest : Nat) (one : Bool) (x : Exec) (s : State) : State :=
  let pick := mode == 3
  let n := if pick then s.grp.picks else s.grp.merges
  let a : MergeArrival := ⟨s.grp.task.launch, n, s.coreNo % 12, s.grp.uid, s.w.uid, tile, mode, one, root, x.run, dest⟩
  let p : Pending := ⟨s.nextUid, s.iss.id, s.here, x.run, x.en, Lanes.all 0, g.lookahead, g.writes, [], [], false, false, [], 0, false, true,
    .merge s.grp.task.launch pick n⟩
  let s := (s.modW fun w => { w with pending := w.pending ++ [p] }).fresh
  let s := s.modG fun g => if pick then { g with picks := g.picks + 1 } else { g with merges := g.merges + 1 }
  let s := settleMerge s.grp.task.ctx s.grp.task.clus s.grp.task.launch s.grp.uid pick n { s with merges := s.merges ++ [a] }
  match s.w.pending.find? fun q => q.id == p.id && q.on == .time with
  | some q => if g.lookahead = 0 then completePending q s else s
  | none => s

/-- cmerge (R227): long-latency, once for the run. -/
def cmergeSig (t : Fin 16) (l : Fin 16) : Sig :=
  { reads := tReg t, writes := tReg t, perLane := false, long := true, lookahead := l.val, notInHandler := true, kind := .effect }

/-- cmerge.soft (R229). -/
def execCmergeSoft (r : Fin 16) (o : Fin 2) (t : Fin 16) (l : Fin 16) (s : State) : Outcome :=
  issue (cmergeSig t l) (joinMerge (cmergeSig t l) t.val 0 r.val 0 (o == 1)) s

/-- cmerge.sum (R229). -/
def execCmergeSum (r : Fin 16) (o : Fin 2) (t : Fin 16) (l : Fin 16) (s : State) : Outcome :=
  issue (cmergeSig t l) (joinMerge (cmergeSig t l) t.val 1 r.val 0 (o == 1)) s

/-- cmerge.isum (R229). -/
def execCmergeIsum (r : Fin 16) (o : Fin 2) (t : Fin 16) (l : Fin 16) (s : State) : Outcome :=
  issue (cmergeSig t l) (joinMerge (cmergeSig t l) t.val 2 r.val 0 (o == 1)) s

end Sys2Proof.Machine
end

