-- ==== Sys2Proof/Machine/Alias.lean ====
section
/-! DEFINITION. Copies by alias (R238 to R243) with the recording of R241 and the Scarab tables of R365 to R379, and shadowed
buffers with the forms of pub (R244 to R246). -/

namespace Sys2Proof.Machine

/-! ## Runs of a copy -/

/-- A run of a copy: n destination bytes and the n source bytes they take, by virtual or by physical address. -/
structure Run where
  dst : Nat
  src : Nat
  len : Nat
  deriving DecidableEq, Repr

/-- A layout descriptor (R239) as far as relayout reads it: INNER and the counts and strides of dimensions 1 to 4. -/
structure Layout where
  inner   : Nat
  counts  : List Nat
  strides : List Int
  deriving DecidableEq, Repr

/-- A 32-bit two's-complement field. -/
def signed32 (x : Nat) : Int := (BitVec.ofNat 32 x).toInt

/-- The layout of a descriptor's 64 bytes; none where a field is outside the limits of R239. -/
def layoutOf (x : Nat) : Option Layout :=
  let inner := bitsOf x 0 32
  let dims := bitsOf x 32 3
  let counts := (List.range 4).map fun k => bitsOf x (64 + 16 * k) 16
  let strides := (List.range 4).map fun k => signed32 (bitsOf x (128 + 32 * k) 32)
  let unused := (List.range 4).all fun k => decide (k + 1 < dims) || (counts.getD k 0 == 1 && strides.getD k 0 == 0)
  if bitsOf x 35 29 = 0 ∧ bitsOf x 416 96 = 0 ∧ inner % 32 = 0 ∧ 32 ≤ inner ∧ inner ≤ 2 ^ 20 ∧ 1 ≤ dims ∧ dims ≤ 5 ∧
      (counts.all fun c => c != 0) ∧ (strides.all fun t => t % 32 == 0) ∧ unused then some ⟨inner, counts, strides⟩ else none

/-- The source offsets of the rows of a layout, the first dimension fastest (R240). -/
def rowOffsets : List (Nat × Int) → List Int
  | [] => [0]
  | (c, t) :: ds => (rowOffsets ds).flatMap fun o => (List.range c).map fun i => o + t * i

/-- The rows of a layout from its first dimension. -/
def Layout.offsets (l : Layout) : List Int := rowOffsets (l.counts.zip l.strides)

/-- The bytes of the source below and above S that a layout reaches, and the bytes of the destination. -/
def Layout.low (l : Layout) : Int := l.offsets.foldl min 0
def Layout.high (l : Layout) : Int := l.offsets.foldl max 0 + l.inner
def Layout.size (l : Layout) : Nat := l.inner * l.counts.foldl (· * ·) 1

/-- The runs of a layout by virtual address (R240). -/
def Layout.runs (l : Layout) (d s : Nat) : List Run :=
  l.offsets.zipIdx.map fun o => ⟨d + l.inner * o.2, ((s : Int) + o.1).toNat, l.inner⟩

/-- A run cut where either side crosses a 512 KiB granule. -/
def cutGranules : Nat → Run → List Run
  | 0, _ => []
  | fuel + 1, r =>
    let k := min r.len (min (2 ^ 19 - r.dst % 2 ^ 19) (2 ^ 19 - r.src % 2 ^ 19))
    if r.len = 0 then [] else ⟨r.dst, r.src, k⟩ :: cutGranules fuel ⟨r.dst + k, r.src + k, r.len - k⟩

/-- A run cut at granules. -/
def Run.granules (r : Run) : List Run := cutGranules (2 * (r.len / 2 ^ 19) + 4) r

/-- A run cut at the 256-byte lines of its destination (R242). -/
def cutLines : Nat → Run → List Run
  | 0, _ => []
  | fuel + 1, r =>
    let k := min r.len (256 - r.dst % 256)
    if r.len = 0 then [] else ⟨r.dst, r.src, k⟩ :: cutLines fuel ⟨r.dst + k, r.src + k, r.len - k⟩

/-- A run cut at lines. -/
def Run.lines (r : Run) : List Run := cutLines (r.len / 256 + 2) r

/-! ## Recording -/

/-- Resolution (R241 step 1): a source byte that a live entry covers is taken from the entry's source, again and again. -/
def resolveRun (es : List Alias) : Nat → Run → List Run
  | 0, r => [r]
  | fuel + 1, r =>
    if r.len = 0 then []
    else
      match es.find? fun e => e.dst ≤ r.src && r.src < e.dst + e.len with
      | some e =>
        let k := min r.len (e.dst + e.len - r.src)
        resolveRun es fuel ⟨r.dst, e.src + (r.src - e.dst), k⟩ ++ resolveRun es fuel ⟨r.dst + k, r.src + k, r.len - k⟩
      | none =>
        let next := (es.filter fun e => r.src < e.dst && e.dst < r.src + r.len).foldl (fun m e => min m (e.dst - r.src)) r.len
        ⟨r.dst, r.src, next⟩ :: resolveRun es fuel ⟨r.dst + next, r.src + next, r.len - next⟩

/-- Neighbouring runs joined into maximal pieces (R242). -/
def joinRuns : List Run → List Run
  | [] => []
  | r :: t =>
    match joinRuns t with
    | [] => [r]
    | q :: u => if r.dst + r.len = q.dst ∧ r.src + r.len = q.src ∧ q.dst % 256 ≠ 0 then ⟨r.dst, r.src, r.len + q.len⟩ :: u
      else r :: q :: u

/-- Whether [a, a + n) meets [lo, lo + k). -/
def meets (a n lo k : Nat) : Bool := decide (a < lo + k) && decide (lo < a + n) && n != 0 && k != 0

/-- Trim of one entry against a run of the new destination (R241 step 2): the entry kept, if any. -/
def trimEntry (e : Alias) (r : Run) (s : State) : State × Option Alias :=
  if meets e.dst e.len r.dst r.len then
    let below := partBelow e.dst e.len r.dst
    let above := partAbove e.dst e.len r.dst r.len
    let off := e.len - above
    if below = 0 ∧ above = 0 then (s, none)
    else if below = 0 then (s, some { e with dst := e.dst + off, src := e.src + off, len := above })
    else (if above = 0 then s else moveBytes (e.src + off) (e.dst + off) above s, some { e with len := below })
  else (s, some e)

/-- Protection of one entry against a run of the new destination (R241 step 3): the entry kept, if any. -/
def protectEntry (e : Alias) (r : Run) (s : State) : State × Option Alias :=
  if meets e.src e.len r.dst r.len then
    let below := partBelow e.src e.len r.dst
    let above := partAbove e.src e.len r.dst r.len
    let off := e.len - above
    if (below = 0 ∧ above = 0) ∨ (below ≠ 0 ∧ above ≠ 0) then (moveBytes e.src e.dst e.len s, none)
    else if below = 0 then (moveBytes e.src e.dst off s, some { e with dst := e.dst + off, src := e.src + off, len := above })
    else (moveBytes (e.src + below) (e.dst + below) (e.len - below) s, some { e with len := below })
  else (s, some e)

/-- Every live entry passed through a step against one run. -/
def eachEntry (f : Alias → Run → State → State × Option Alias) (r : Run) (s : State) : State :=
  s.aliases.foldl (fun t e =>
    match f e r t with
    | (u, some e') => { u with aliases := u.aliases.map fun x => if x = e then e' else x }
    | (u, none) => { u with aliases := u.aliases.filter fun x => x != e }) s

/-- The live entries of a context (%aliasused, R35). -/
def aliasUsed (s : State) (ctx : Nat) : Nat := (s.aliases.filter fun e => e.ctx == ctx).length

/-- The live entries of a slice. -/
def entriesAt (s : State) (slice : Nat) : Nat := (s.aliases.filter fun e => sliceOf e.dst == slice).length

/-- The lowest free entry number of a slice (R365). -/
def freeSlot (s : State) (slice : Nat) : Nat :=
  let used := (s.aliases.filter fun e => sliceOf e.dst == slice).map (·.slot)
  ((List.range Config.aliasesPerSlice).find? fun i => !used.contains i).getD 0

/-- One entry recorded (R241, R365). -/
def recordPiece (ctx : Nat) (p : Run) (s : State) : State :=
  { s with aliases := s.aliases ++ [⟨freeSlot s (sliceOf p.dst), false, p.dst, p.len, p.src, ctx, 0⟩] }

/-- The destination words of a copy are written as a plain store writes them (R243, R293, R302): cells settle, the issuing
core is registered, its own L1 words become invalid and whole words lose their poison marks. -/
def claimRun (g : Agent) (core : Nat) (r : Run) (s : State) : State :=
  let ws := wordsOf r.dst r.len
  let lines := (ws.map fun w => lineOf w).dedup
  let s := lines.foldl (fun s l => fanToDie (l * 256) s) (settleWords ws s)
  let s := ws.foldl (fun s w => match g with
    | .wave _ c => claim c w s
    | _ => revoke w s) s
  let s := endFans lines (dropOwnCopy core r.dst r.len s)
  { s with poison := s.poison.filter fun w => !ws.contains w }

/-- The lines that runs touch on one side. -/
def runLines (f : Run → Nat) (rs : List Run) : List Nat :=
  (rs.flatMap fun r => (List.range (r.len / 256 + 2)).filterMap fun i =>
    if f r / 256 + i ≤ (f r + r.len - 1) / 256 then some (f r / 256 + i) else none).dedup

/-- A range put among disjoint ranges in ascending order, joined with those that it meets or adjoins. -/
def addRange (a n : Nat) : List (Nat × Nat) → List (Nat × Nat)
  | [] => [(a, n)]
  | (b, k) :: t =>
    if a + n < b then (a, n) :: (b, k) :: t
    else if b + k < a then (b, k) :: addRange a n t
    else addRange (min a b) (max (a + n) (b + k) - min a b) t

/-- The destination of a copy as a whole: its disjoint ranges. -/
def destRanges (rs : List Run) : List Run := (rs.foldl (fun l r => addRange r.dst r.len l) []).map fun p => ⟨p.1, 0, p.2⟩

/-- The recording of a copy at its destination's home slices, or its eager performance (R241 to R243). -/
def recordCopy (ctx core : Nat) (g : Agent) (runs : List Run) (s : State) : State :=
  let s := runs.foldl (fun s r => noteWrite g r.dst r.len (noteRo (wordsOf r.dst r.len) s)) s
  let s := (runLines (·.src) runs ++ runLines (·.dst) runs).foldl (fun s l => roundLine l s) s
  let fuel := 2 * s.aliases.length + 2
  let pieces := joinRuns ((runs.flatMap (resolveRun s.aliases fuel)).flatMap (·.lines))
  let dest := destRanges runs
  let s := dest.foldl (fun s r => eachEntry trimEntry r s) s
  let s := dest.foldl (fun s r => eachEntry protectEntry r s) s
  let s := observe g ((pieces.flatMap fun p => wordsOf p.src p.len).dedup) s
  let overlap := pieces.any fun p => dest.any fun r => meets p.src p.len r.dst r.len
  let slices := (pieces.map fun p => sliceOf p.dst).dedup
  let full := slices.any fun i =>
    decide (Config.aliasesPerSlice < entriesAt s i + (pieces.filter fun p => sliceOf p.dst == i).length)
  let eager := overlap || decide ((s.ctx ctx).quota < aliasUsed s ctx + pieces.length) || full
  let data := pieces.map fun p => (p, s.bytes p.src p.len, (List.range p.len).filter fun i => s.marked (wordOf (p.src + i)))
  let s := runs.foldl (fun s r => claimRun g core r s) s
  if eager then
    data.foldl (fun s d =>
      let s := useL2 (lineOf d.1.dst) true s
      sendWrite s.w.uid d.1.dst d.2.1 (refuseWords (wordsOf d.1.dst d.2.1.length)
        { s.poke d.1.dst d.2.1 with poison := (s.poison ++ d.2.2.map fun i => wordOf (d.1.dst + i)).dedup })) s
  else pieces.foldl (fun s p => recordPiece ctx p s) s

/-! ## cpy and relayout -/

/-- A fault that a copy meets: the cause, the address and the KIND of its record (99 for none). -/
structure CopyFault where
  cause : Nat
  addr  : DWord
  kind  : Nat
  deriving DecidableEq, Repr

/-- The fault that a run reports: the lowest cause, and of one cause the first found (R405). -/
def firstFault (fs : List CopyFault) : Option CopyFault :=
  fs.foldl (fun b f => match b with
    | none => some f
    | some g => if f.cause < g.cause then some f else some g) none

/-- One side of a run translated: a non-coherent page is the memory-type fault, which comes first (R405), and a destination that is not
writable is the translation fault (R238). -/
def translateSide (a : Access) (va : Nat) (s : State) : State × Except CopyFault (Option Nat) :=
  match nodeWalk (translate (aliasTlb s.dieNo) s.ctxNo a va s) with
  | (s, .ok pa nc) => if nc then (s, .error ⟨0x13, BitVec.ofNat 64 va, 99⟩) else (s, .ok (some pa))
  | (s, .fault c k nc) => (s, .error (if nc then ⟨0x13, BitVec.ofNat 64 va, 99⟩ else ⟨if c = 0x15 then 0x14 else c, BitVec.ofNat 64 va, k⟩))
  | (s, .wait) => (s, .ok none)

/-- The runs of a copy by physical address, the faults of their pages, and whether one waits. -/
def translateRuns : List Run → State → State × List Run × List CopyFault × Bool
  | [], s => (s, [], [], false)
  | r :: t, s =>
    let (s, d) := translateSide .store r.dst s
    let (s, e) := translateSide .load r.src s
    let (s, rs, fs, w) := translateRuns t s
    match d, e with
    | .ok (some pd), .ok (some ps) => (s, ⟨pd, ps, r.len⟩ :: rs, fs, w)
    | .error f, .error g => (s, rs, f :: g :: fs, w)
    | .error f, .ok _ => (s, rs, f :: fs, w)
    | .ok _, .error g => (s, rs, g :: fs, w)
    | .ok _, .ok _ => (s, rs, fs, true)

/-- Whether a copy must wait: for a line of host or peer memory, a frame under migration, or sharers outside the package. -/
def copyWaits (rs : List Run) (s : State) : State × Bool :=
  let far := ((runLines (·.src) rs).map (256 * ·)).filter fun a => !lineHeld s a
  let (s, wait) := blockedAt ((runLines (·.dst) rs).map (256 * ·)) (far.foldl (fun s a => askLine a s) s)
  (s, wait || far != [])

/-- Whether a copy overlaps an access that is pending for a lane of its run (R288). -/
def copyHeld (rs : List Run) (x : Exec) (s : State) : Bool :=
  rs.any fun r => heldBehind (Sig.over { kind := .store } 1 r.len ((lanesOf x.run).map fun l => (l, r.dst))) s ||
    heldBehind (Sig.over {} 1 r.len ((lanesOf x.run).map fun l => (l, r.src))) s

/-- A fault of a group form that reads or writes pages: a translation fault replays the whole instruction, every other sets RESTART 0 (R233). -/
def pageFault (x : Exec) (f : CopyFault) (s : State) : State :=
  if f.cause = 0x14 then replayRun x f.cause f.addr s else faultRun x f.cause f.addr s

/-- The records that faults of pages owe (R387, R388). -/
def oweFaults (fs : List CopyFault) (s : State) : State :=
  oweRecords (fs.filterMap fun g => if g.kind = 99 then none else some ⟨g.addr, g.cause, g.kind⟩) s

/-- Whether a fault is one of a walk, which the alias engine resolves itself (R389); a destination that is not writable is none. -/
def CopyFault.walk (f : CopyFault) : Bool := f.cause == 0x14 && f.kind != 2

/-- A fault of the alias engine (R389): at the first of a walk a record of KIND 5 and a wait for its service; a second one of the page, or another, is the
instruction's (R238). -/
def aliasFault (x : Exec) (f : CopyFault) (s : State) : State :=
  let c := s.ctx s.ctxNo
  if f.walk ∧ c.fqbase ≠ 0 ∧ s.w.walked ≠ some (f.addr.toNat / 2 ^ 19) then
    match writeSingle s.ctxNo f.addr 5 s with
    | (s, true) => stallBack x s
    | (s, false) => stallBack x { s with waits := s.waits ++ [⟨3, s.w.uid, s.ctxNo, c.fqprod, f.addr⟩] }
  else pageFault x f ((if f.kind = 2 then oweFaults [f] s else s).modW fun w => { w with walked := none })

/-- Whether the alias engine waits on a record for the issuing wave. -/
def aliasWaits (s : State) : Bool := s.waits.any fun e => e.engine == 3 && e.item == s.w.uid

/-- The runs of a copy translated; where no record can be written a walk that faults is made once more at once, and only once (R388). -/
def copyRuns (rs : List Run) (s : State) : State × List Run × List CopyFault × Bool :=
  match translateRuns rs s with
  | (s, ps, fs, w) =>
    match fs.find? fun f => f.walk && s.w.walked != some (f.addr.toNat / 2 ^ 19) with
    | some f =>
      if (s.ctx s.ctxNo).fqbase = 0 then
        match translateRuns rs s with
        | (s, ps, fs, w) => (if w then s.modW fun x => { x with walked := some (f.addr.toNat / 2 ^ 19) } else s, ps, fs, w)
      else (s, ps, fs, w)
    | none => (s, ps, fs, w)

/-- The end of a copy instruction once its operands are known: its faults, or its recording, which comes after the wave's own stores (R288). -/
def copyEnd (faults : List CopyFault) (runs : List Run) (x : Exec) (s : State) : State :=
  let early := match firstFault faults with
    | some f => decide (f.cause = 0x10)
    | none => false
  if aliasWaits s then stallBack x s else
  let (s, phys, more, wait) := if early then (s, [], [], false) else copyRuns (runs.flatMap (·.granules)) s
  match firstFault faults, firstFault (faults ++ more) with
  | some f, some g => if f.cause ≤ g.cause then pageFault x f (if f.cause = 0x14 then oweFaults faults s else s) else aliasFault x g s
  | none, some g => aliasFault x g s
  | _, none =>
    if wait || copyHeld runs x s then stallBack x s
    else
      let (s, w) := copyWaits phys s
      if w then stallBack x s else afterStores true (fun _ s =>
        recordCopy s.ctxNo s.coreNo s.agent phys (if s.w.walked.isNone then s else s.modW fun w => { w with walked := none })) x s

/-- The address fault of pointers whose bits 63:56 are not 0 (R40, R238). -/
def pointerFaults (ps : List DWord) : List CopyFault :=
  (ps.filter fun p => decide (2 ^ 56 ≤ p.toNat)).map fun p => ⟨0x10, p, 99⟩

/-- The replay-scope fault of a replayable node (R306). -/
def scopeFault (s : State) : List CopyFault := if s.grp.task.repl then [⟨0x1A, s.here, 99⟩] else []

/-- The granules of n bytes from an address, as a run-ahead translates them (R387). -/
def granulesOf (a : Access) (p : DWord) (n : Nat) : List (Access × DWord) := (piecesOf p.toNat n).map fun q => (a, BitVec.ofNat 64 q.1)

/-- cpy (R238, R240). -/
def cpyBody (d b l : Fin 128) (x : Exec) (s : State) : State :=
  let dst := s.rdSS d
  let src := s.rdSS b
  let n := (s.rdS l).toNat
  if s.w.mode = .ahead then probeAt (granulesOf .store dst n ++ granulesOf .load src n) s else
  let far := 2 ^ 56 < dst.toNat + n || 2 ^ 56 < src.toNat + n
  let fs := pointerFaults [dst, src] ++ (if far then [⟨0x10, if 2 ^ 56 < dst.toNat + n then dst else src, 99⟩] else []) ++ scopeFault s ++
    (if dst.toNat % 4 ≠ 0 ∨ src.toNat % 4 ≠ 0 ∨ n % 4 ≠ 0 then [⟨0x21, s.here, 99⟩] else [])
  copyEnd fs (if n = 0 then [] else [⟨dst.toNat, src.toNat, n⟩]) x s

/-- cpy (R232). -/
def cpySig (d b l : Fin 128) : Sig :=
  let r := sPair d ++ sPair b ++ sReg l
  { reads := r, waitsFor := r, perLane := false, ordered := true, kind := .effect, probes := true }

/-- cpy (R238). -/
def execCpy (d b : Fin 128) (l : Fin 32) (s : State) : Outcome :=
  issue (cpySig d b (scratchBase l)) (cpyBody d b (scratchBase l)) s

/-- The descriptor of relayout read as ordinary loads (R238): its layout, or its fault; none waits. -/
def readLayout (t : DWord) (s : State) : State × Option (Except (CopyFault × Nat) Layout) :=
  if 2 ^ 56 ≤ t.toNat then (s, some (.error (⟨0x10, t, 99⟩, 0)))
  else if t.toNat % 64 ≠ 0 then (s, some (.error (⟨0x21, s.here, 99⟩, 0)))
  else
    match nodeWalk (translate (.core s.coreNo) s.ctxNo .load t.toNat s) with
    | (s, .wait) => (s, none)
    | (s, .fault c k _) => (s, some (.error (⟨c, t, k⟩, 0)))
    | (s, .ok pa nc) =>
      if !lineHeld s pa then (askLine pa s, none)
      else
        let (s, x, bad) := loadNum s.reader s.coreNo nc pa 64 s
        match bad with
        | some w => (s, some (.error (⟨0x19, (poisonedAt t pa w).1, 99⟩, w)))
        | none => match layoutOf x with
          | some l => (s, some (.ok l))
          | none => (s, some (.error (⟨0x21, s.here, 99⟩, 0)))

/-- relayout (R238 to R240), once the wave's own stores have performed. -/
def relayoutEnd (d b t : Fin 128) (x : Exec) (s : State) : State :=
  let dst := s.rdSS d
  let src := s.rdSS b
  let fs := pointerFaults [dst, src] ++ scopeFault s ++
    (if dst.toNat % 32 ≠ 0 ∨ src.toNat % 32 ≠ 0 then [⟨0x21, s.here, 99⟩] else [])
  match readLayout (s.rdSS t) s with
  | (s, none) => stallBack x s
  | (s, some (.error (f, w))) =>
    if f.cause = 0x19 ∧ (fs.all fun g => decide (0x19 < g.cause)) = true then
      let (s, ps) := poisonFaults 0 (poisonedRun x.run f.addr w) s
      parkAgain x ps s
    else copyEnd (f :: fs) [] x s
  | (s, some (.ok l)) =>
    let low : Int := src.toNat + l.low
    let far := 2 ^ 56 < dst.toNat + l.size || decide (low < 0) || decide ((2 : Int) ^ 56 < src.toNat + l.high)
    let fs := fs ++ if far then [⟨0x10, if 2 ^ 56 < dst.toNat + l.size then dst else src, 99⟩] else []
    copyEnd fs (l.runs dst.toNat src.toNat) x s

/-- relayout (R238 to R240): its descriptor is read as ordinary loads, after the wave's own stores (R288). -/
def relayoutBody (d b t : Fin 128) (x : Exec) (s : State) : State :=
  let p := s.rdSS t
  if s.w.mode = .ahead then probeAt [(.load, p)] s
  else if heldBehind (Sig.over {} 1 64 ((lanesOf x.run).map fun l => (l, p.toNat))) s then stallBack x s
  else afterStores true (relayoutEnd d b t) x s

/-- relayout (R238). -/
def execRelayout (d b : Fin 128) (t : Fin 32) (s : State) : Outcome :=
  let r := sPair d ++ sPair b ++ sPair (scratchBase t)
  issue { reads := r, waitsFor := r, addr := some (sPair (scratchBase t)), perLane := false, ordered := true, kind := .effect, probes := true } (relayoutBody d b (scratchBase t)) s

/-! ## Shadowed buffers -/

/-- The declared buffer that starts at an address (R244). -/
def bufferAt (s : State) (ctx base : Nat) : Option Shadow := (s.ctx ctx).shadows.find? fun b => b.base == base

/-- The physical ranges of a buffer's pages with the shadow bytes by physical address; none waits, an error is a fault of a page that holds a shadow
byte. A page that holds none and is not mapped has no copy to invalidate. -/
def shadowPlan (u : TlbUnit) (ctx : Nat) (bytes : List (Nat × Byte)) :
    List (Nat × Nat) → State → State × Option (Except CopyFault (List (Nat × Nat) × List (Nat × Byte)))
  | [], s => (s, some (.ok ([], [])))
  | (va, n) :: t, s =>
    let mine := bytes.filter fun p => inRange va n p.1
    match translate u ctx (if mine = [] then .load else .store) va s with
    | (s, .wait) => (s, none)
    | (s, .fault c k _) => if mine = [] then shadowPlan u ctx bytes t s else (s, some (.error ⟨c, BitVec.ofNat 64 (((mine.map (·.1)).head?).getD va), k⟩))
    | (s, .ok pa _) =>
      match shadowPlan u ctx bytes t s with
      | (s, some (.ok (rs, ps))) => (s, some (.ok ((pa, n) :: rs, mine.map (fun p => (pa + (p.1 - va), p.2)) ++ ps)))
      | r => r

/-- The plan of a buffer. -/
def Shadow.plan (b : Shadow) (u : TlbUnit) (ctx : Nat) (s : State) : State × Option (Except CopyFault (List (Nat × Nat) × List (Nat × Byte))) :=
  shadowPlan u ctx b.bytes (piecesOf b.base b.len) s

/-- Bytes at single addresses, joined where they adjoin. -/
def byteRuns : List (Nat × Byte) → List (Nat × List Byte)
  | [] => []
  | (a, x) :: t =>
    match byteRuns t with
    | [] => [(a, [x])]
    | (b, xs) :: u => if a + 1 = b then (a, x :: xs) :: u else (a, [x]) :: (b, xs) :: u

/-- The lines of some ranges that the directory holds sharers for. -/
def sharedLines (rs : List (Nat × Nat)) (s : State) : List Nat :=
  (s.regions.flatMap fun r => (List.range 16).map fun i => r.region * 4096 + 256 * i).filter fun a => within rs a && sharersOf s a != 0

/-- Whether the publication waits: for agents outside that share a line of the buffer, a migration, or a line of host or peer memory. -/
def publishWaits (rs : List (Nat × Nat)) (ps : List (Nat × Byte)) (s : State) : State × Bool :=
  blockedAt (((ps.map fun p => lineOf p.1 * 256) ++ (sharedLines rs s).filter fun a => mustFan s a).dedup) s

/-- Every cached copy of the words of some ranges goes, on both dies (R246). -/
def dropCopies (rs : List (Nat × Nat)) (s : State) : State :=
  let cut (w : Nat × L1Word) : Nat × L1Word := if within rs w.1 then (w.1, { w.2 with valid := false, owned := false, provisional := false }) else w
  let s := (sharedLines rs s).foldl (fun s a => fanToDie a s) s
  { s with
    cores := s.cores.map fun e => (e.1, { e.2 with
      l1 := e.2.l1.map fun l => { l with words := l.words.map cut } })
    fanOuts := s.fanOuts.filter fun f => !(within rs (f.line * 256) && f.agents == 0 && f.data == [] && f.agent != 15) }

/-- The publication of a buffer (R246, R376): every shadow byte becomes visible at one point, and every cached copy of the
buffer's words is dropped; the shadow is empty. -/
def publishBytes (uid ctx base : Nat) (rs : List (Nat × Nat)) (ps : List (Nat × Byte)) (s : State) : State :=
  let s := (byteRuns ps).foldl (fun s p => sendWrite uid p.1 p.2 (homeWrite .published p.1 p.2 s)) s
  (dropCopies rs s).modCtx ctx fun c => { c with shadows := c.shadows.map fun b => if b.base = base then { b with bytes := [] } else b }

/-! ## Fabric command blocks, as far as pub asks for what they write -/

/-- Fields of a fabric command block (R258) and of the header of a participant of fab.a2a (R261): T, G, P, H, RB, DIR, RANK and DST. -/
def blockNum (b : List Byte) (a n : Nat) : Nat := leNat ((b.drop a).take n)
def headT (h : List Byte) : Nat := blockNum h 0 4
def headG (h : List Byte) : Nat := blockNum h 4 4
def headDst (h : List Byte) : Nat := blockNum h 19 8

/-- The ranges of virtual addresses that a fabric command writes on this device (R260 to R262); the rows of an all-to-all whose headers are not all here
lie anywhere from DST on. -/
def Fabric.writes (f : Fabric) : List (Nat × Nat) :=
  let n (a k : Nat) : Nat := blockNum f.block a k
  match n 0 1 with
  | 1 => if n 4 2 = 0xFFFF then (List.range (n 28 4)).map fun k => ((((n 16 8 : Int) + k * signed32 (n 36 4)) % 2 ^ 64).toNat, n 24 4) else []
  | 2 =>
    let row := n 28 4 / n 4 1 * n 24 4
    let heads := f.heads.filter fun h => h.1 != 255
    let far := if n 2 2 = 0 then (if heads.length + 1 < n 4 1 then 2 ^ 56 else ((heads.map fun h => headG h.2 + headT h.2).foldl max (n 36 4 + n 32 4)) * row)
      else n 32 4 * (n 28 4 * n 24 4)
    [(n 16 8, far)]
  | 3 => [(n 16 8, n 28 4)]
  | _ => []

/-- Whether an engine of this device still has a command of the group that writes into a buffer, or a gather (R246). -/
def engineInto (s : State) (b : Shadow) : Bool :=
  let ours (u : Nat) : Bool := s.grp.all.any fun w => w.uid == u
  (s.gathers.any fun g => ours g.wave) ||
    s.fabrics.any fun f => ours f.wave && (f.block == [] || f.writes.any fun r => meets r.1 r.2 b.base b.len)

/-- The buffer that pub, pub.drop and pub.close name, or the fault (R40, R244, R306). -/
def namedBuffer (p : DWord) (s : State) : Except (Nat × DWord) Shadow :=
  if 2 ^ 56 ≤ p.toNat then .error (0x10, p)
  else if s.grp.task.repl then .error (0x1A, s.here)
  else match bufferAt s s.ctxNo p.toNat with
    | some b => .ok b
    | none => .error (0x27, s.here)

/-- Whether an epilogue entry still has a row to land in a buffer. -/
def Epilogue.into (b : Shadow) (e : Epilogue) : Bool := (lanesOf (e.left &&& ~~~e.parked)).any fun l => inRange b.base b.len e.addrs[l].toNat

/-- The publication that a pub ends with, once the group's engine writes have landed and the wave has released (R246). -/
def pubEnd (base : Nat) (x : Exec) (s : State) : State :=
  match bufferAt s s.ctxNo base with
  | none => s
  | some b =>
    match b.plan (.core s.coreNo) s.ctxNo s with
    | (s, none) => stallBack x s
    | (s, some (.error f)) => pageFault x f (oweFaults [f] s)
    | (s, some (.ok (rs, ps))) =>
      let (s, w) := publishWaits rs ps s
      if w then stallBack x s else publishBytes s.w.uid s.ctxNo base rs ps (settleWave s.w.uid s)

/-- pub (R246): the group's engine writes land, the wave releases, and the bytes are published. -/
def pubBody (b : Fin 128) (x : Exec) (s : State) : State :=
  match namedBuffer (s.rdSS b) s with
  | .error (c, a) => faultRun x c a s
  | .ok buf =>
    if engineInto s buf then stallBack x s
    else
      let (s, w) := blockedAt ((s.grp.epilogues.filter (Epilogue.into buf)).flatMap (rowWords s s.grp)) s
      if w then stallBack x s else afterAcks (pubEnd buf.base) x (drainRows (Epilogue.into buf) s)

/-- The forms of pub wait for the ordered instructions pending (R204, R246). -/
def pubSig (b : Fin 128) : Sig :=
  { reads := sPair b, waitsFor := sPair b, perLane := false, fence := true, kind := .effect }

/-- pub (R246). -/
def execPub (b : Fin 128) (s : State) : Outcome := issue (pubSig b) (pubBody b) s

/-- The first page of a range that is typed non-coherent, or none where one must be waited for; a page that is not mapped has no type. -/
def anyNc : List (Nat × Nat) → State → State × Option (Option Nat)
  | [], s => (s, some none)
  | p :: t, s =>
    match translate (.core s.coreNo) s.ctxNo .load p.1 s with
    | (s, .ok _ true) => (s, some (some p.1))
    | (s, .fault _ _ true) => (s, some (some p.1))
    | (s, .wait) => (s, none)
    | (s, _) => anyNc t s

/-- pub.open (R244, R245). -/
def pubOpenBody (b l : Fin 128) (x : Exec) (s : State) : State :=
  let p := s.rdSS b
  let n := (s.rdS l).toNat
  if 2 ^ 56 < p.toNat + n ∨ 2 ^ 56 ≤ p.toNat then faultRun x 0x10 p s
  else
    match anyNc (piecesOf p.toNat n) s with
    | (s, none) => stallBack x s
    | (s, some (some va)) => faultRun x 0x13 (BitVec.ofNat 64 va) s
    | (s, some none) =>
      let held := (s.ctx s.ctxNo).shadows
      if s.grp.task.repl then faultRun x 0x1A s.here s
      else if p.toNat % 256 ≠ 0 ∨ n % 256 ≠ 0 ∨ n = 0 ∨ 2 ^ 32 - 256 < n ∨ 64 ≤ held.length ∨
          held.any (fun c => meets c.base c.len p.toNat n) = true then faultRun x 0x27 s.here s
      else s.modCtx s.ctxNo fun c => { c with shadows := c.shadows ++ [⟨p.toNat, n, []⟩] }

/-- pub.open (R245). -/
def execPubOpen (b l : Fin 128) (s : State) : Outcome :=
  let r := sPair b ++ sReg l
  issue { reads := r, waitsFor := r, perLane := false, kind := .effect } (pubOpenBody b l) s

/-- pub.drop and pub.close (R244). -/
def pubDropBody (close : Bool) (b : Fin 128) (x : Exec) (s : State) : State :=
  match namedBuffer (s.rdSS b) s with
  | .error (c, a) => faultRun x c a s
  | .ok buf =>
    let f (l : List Shadow) : List Shadow :=
      if close then l.filter fun d => d.base != buf.base
      else l.map fun d => if d.base = buf.base then { d with bytes := [] } else d
    s.modCtx s.ctxNo fun c => { c with shadows := f c.shadows }

/-- pub.drop (R244). -/
def execPubDrop (b : Fin 128) (s : State) : Outcome :=
  issue { reads := sPair b, waitsFor := sPair b, perLane := false, kind := .effect } (pubDropBody false b) s

/-- pub.close (R244). -/
def execPubClose (b : Fin 128) (s : State) : Outcome :=
  issue { reads := sPair b, waitsFor := sPair b, perLane := false, kind := .effect } (pubDropBody true b) s

end Sys2Proof.Machine
end

