-- ==== Sys2Proof/Machine/Atomics.lean ====
section
/-! DEFINITION. The atomics and reductions (R193 to R203). -/

namespace Sys2Proof.Machine

/-- The base pair of an atomic, d0 to d7 (R193). -/
def atomBase (b : Fin 8) : Fin 128 := ⟨2 * b.val, by omega⟩

/-- ORD of an atomic (R193, R198). -/
def releases (o : Fin 4) : Bool := 2 ≤ o.val
def acquires (o : Fin 4) : Bool := o.val % 2 == 1

/-- An atomic: data is the operand register, or the pair of atom.cas; with ORD it waits as a fence does (R198, R204). -/
def atomSig (data dst : List Reg) (a : Fin 128) (b : Fin 8) (o : Fin 4) (l : Fin 16) : Sig :=
  { reads := data ++ vReg a ++ sPair (atomBase b), addr := some (vReg a ++ sPair (atomBase b)), writes := dst, long := true, lookahead := l.val, ordered := true,
    fence := o != 0, kind := .store }

/-- The code of an operation in a message to a peer (R432): its place in R196. -/
def AtomOp.code : AtomOp → Nat
  | .add => 0
  | .min => 1
  | .max => 2
  | .and => 3
  | .or => 4
  | .xor => 5
  | .xchg => 6
  | .cas => 7

/-- Before a release atomic performs, the rows of the wave are stored and every write of it is acknowledged (R198, R204). -/
def releasePre (rel : Bool) (pre : Pre) : Pre := fun gs s =>
  if rel then
    let s := drainOwnRows s
    if unacked s then (s, none) else pre gs s
  else pre gs s

/-- An atomic in each lane (R195 to R198): with no lane performing there is neither a release nor an acquire. -/
def atomBody (g : Sig) (op : AtomOp) (d a : Fin 128) (b : Fin 8) (o : Fin 4) (x : Exec) (s : State) : State :=
  let old (l : Fin 32) : Word := s.w.rdV d l
  let new (l : Fin 32) : Word := s.w.rdV (odd d) l
  laneAccess g (cellNeed .store true) (laneAddr s (atomBase b) a)
      (releasePre (releases o) (allocPre (fun e => regionOf e.2.2.1 == 0) (remotePre op.code old new fun s => if releases o then releaseWave s else s))) (fun gs s =>
    let some_ := gs.any (performs s)
    let s := if releases o && some_ then releaseWave s else s
    let (s, xs, bad) := atomLanes op old new gs s
    let s := if acquires o && some_ then acquireWave s else s
    (endRemotes s, vWrite d zeroExt xs, bad)) x s

/-- atomAdd (R196). -/
def execAtomAdd (d a : Fin 128) (b : Fin 8) (o : Fin 4) (l : Fin 16) (s : State) : Outcome :=
  issue (atomSig (vReg d) (vReg d) a b o l) (atomBody (atomSig (vReg d) (vReg d) a b o l) .add d a b o) s
/-- atomMin (R196). -/
def execAtomMin (d a : Fin 128) (b : Fin 8) (o : Fin 4) (l : Fin 16) (s : State) : Outcome :=
  issue (atomSig (vReg d) (vReg d) a b o l) (atomBody (atomSig (vReg d) (vReg d) a b o l) .min d a b o) s
/-- atomMax (R196). -/
def execAtomMax (d a : Fin 128) (b : Fin 8) (o : Fin 4) (l : Fin 16) (s : State) : Outcome :=
  issue (atomSig (vReg d) (vReg d) a b o l) (atomBody (atomSig (vReg d) (vReg d) a b o l) .max d a b o) s
/-- atomAnd (R196). -/
def execAtomAnd (d a : Fin 128) (b : Fin 8) (o : Fin 4) (l : Fin 16) (s : State) : Outcome :=
  issue (atomSig (vReg d) (vReg d) a b o l) (atomBody (atomSig (vReg d) (vReg d) a b o l) .and d a b o) s
/-- atomOr (R196). -/
def execAtomOr (d a : Fin 128) (b : Fin 8) (o : Fin 4) (l : Fin 16) (s : State) : Outcome :=
  issue (atomSig (vReg d) (vReg d) a b o l) (atomBody (atomSig (vReg d) (vReg d) a b o l) .or d a b o) s
/-- atomXor (R196). -/
def execAtomXor (d a : Fin 128) (b : Fin 8) (o : Fin 4) (l : Fin 16) (s : State) : Outcome :=
  issue (atomSig (vReg d) (vReg d) a b o l) (atomBody (atomSig (vReg d) (vReg d) a b o l) .xor d a b o) s
/-- atomXchg (R196). -/
def execAtomXchg (d a : Fin 128) (b : Fin 8) (o : Fin 4) (l : Fin 16) (s : State) : Outcome :=
  issue (atomSig (vReg d) (vReg d) a b o l) (atomBody (atomSig (vReg d) (vReg d) a b o l) .xchg d a b o) s
/-- atomCas (R196). -/
def execAtomCas (d a : Fin 128) (b : Fin 8) (o : Fin 4) (l : Fin 16) (s : State) : Outcome :=
  issue (atomSig (vPair d) (vReg d) a b o l) (atomBody (atomSig (vPair d) (vReg d) a b o l) .cas d a b o) s

/-- A group atomic (R194, R196). -/
def atomgBody (g : Sig) (op : AtomOp) (d a : Fin 128) (i : BitVec 9) (x : Exec) (s : State) : State :=
  groupAccess g (cellNeed .store true) (groupAddr s a i) (allocPre (fun e => regionOf e.2.2.1 == 0) (remotePre op.code (fun _ => s.rdS d) (fun _ => s.rdS (odd d)) id)) (fun pa _ s =>
    let (s, old, bad) := if 2 ≤ regionOf pa then atomRemote op 0 pa (s.rdS d) (s.rdS (odd d)) s else atomOne op pa (s.rdS d) (s.rdS (odd d)) s
    (endRemotes s, [.s d old], if bad then some (wordOf pa) else none)) x s
def atomgSig (data : List Reg) (d a : Fin 128) : Sig :=
  { reads := data ++ sPair a, addr := some (sPair a), writes := sReg d, perLane := false, ordered := true, kind := .store }

/-- atomgAdd (R196). -/
def execAtomgAdd (d a : Fin 128) (i : BitVec 9) (s : State) : Outcome :=
  issue (atomgSig (sReg d) d a) (atomgBody (atomgSig (sReg d) d a) .add d a i) s
/-- atomgCas (R196). -/
def execAtomgCas (d a : Fin 128) (i : BitVec 9) (s : State) : Outcome :=
  issue (atomgSig (sPair d) d a) (atomgBody (atomgSig (sPair d) d a) .cas d a i) s

/-- A reduction in each lane (R200, R201): form 0 is FP32, else the code of R156. -/
def redBody (g : Sig) (form z : Nat) (v a : Fin 128) (b : Fin 32) (x : Exec) (s : State) : State :=
  laneAccess g { cellNeed .store true with size := z } (laneAddr s (baseReg b) a) (remotePre (8 + form) (fun l => s.w.rdV v l) (fun _ => 0) id) (fun gs s =>
    let (s, bad) := redLanes form (fun l => s.w.rdV v l) gs s
    (endRemotes s, [], bad)) x s

/-- redF32 (R200). -/
def execRedF32 (v a : Fin 128) (b : Fin 32) (s : State) : Outcome :=
  issue (stSig (vReg v) a b) (redBody (stSig (vReg v) a b) 0 4 v a b) s
/-- redBf16 (R201). -/
def execRedBf16 (v a : Fin 128) (b : Fin 32) (s : State) : Outcome :=
  issue (stSig (vReg v) a b) (redBody (stSig (vReg v) a b) 2 2 v a b) s
/-- redE4m3 (R201). -/
def execRedE4m3 (v a : Fin 128) (b : Fin 32) (s : State) : Outcome :=
  issue (stSig (vReg v) a b) (redBody (stSig (vReg v) a b) 3 1 v a b) s
/-- redE5m2 (R201). -/
def execRedE5m2 (v a : Fin 128) (b : Fin 32) (s : State) : Outcome :=
  issue (stSig (vReg v) a b) (redBody (stSig (vReg v) a b) 4 1 v a b) s

end Sys2Proof.Machine
end

