-- ==== Sys2Proof/Machine/Comb.lean ====
section
/-! DEFINITION. Comb space: handles (R41), the walk of the comb tables and the walker's caches (R399 to R403), comb loads and
stores (R247 to R249, R402), attention (R250 to R253) and the choice of blocks (R254, R255). -/

namespace Sys2Proof.Machine

/-! ## Handles and headers -/

/-- The fields of a comb handle (R41). -/
structure Handle where
  seq   : Nat
  layer : Nat
  head  : Nat
  pos   : Nat
  kv    : Nat
  egrp  : Nat
  deriving DecidableEq, Repr

/-- The fields of a handle word (R41). -/
def handleOf (h : DWord) : Handle :=
  ⟨bitsOf h.toNat 44 20, bitsOf h.toNat 36 8, bitsOf h.toNat 28 8, bitsOf h.toNat 4 24, bitsOf h.toNat 3 1, bitsOf h.toNat 0 3⟩

/-- The word of a handle (R41). -/
def Handle.word (h : Handle) : DWord :=
  BitVec.ofNat 64 (h.seq * 2 ^ 44 + h.layer * 2 ^ 36 + h.head * 2 ^ 28 + h.pos % 2 ^ 24 * 2 ^ 4 + h.kv * 8 + h.egrp)

/-- A handle moved by n positions; POS keeps its 24 bits (log entry 10). -/
def Handle.plus (h : Handle) (n : Nat) : Handle := { h with pos := (h.pos + n) % 2 ^ 24 }

/-- The block number of a handle (R400). -/
def Handle.block (h : Handle) : Nat := h.pos / 32

/-- A sequence header (R399): the counts of layers and heads, Dh, F by the codes of R22, and the address of the roots. -/
structure CombHeader where
  layers : Nat
  heads  : Nat
  dh     : Nat
  fmt    : Nat
  roots  : Nat
  deriving DecidableEq, Repr

/-- The header of its first two words. -/
def headerOf (lo hi : Nat) : CombHeader :=
  ⟨bitsOf lo 0 8 + 1, bitsOf lo 8 8 + 1, 64 * 2 ^ bitsOf lo 16 2, bitsOf lo 18 3, hi⟩

/-- Whether the 64 bytes of a header are malformed (R399). -/
def headerBad (x : Nat) : Bool :=
  let fmt := bitsOf x 18 3
  bitsOf x 21 43 != 0 || bitsOf x 128 384 != 0 || bitsOf x 16 2 == 3 || fmt == 4 || (decide (5 ≤ fmt) && bitsOf x 16 2 == 0) ||
    bitsOf x 64 64 % 16 != 0

/-- Bytes of one eighth of a position (R247). -/
def CombHeader.e8 (h : CombHeader) : Nat :=
  if h.fmt < 2 then h.dh / 8 * 2 else if h.fmt < 4 then h.dh / 8 else h.dh / 128 * (lineWidth h.fmt / 2)

/-! ## The walk -/

/-- What a walk finds for a block: the header, the address of the block entry (none with a table absent), the entry, and the
address of the block's summary (none where the level-A entry names no table). -/
structure Found where
  header : CombHeader
  at_    : Option Nat
  entry  : Nat
  sums   : Option Nat
  deriving DecidableEq, Repr

/-- V, G and SUMV of a block entry (R400). -/
def Found.valid (f : Found) : Bool := testBit f.entry 0
def Found.gathered (f : Found) : Bool := testBit f.entry 0 && testBit f.entry 1
def Found.sumv (f : Found) : Bool := testBit f.entry 2

/-- BASE of a resident block (R400). -/
def Found.base (f : Found) : Nat := bitsOf f.entry 8 44 * 256

/-- The end of a walk or of a step of it: what it finds, the comb range fault, a wait for the line of a table in host or peer memory, or a poisoned
word of a table. -/
inductive Walked (α : Type) where
  | found (x : α)
  | range
  | wait
  | poison (a : Nat)
  deriving DecidableEq, Repr

/-- A walk that goes on from what a step found. -/
def Walked.andThen {α β : Type} (r : State × Walked α) (f : α → State → State × Walked β) : State × Walked β :=
  match r with
  | (s, .found x) => f x s
  | (s, .range) => (s, .range)
  | (s, .wait) => (s, .wait)
  | (s, .poison a) => (s, .poison a)

/-- n bytes of a comb table at a physical address, as a number. DESIGN CHOICE (log entry 89): the addresses that the directory, the sequence tables, the roots
and the levels hold are physical, as COMB and BASE are; R399 and R400 say only that they are addresses. -/
def tableNum (a n : Nat) (s : State) : State × Walked Nat :=
  let far := ((wordsOf a n).map fun w => lineOf w * 256).filter fun l => !lineHeld s l
  if far != [] then (far.foldl (fun s l => askLine l s) s, .wait)
  else
    let (s, bs, bad) := homeRead .engine a n s
    (s, if bad then .poison (((wordsOf a n).find? fun w => s.marked w).getD a) else .found (leNat bs))

/-- A cached line of a walker port. -/
def combFind (s : State) (port ctx seq : Nat) (block : Option Nat) (key : Nat) : Option CombLine :=
  s.combs.find? fun c => c.port == port && c.ctx == ctx && c.seq == seq && c.block == block && c.key == key

/-- A line kept by a walker port (R403). -/
def combKeep (c : CombLine) (s : State) : State :=
  { s with combs := c :: s.combs.filter fun d =>
      !(d.port == c.port && d.ctx == c.ctx && d.seq == c.seq && d.block == c.block && d.key == c.key) }

/-- The header of a sequence as a port finds it; none is the comb range fault (R42, R399). The walker has a port for each core, which keeps what it
walked (R403); DESIGN CHOICE (log entry 75). -/
def walkHeader (port ctx seq : Nat) (s : State) : State × Walked CombHeader :=
  match combFind s port ctx seq none 0, combFind s port ctx seq none 1 with
  | some a, some b => (s, .found (headerOf a.val.toNat b.val.toNat))
  | _, _ =>
    let dir := (s.ctx ctx).comb.toNat
    if dir = 0 then (s, .range)
    else
      Walked.andThen (tableNum (dir + 8 * (seq / 1024)) 8 s) fun t s =>
      if t = 0 then (s, .range)
      else
        Walked.andThen (tableNum (t + 8 * (seq % 1024)) 8 s) fun a s =>
        if a = 0 then (s, .range)
        else
          Walked.andThen (tableNum a 64 s) fun x s =>
          if headerBad x then (s, .range)
          else
            let lo := bitsOf x 0 64
            let hi := bitsOf x 64 64
            let s := combKeep ⟨port, ctx, seq, none, 0, BitVec.ofNat 64 lo, a, 0⟩ s
            (combKeep ⟨port, ctx, seq, none, 1, BitVec.ofNat 64 hi, a, 0⟩ s, .found (headerOf lo hi))

/-- The key of a root in a port's cache. -/
def rootKey (h : Handle) : Nat := 2 + (h.layer * 256 + h.head) * 2 + h.kv

/-- The level-A address of a handle's root entry, 0 for none; none is the range fault (R399). -/
def walkRoot (port ctx : Nat) (h : Handle) (d : CombHeader) (s : State) : State × Walked Nat :=
  match combFind s port ctx h.seq none (rootKey h) with
  | some c => (s, .found c.val.toNat)
  | none =>
    let a := d.roots + 16 * ((h.layer * d.heads + h.head) * 2 + h.kv)
    Walked.andThen (tableNum a 16 s) fun x s =>
    if x / 2 ^ 64 ≠ 0 then (s, .range)
    else (if x = 0 then s else combKeep ⟨port, ctx, h.seq, none, rootKey h, BitVec.ofNat 64 x, a, 0⟩ s, .found x)

/-- The address of the summary of a handle's block in a summary table (R400). -/
def summaryAt (d : CombHeader) (h : Handle) (table : Nat) : Option Nat :=
  if table = 0 then none else some (table + h.block % 512 * d.dh * 8)

/-- The walk of a handle to its block entry (R399, R400). Only an entry with V 1 is kept. -/
def walkComb (port ctx : Nat) (h : Handle) (s : State) : State × Walked Found :=
  Walked.andThen (walkHeader port ctx h.seq s) fun d s =>
  if d.layers ≤ h.layer ∨ d.heads ≤ h.head then (s, .range)
  else
    match combFind s port ctx h.seq (some h.block) (rootKey h) with
    | some c => (s, .found ⟨d, some c.at_, c.val.toNat, summaryAt d h c.sums⟩)
    | none =>
      Walked.andThen (walkRoot port ctx h d s) fun la s =>
      if la = 0 then (s, .found ⟨d, none, 0, none⟩)
      else
        Walked.andThen (tableNum (la + 16 * (h.block / 512)) 16 s) fun x s =>
        let lb := x % 2 ^ 64
        let sums := x / 2 ^ 64
        if lb = 0 then (s, .found ⟨d, none, 0, summaryAt d h sums⟩)
        else
          let at_ := lb + 8 * (h.block % 512)
          Walked.andThen (tableNum at_ 8 s) fun e s =>
          let s := if testBit e 0 then combKeep ⟨port, ctx, h.seq, some h.block, rootKey h, BitVec.ofNat 64 e, at_, sums⟩ s else s
          (s, .found ⟨d, some at_, e, summaryAt d h sums⟩)

/-- The handle that a gather reference names for a handle (R400, R401). -/
def sourceHandle (e : Nat) (h : Handle) : Handle :=
  ⟨bitsOf e 44 20, bitsOf e 36 8, bitsOf e 28 8, bitsOf e 9 19 * 32 + h.pos % 32, h.kv, h.egrp⟩

/-- Where a comb access lands: at an unmapped block with the handle that a trap reports, or at a block. -/
inductive CombPlace where
  | missing (h : DWord)
  | block (gathered : Bool) (h : Handle) (f : Found)
  deriving DecidableEq, Repr

/-- The place of a handle; a reference is followed to its source, which is itself no reference (R253, R257, R401). -/
def locate (port ctx : Nat) (h : Handle) (s : State) : State × Walked CombPlace :=
  Walked.andThen (walkComb port ctx h s) fun f s =>
  if f.gathered then
    let src := sourceHandle f.entry h
    Walked.andThen (walkComb port ctx src s) fun g s =>
    (s, .found (if g.valid && !g.gathered then .block true src g else .missing src.word))
  else (s, .found (if f.valid then .block false h f else .missing h.word))

/-- The physical address of a handle's eighth (R400). -/
def eighthAt (h : Handle) (f : Found) : Nat := f.base + (8 * (h.pos % 32) + h.egrp) * f.header.e8

/-! ## Loads and stores -/

/-- A lane of a comb load or store, located: its physical address and byte count with the handle that holds them, its fault, or the poisoned word that it met. -/
inductive CombLane where
  | go (pa n : Nat) (h : DWord)
  | fault (cause : Nat) (addr : DWord)
  | poison (a : Nat)
  | wait
  deriving DecidableEq, Repr

/-- Bytes of a channel's element, or of an SB block, with the channels that they hold. -/
def CombHeader.unit (d : CombHeader) : Nat × Nat := if d.fmt < 5 then (d.e8 * 8 / d.dh, 1) else (lineWidth d.fmt / 2, 16)

/-- The channels, within an eighth, that bytes at to at + n - 1 of it hold: whole blocks for an SB format (R402). -/
def channelsIn (d : CombHeader) (at_ n : Nat) : List Nat :=
  (List.range (d.dh / 8)).filter fun c => decide (c / d.unit.2 * d.unit.1 < at_ + n) && decide (at_ < (c / d.unit.2 + 1) * d.unit.1)

/-- The words of the minimum and the maximum of channels in a summary (R400). -/
def summaryWords (d : CombHeader) (sums : Nat) (cs : List Nat) : List Nat := cs.flatMap fun c => wordsOf (sums + 4 * c) 4 ++ wordsOf (sums + 4 * (d.dh + c)) 4

/-- The channels whose minima and maxima a comb.st of n bytes at at of its eighth changes: those that the bytes hold, and every one with the block's first
store (R249, R402). -/
def changed (h : Handle) (f : Found) (at_ n : Nat) : List Nat :=
  if f.sumv then (channelsIn f.header at_ n).map fun c => h.egrp * (f.header.dh / 8) + c else List.range f.header.dh

/-- The words that a comb.st writes: its own, and for a K block those of the block's summary and, with its first store, of its entry (R402). -/
def combTargets (h : Handle) (f : Found) (pa at_ n : Nat) : List Nat :=
  wordsOf pa n ++ (if h.kv ≠ 0 then [] else match f.sums with
    | some a => summaryWords f.header a (changed h f at_ n) ++ (if f.sumv then [] else match f.at_ with
      | some e => wordsOf e 8
      | none => [])
    | none => [])

/-- The words that a summary's update reads once the store has performed: the old summary and the elements of the channels that change, or the whole block (R402). -/
def combSources (h : Handle) (f : Found) (pa at_ n : Nat) : List Nat :=
  if h.kv ≠ 0 then []
  else match f.sums with
  | none => []
  | some a =>
    if f.sumv then
      let lo := at_ / f.header.unit.1 * f.header.unit.1
      summaryWords f.header a (changed h f at_ n) ++ wordsOf (pa - (at_ - lo)) ((at_ + n - lo + f.header.unit.1 - 1) / f.header.unit.1 * f.header.unit.1)
    else wordsOf f.base (256 * f.header.e8)

/-- The lines of host or peer memory that a summary's update reads and that are not here. -/
def combFar (ws : List Nat) (s : State) : List Nat := ((ws.map fun w => lineOf w * 256).dedup).filter fun a => !lineHeld s a

/-- The walk of a comb.st, which may write no reference and does not follow one (R248, R257). -/
def locateStore (port ctx : Nat) (h : Handle) (s : State) : State × Walked CombPlace :=
  Walked.andThen (walkComb port ctx h s) fun f s =>
  if f.gathered then (s, .range) else (s, .found (if f.valid then .block false h f else .missing h.word))

/-- The checks of one lane of comb.ld or comb.st (R42, R247, R248, R306), the lowest cause first; then the waits of its accesses. DESIGN CHOICE (log entry
91): a comb.st whose summary's update would read a poisoned word that the store itself does not replace raises cause 0x19 in its lane with that word's address,
and writes nothing. -/
def combLane (store : Bool) (j : Nat) (w : DWord) (s : State) : State × CombLane :=
  let h := handleOf w
  match Walked.andThen (walkHeader s.coreNo s.ctxNo h.seq s) (fun d s =>
    if d.e8 ≤ 4 * j then (s, .range) else if store then locateStore s.coreNo s.ctxNo h s else locate s.coreNo s.ctxNo h s) with
  | (s, .range) => (s, .fault 0x17 w)
  | (s, .wait) => (s, .wait)
  | (s, .poison a) => (s, .poison a)
  | (s, .found (.missing a)) => (s, .fault 0x18 a)
  | (s, .found (.block _ g f)) =>
    let pa := eighthAt g f + 4 * j
    let n := min 4 (f.header.e8 - 4 * j)
    if f.header.e8 ≤ 4 * j then (s, .fault 0x17 w)
    else if store && s.grp.task.repl then (s, .fault 0x1A w)
    else if !store then
      let far := combFar (wordsOf pa n) s
      (far.foldl (fun s a => askLine a s) s, if far = [] then .go pa n g.word else .wait)
    else
      let reads := combSources g f pa (4 * j) n
      let far := combFar reads s
      let (s, wait) := blockedAt (combTargets g f pa (4 * j) n) (far.foldl (fun s a => askLine a s) s)
      (s, if wait || far != [] then .wait else match reads.find? fun r => s.marked r && !(pa ≤ r && r + 4 ≤ pa + n) with
        | some r => .poison r
        | none => .go pa n g.word)

/-- The lanes of a comb load or store, each located before any access is made. -/
def planComb (store : Bool) (j : Nat) (hs : Fin 32 → DWord) : List (Fin 32) → State → State × List (Fin 32 × CombLane)
  | [], s => (s, [])
  | l :: t, s =>
    let (s, r) := combLane store j (hs l) s
    let (s, rs) := planComb store j hs t s
    (s, (l, r) :: rs)

/-- The ready lanes of a plan, its faults, the lanes whose walk met poison, and whether one waits. -/
def combGo (rs : List (Fin 32 × CombLane)) : List (Fin 32 × Nat × Nat) := rs.filterMap fun r => match r.2 with
  | .go pa n _ => some (r.1, pa, n)
  | _ => none
def combFaults (rs : List (Fin 32 × CombLane)) : List LaneFault := rs.filterMap fun r => match r.2 with
  | .fault c a => some ⟨r.1, c, a⟩
  | _ => none
def combBad (rs : List (Fin 32 × CombLane)) : List Poisoned := rs.filterMap fun r => match r.2 with
  | .poison a => some (r.1, BitVec.ofNat 64 a, a)
  | _ => none
def combWaits (rs : List (Fin 32 × CombLane)) : Bool := rs.any fun r => r.2 == .wait

/-- The accesses of a comb load or store in comb space (R288): in each lane the eighth of its handle, and that of the source of a reference. -/
def combOver (g : Sig) (hs : Fin 32 → DWord) (rs : List (Fin 32 × CombLane)) : Sig :=
  g.over 3 1 (rs.flatMap fun r => (r.1, (hs r.1).toNat) :: match r.2 with
    | .go _ _ h => [(r.1, h.toNat)]
    | .fault c a => if c = 0x18 then [(r.1, a.toNat)] else []
    | _ => [])

/-- The records that comb faults owe: KIND 4 for an unmapped block (R387). -/
def combPages (fs : List LaneFault) : List PageFault :=
  (fs.filter fun f => f.cause == 0x18).map fun f => ⟨f.addr, 0x18, 4⟩

/-- The loads of comb.ld in ascending lane order. -/
def combLoads : List (Fin 32 × Nat × Nat) → State → State × List (Fin 32 × Nat) × List Poisoned
  | [], s => (s, [], [])
  | (l, pa, n) :: t, s =>
    let (s, x, bad) := loadNum s.reader s.coreNo false pa n s
    let (s, xs, bs) := combLoads t s
    match bad with
    | some w => (s, xs, (l, BitVec.ofNat 64 w, w) :: bs)
    | none => (s, (l, x) :: xs, bs)

/-- comb.ld (R248, R305): ordinary loads, after the wave's own stores (R288). -/
def combLdBody (g : Sig) (d a : Fin 128) (b : Fin 32) (x : Exec) (s : State) : State :=
  if s.w.mode = .ahead then markUnknown g.writes s
  else
    let hs (l : Fin 32) : DWord := s.w.rdVV a l
    let (s, rs) := planComb false (s.rdS (scratchBase b)).toNat hs (lanesOf x.en) s
    let g := combOver g hs rs
    let ws := (combGo rs).flatMap fun e => (missing s.reader s.coreNo (wordsOf e.2.1 e.2.2) s).map fun w => (w, false)
    if combWaits rs || heldBehind g s then stallBack x s
    else match heldStores true s with
    | (s, true) => stallBack x s
    | (s, false) => match loadMisses s.coreNo ws s with
      | (s, true) => stallBack x s
      | (s, false) =>
        let (s, xs, bad) := combLoads (combGo rs) (drainOwnRows (drainNt s))
        let (s, ps) := poisonFaults 0 (combBad rs ++ bad) s
        deliver g x (vWrite d zeroExt xs) (combFaults rs ++ ps) (oweRecords (combPages (combFaults rs)) s)

/-- comb.ld (R248). -/
def combLdSig (d a : Fin 128) (b : Fin 32) (l : Fin 16) : Sig :=
  { reads := vPair a ++ sReg (scratchBase b), writes := vReg d, waitsFor := vPair a ++ sReg (scratchBase b), long := true, lookahead := l.val, ordered := true, kind := .memory }

/-- comb.ld (R248). -/
def execCombLd (d a : Fin 128) (b : Fin 32) (l : Fin 16) (s : State) : Outcome :=
  issue (combLdSig d a b l) (combLdBody (combLdSig d a b l) d a b) s

/-! ## Summaries -/

/-- The FP32 code of channel ch of a position held as a number (R91, R81, R402). -/
def channelCode (d : CombHeader) (line ch : Nat) : Word :=
  if d.fmt < 5 then BitVec.ofNat 32 (widen (match d.fmt with
      | 0 => bf16
      | 1 => fp16
      | 2 => e4m3
      | _ => e5m2) (bitsOf line (8 * (d.e8 * 8 / d.dh) * ch) (8 * (d.e8 * 8 / d.dh))))
  else toF32 .nearest (elementNum d.fmt line ch)

/-- Position p of a block as the walker reads it, as a number. -/
def positionNum (g : Agent) (d : CombHeader) (base p : Nat) (s : State) : State × Nat × Bool :=
  let (s, bs, bad) := homeRead g (base + 8 * p * d.e8) (8 * d.e8) s
  (s, leNat bs, bad)

/-- An ordinary store of the walker for the issuing wave (R305, R402). -/
def combStore (a : Nat) (bs : List Byte) (s : State) : State := sendWrite s.w.uid a bs (storeBytes s.w.uid s.coreNo false a bs s)

/-- The positions of a whole block, as numbers. -/
def blockLines (g : Agent) (d : CombHeader) (base : Nat) : Nat → State → State × List Nat
  | 0, s => (s, [])
  | n + 1, s =>
    let (s, x, _) := positionNum g d base (31 - n) s
    let (s, xs) := blockLines g d base n s
    (s, x :: xs)

/-- The minimum or maximum of a channel over a list of values. -/
def foldCode (f : Word → Word → Word) : List Word → Word
  | [] => defaultNan
  | x :: t => t.foldl f (f x x)

/-- SUMV is set in a block entry and in the walker's copies of it (R402). -/
def setSumv (ctx : Nat) (h : Handle) (f : Found) (s : State) : State :=
  match f.at_ with
  | none => s
  | some a =>
    let e := f.entry + (if f.sumv then 0 else 4)
    let s := combStore a (leBytes 8 e) s
    let same (c : CombLine) : Bool := c.ctx == ctx && c.seq == h.seq && c.block == some h.block && c.key == rootKey h
    { s with combs := s.combs.map fun c => if same c then { c with val := BitVec.ofNat 64 e } else c }

/-- The minimum and the maximum of a channel written as ordinary stores (R402). -/
def writeBounds (d : CombHeader) (sums ch : Nat) (lo hi : Word) (s : State) : State :=
  combStore (sums + 4 * (d.dh + ch)) (leBytes 4 hi.toNat) (combStore (sums + 4 * ch) (leBytes 4 lo.toNat) s)

/-- One channel's minimum and maximum take in its values. -/
def widenChannel (g : Agent) (d : CombHeader) (sums line ch : Nat) (s : State) : State :=
  let (s, lo, _) := homeRead g (sums + 4 * ch) 4 s
  let (s, hi, _) := homeRead g (sums + 4 * (d.dh + ch)) 4 s
  let x := channelCode d line ch
  writeBounds d sums ch (fminOp (BitVec.ofNat 32 (leNat lo)) x) (fmaxOp (BitVec.ofNat 32 (leNat hi)) x) s

/-- After a comb.st to a K position the block's summary takes the values in (R249, R402). -/
def widenSummary (h : Handle) (at_ n : Nat) (s : State) : State :=
  if h.kv ≠ 0 then s
  else
    match walkComb s.coreNo s.ctxNo h s with
    | (s, .found f) =>
      match f.sums with
      | none => s
      | some sums =>
        let d := f.header
        if f.sumv then
          let (s, line, _) := positionNum s.agent d f.base (h.pos % 32) s
          (changed h f at_ n).foldl (fun s c => widenChannel s.agent d sums line c s) s
        else
          let (s, lines) := blockLines s.agent d f.base 32 s
          let all (g : Word → Word → Word) (c : Nat) : Word := foldCode g (lines.map fun x => channelCode d x c)
          setSumv s.ctxNo h f ((changed h f at_ n).foldl (fun s c => writeBounds d sums c (all fminOp c) (all fmaxOp c) s) s)
    | (s, _) => s

/-- The stores of comb.st, each word once with the highest lane's value, each with its summary (R170, R249, R305). -/
def combStores (v : Fin 128) (j : Nat) (hs : Fin 32 → DWord) (gs : List (Fin 32 × Nat × Nat)) (s : State) : State :=
  let last := gs.foldl (fun l a => (l.filter fun b => b.2.1 != a.2.1) ++ [a]) []
  last.foldl (fun s a =>
    let bs := leBytes a.2.2 (s.w.rdV v a.1).toNat
    widenSummary (handleOf (hs a.1)) (4 * j) a.2.2 (combStore a.2.1 bs s)) s

/-- comb.st (R248, R249), after the wave's own stores (R288). -/
def combStBody (g : Sig) (v a : Fin 128) (b : Fin 32) (x : Exec) (s : State) : State :=
  if s.w.mode = .ahead then s
  else
    let j := (s.rdS (scratchBase b)).toNat
    let hs (l : Fin 32) : DWord := s.w.rdVV a l
    let (s, rs) := planComb true j hs (lanesOf x.en) s
    let g := combOver g hs rs
    if combWaits rs || heldBehind g s then stallBack x s
    else afterStores true (fun x s =>
      let (s, ps) := poisonFaults 0 (combBad rs) (combStores v j hs (combGo rs) s)
      deliver g x [] (combFaults rs ++ ps) (oweRecords (combPages (combFaults rs)) s)) x s

/-- comb.st (R248). -/
def combStSig (v a : Fin 128) (b : Fin 32) : Sig :=
  let r := vReg v ++ vPair a ++ sReg (scratchBase b)
  { reads := r, waitsFor := r, long := true, ordered := true, kind := .store }

/-- comb.st (R248). -/
def execCombSt (v a : Fin 128) (b : Fin 32) (s : State) : Outcome :=
  issue (combStSig v a b) (combStBody (combStSig v a b) v a b) s

/-! ## Attention -/

/-- The fields of a tile header (R21). -/
def hdrNext (h : DWord) : Nat := bitsOf h.toNat 0 24
def hdrActive (h : DWord) : Bool := testBit h.toNat 24
def hdrKind (h : DWord) : Nat := bitsOf h.toNat 25 1
def hdrSpan (h : DWord) : Nat := bitsOf h.toNat 32 24

/-- A tile header (R21). -/
def hdrWord (next : Nat) (active : Bool) (kind span : Nat) : DWord :=
  BitVec.ofNat 64 (next % 2 ^ 24 + (if active then 2 ^ 24 else 0) + kind * 2 ^ 25 + span * 2 ^ 32)

/-- Whether an attention instruction resumes (R251 to R253). -/
def resumes (h : DWord) (kind n : Nat) : Bool := hdrActive h && hdrKind h == kind && hdrSpan h == n

/-- Whether a range fault of R42 stands at one of the blocks of a span, or at the source of a reference there (R250). -/
def rangeIn (port ctx : Nat) (h : Handle) : List Nat → State → State × Walked Unit
  | [], s => (s, .found ())
  | i :: t, s => Walked.andThen (locate port ctx (h.plus i) s) fun _ s => rangeIn port ctx h t s

/-- The operand-buffer checks of a query range (R250). -/
def queriesOk (r : DWord) (d : CombHeader) : Bool :=
  obLen r != 0 && obScale r == 0 && obFmt r == d.fmt &&
    (List.range (d.dh / 32)).all fun c => decide (c * obBlk r + chunkUnits (obFmt r) ≤ obLen r)

/-- The checks of an attention instruction or comb.sum, the lowest cause first (R250, R254, R405): a fault with its address, or the
header; none waits. Step is the distance of the positions checked. DESIGN CHOICE (log entry 87): they stand with N = 0 too, the range check at POS; R250 says
that such an N changes nothing. -/
def attnChecks (w : DWord) (nreg : Word) (q : Option DWord) (kv : Nat) (zeroEgrp : Bool) (aligned : Bool) (step : Nat) (s : State) :
    State × Option (Except (Nat × DWord) CombHeader) :=
  let h := handleOf w
  let n := nreg.toNat
  match Walked.andThen (walkHeader s.coreNo s.ctxNo h.seq s) (fun d s =>
    Walked.andThen (rangeIn s.coreNo s.ctxNo { h with kv := kv } ((List.range (max 1 (min n 32))).map (· * step)) s) fun _ s => (s, .found d)) with
  | (s, .wait) => (s, none)
  | (s, .range) => (s, some (.error (0x17, s.here)))
  | (s, .poison a) => (s, some (.error (0x19, BitVec.ofNat 64 a)))
  | (s, .found d) =>
    if (match q with
      | some r => !queriesOk r d
      | none => false) then (s, some (.error (0x24, s.here)))
    else if decide (32 < n) || h.kv != kv || (zeroEgrp && h.egrp != 0) || (aligned && h.pos % 32 != 0) then
      (s, some (.error (0x28, s.here)))
    else (s, some (.ok d))

/-- A fault of the run with RESTART 0 (R233); that of a poisoned word is logged with its array (R406, R421). -/
def attnFault (array : Nat) (x : Exec) (c : Nat) (a : DWord) (s : State) : State :=
  if c = 0x19 then
    let (s, fs) := poisonFaults array (poisonedRun x.run a a.toNat) s
    parkAgain x fs s
  else faultRun x c a s

/-- The poisoned unit of the operand buffer that the queries of the rows of a run take (R406, R419). -/
def queryPoison (g : Group) (r : DWord) (dh : Nat) (m : Mask) : Option Nat :=
  ((lanesOf m).flatMap fun i => (List.range (dh / 32)).flatMap fun c =>
    let a := lineAt r c i.val
    [a / 64, (a + lineWidth (obFmt r) - 1) / 64]).find? fun u => g.obufPoison.contains u

/-- One position of K or V: its channels' values, an unmapped block, a poisoned word, or a wait. -/
inductive Position where
  | data (d : CombHeader) (line : Nat)
  | fault (cause : Nat) (addr : DWord)
  | wait
  deriving DecidableEq, Repr

/-- A position read as ordinary loads of the wave (R251, R252, R305): whole, or its eighth alone where the handle names one and the block has the head dimension
part. -/
def readPosition (part : Nat) (h : Handle) (s : State) : State × Position :=
  match locate s.coreNo s.ctxNo h s with
  | (s, .range) => (s, .fault 0x17 s.here)
  | (s, .wait) => (s, .wait)
  | (s, .poison a) => (s, .fault 0x19 (BitVec.ofNat 64 a))
  | (s, .found (.missing a)) => (s, .fault 0x18 a)
  | (s, .found (.block _ g f)) =>
    let one := f.header.dh = part
    let skip := if one then g.egrp * f.header.e8 else 0
    let n := if one then f.header.e8 else 8 * f.header.e8
    let a := f.base + 8 * (g.pos % 32) * f.header.e8 + skip
    let far := combFar (wordsOf a n) s
    if far != [] then (far.foldl (fun s l => askLine l s) s, .wait)
    else match loadNum s.reader s.coreNo false a n s with
      | (s, _, some w) => (s, .fault 0x19 (BitVec.ofNat 64 w))
      | (s, x, none) => (s, .data f.header (x * 2 ^ (8 * skip)))

/-- An instruction with accesses to the positions of a list from a handle on, for every lane of a run (R288); they wait behind a comb.st that is pending. -/
def spanOver (h : Handle) (js : List Nat) (x : Exec) (g : Sig) : Sig :=
  g.over 3 8 ((lanesOf x.run).flatMap fun l => js.map fun j => (l, ({ h.plus j with egrp := 0 }).word.toNat))

/-- The positions from NEXTPOS on, up to the first that cannot be read (R253), with what stops there. -/
def readSpan (part : Nat) (h : Handle) : List Nat → State → State × List (CombHeader × Nat) × Option Position
  | [], s => (s, [], none)
  | j :: t, s =>
    match readPosition part (h.plus j) s with
    | (s, .data d x) =>
      let (s, xs, e) := readSpan part h t s
      (s, (d, x) :: xs, e)
    | (s, p) => (s, [], some p)

/-- A channel of a position as a value; a channel that the source of a reference does not hold is a free value. -/
def channelNum (d : CombHeader) (line ch : Nat) : Num :=
  if ch < d.dh then elementNum d.fmt line ch else f32 (Config.noElement line ch)

/-- The query elements of a line, in chunks of 32 (R250). -/
def queryChunks (g : Group) (r : DWord) (dh : Nat) (i : Fin 32) : List (List Num) :=
  (List.range (dh / 32)).map fun c =>
    let line := lineNum g r c i.val
    (List.range 32).map fun q => elementNum (obFmt r) line q

/-- The score of a query row against a position: R98 over +0 (R251). -/
def score (qs : List (List Num)) (dh : Nat) (d : CombHeader) (line : Nat) : Word :=
  let one : Num := .fin false 1 0
  accumulate 0 ((List.range (dh / 32)).map fun c =>
    (List.range 32).map fun q => product ((qs.getD c []).getD q .nan) (channelNum d line (32 * c + q)) one one)

/-- One position in one row of attn.qk (R251). -/
def qkStep (j : Nat) (s : Word) (r : Row) : Row :=
  let m2 := fmaxOp r.max s
  let low := m2 == 0xFF800000
  let f := if low then 0 else fexp2Op (fsub .nearest r.max m2)
  let e := if low then 0 else fexp2Op (fsub .nearest s m2)
  { cells := if h : j < 32 then r.cells.set j s else r.cells, max := m2, sum := ffma .nearest r.sum f e }

/-- The end of attn.qk in one row (R251). -/
def qkEnd (n : Nat) (r : Row) : Row :=
  { r with cells := Lanes.ofFn fun j =>
      if n ≤ j.val ∨ r.max = 0xFF800000 then 0 else fexp2Op (fsub .nearest r.cells[j] r.max) }

/-- The results of an attention instruction that ended or stopped: the rows of the run, the header, and the fault for the run. -/
def attnDeliver (g : Sig) (x : Exec) (t : Fin 16) (rows : Lanes Row) (hdr : DWord) (stop : Option Position) (s : State) : State :=
  let ws : List RegWrite := [.rows t x.run rows, .header t hdr]
  match stop with
  | some (.fault 0x19 a) =>
    let (s, fs) := poisonFaults 0 (poisonedRun x.run a a.toNat) s
    deliver g x ws fs s
  | some (.fault c a) => deliver g x ws (allLanes x.run c a) (oweRecords (combPages (allLanes x.run c a)) s)
  | _ => deliver g x ws [] s

/-- attn.qk (R250, R251, R253), after the wave's own stores. -/
def attnQkEnd (g : Sig) (h : Fin 64) (t : Fin 16) (q : Fin 8) (nr : Fin 32) (x : Exec) (s : State) : State :=
  let w := s.rdSS (dPair h)
  let nw := s.rdS (scratchBase nr)
  let n := nw.toNat
  let r := s.grp.ob[q]
  match attnChecks w nw (some r) 0 true false 1 s with
  | (s, none) => stallBack x s
  | (s, some (.error (c, a))) => attnFault 0 x c a s
  | (s, some (.ok d)) =>
    if n = 0 then s
    else if heldBehind (spanOver (handleOf w) (List.range n) x g) s then stallBack x s
    else match queryPoison s.grp r d.dh x.run with
    | some u => attnFault 4 x 0x19 (BitVec.ofNat 64 u) s
    | none =>
      let tile := s.w.tile t
      let from_ := if resumes tile.header 0 n then hdrNext tile.header else 0
      let (s, xs, stop) := readSpan 0 (handleOf w) ((List.range n).drop from_) s
      if stop = some .wait then stallBack x s
      else
        let row (i : Fin 32) : Row :=
          let qs := queryChunks s.grp r d.dh i
          let z := xs.foldl (fun (b : Nat × Row) p => (b.1 + 1, qkStep b.1 (score qs d.dh p.1 p.2) b.2)) (from_, tile.rows[i])
          if stop.isSome then z.2 else qkEnd n z.2
        let rows := Lanes.ofFn fun i => if bit x.run i then row i else tile.rows[i]
        let hdr := if stop.isSome then hdrWord (from_ + xs.length) true 0 n else hdrWord 0 false 0 n
        attnDeliver (spanOver (handleOf w) ((List.range n).drop (from_ + xs.length)) x g) x t rows hdr stop s

/-- attn.qk (R250, R251, R253). -/
def attnQkBody (g : Sig) (h : Fin 64) (t : Fin 16) (q : Fin 8) (nr : Fin 32) : Exec → State → State := afterStores true (attnQkEnd g h t q nr)

/-- attn.qk and comb.sum (R232): the tile is the pending destination. -/
def attnSig (h : Fin 64) (t : Fin 16) (nr : Fin 32) (l : Fin 16) : Sig :=
  let r := sPair (dPair h) ++ sReg (scratchBase nr) ++ tReg t
  { reads := r, waitsFor := r, writes := tReg t, perLane := false, long := true,
    lookahead := l.val, ordered := true, kind := .effect }

/-- attn.qk (R251). -/
def execAttnQk (h : Fin 64) (t : Fin 16) (q : Fin 8) (nr : Fin 32) (l : Fin 16) (s : State) : Outcome :=
  issue (attnSig h t nr l) (attnQkBody (attnSig h t nr l) h t q nr) s

/-- The start of attn.pv in one row: the row of O is scaled to the maximum of P (R252). -/
def pvStart (channels : Nat) (p o : Row) : Row :=
  let f := if p.max = 0xFF800000 then 0 else fexp2Op (fsub .nearest o.max p.max)
  { cells := Lanes.ofFn fun c => if c.val < channels then fmul .nearest o.cells[c] f else o.cells[c], max := p.max, sum := p.sum }

/-- One position in one row of attn.pv (R252). -/
def pvStep (channels egrp j : Nat) (p : Row) (d : CombHeader) (line : Nat) (o : Row) : Row :=
  let pj : Word := if h : j < 32 then p.cells[j] else 0
  { o with cells := Lanes.ofFn fun c =>
      if c.val < channels then
        let v := if egrp * channels + c.val < d.dh then channelCode d line (egrp * channels + c.val)
          else Config.noElement line (egrp * channels + c.val)
        ffma .nearest pj v o.cells[c]
      else o.cells[c] }

/-- attn.pv (R252, R253), after the wave's own stores. DESIGN CHOICE (log entry 74): where O and P name one tile, P is the tile as it stood when
the instruction began. -/
def attnPvEnd (g : Sig) (h : Fin 64) (o p : Fin 16) (nr : Fin 32) (x : Exec) (s : State) : State :=
  let w := s.rdSS (dPair h)
  let nw := s.rdS (scratchBase nr)
  let n := nw.toNat
  match attnChecks w nw none 1 false false 1 s with
  | (s, none) => stallBack x s
  | (s, some (.error (c, a))) => attnFault 0 x c a s
  | (s, some (.ok d)) =>
    if n = 0 then s
    else if heldBehind (spanOver (handleOf w) (List.range n) x g) s then stallBack x s
    else
      let old := s.w.tile o
      let tp := s.w.tile p
      let ch := d.dh / 8
      let again := resumes old.header 1 n
      let from_ := if again then hdrNext old.header else 0
      let (s, xs, stop) := readSpan d.dh (handleOf w) ((List.range n).drop from_) s
      if stop = some .wait then stallBack x s
      else
        let row (i : Fin 32) : Row :=
          let first := if again then old.rows[i] else pvStart ch tp.rows[i] old.rows[i]
          (xs.foldl (fun (b : Nat × Row) k =>
            (b.1 + 1, pvStep ch (handleOf w).egrp b.1 tp.rows[i] k.1 k.2 b.2)) (from_, first)).2
        let rows := Lanes.ofFn fun i => if bit x.run i then row i else old.rows[i]
        let hdr := if stop.isSome then hdrWord (from_ + xs.length) true 1 n else hdrWord 0 false 1 n
        attnDeliver (spanOver (handleOf w) ((List.range n).drop (from_ + xs.length)) x g) x o rows hdr stop s

/-- attn.pv (R252, R253). -/
def attnPvBody (g : Sig) (h : Fin 64) (o p : Fin 16) (nr : Fin 32) : Exec → State → State := afterStores true (attnPvEnd g h o p nr)

/-- attn.pv (R232). -/
def attnPvSig (h : Fin 64) (o p : Fin 16) (nr : Fin 32) (l : Fin 16) : Sig :=
  let r := sPair (dPair h) ++ sReg (scratchBase nr) ++ tReg o ++ tReg p
  { reads := r, waitsFor := r, writes := tReg o, perLane := false, long := true,
    lookahead := l.val, ordered := true, kind := .effect }

/-- attn.pv (R252). -/
def execAttnPv (h : Fin 64) (o p : Fin 16) (nr : Fin 32) (l : Fin 16) (s : State) : Outcome :=
  issue (attnPvSig h o p nr l) (attnPvBody (attnPvSig h o p nr l) h o p nr) s

/-! ## Choosing blocks -/

/-- A summary read: the minima and maxima, none for a block without one, a poisoned word, or a wait (R254, R400, R406). -/
inductive Summary where
  | data (s : Option (List Word × List Word))
  | poison (a : Nat)
  | wait
  deriving DecidableEq, Repr

/-- The entry whose summary stands for a block: that of the source for a reference; one out of range has none. -/
def summaryEntry (h : Handle) (s : State) : State × Walked (Option Found) :=
  let get (h : Handle) (s : State) : State × Walked (Option Found) := match walkComb s.coreNo s.ctxNo h s with
    | (s, .found f) => (s, .found (some f))
    | (s, .range) => (s, .found none)
    | (s, .wait) => (s, .wait)
    | (s, .poison a) => (s, .poison a)
  Walked.andThen (get h s) fun f s => match f with
    | some f => if f.gathered then
        Walked.andThen (get (sourceHandle f.entry h) s) fun g s => (s, .found (g.filter fun g => !g.gathered))
      else (s, .found (some f))
    | none => (s, .found none)

/-- The summary of a block, read as ordinary loads of the wave (R254, R305). -/
def readSummary (h : Handle) (s : State) : State × Summary :=
  match summaryEntry h s with
  | (s, .range) => (s, .data none)
  | (s, .wait) => (s, .wait)
  | (s, .poison a) => (s, .poison a)
  | (s, .found none) => (s, .data none)
  | (s, .found (some f)) =>
    match f.sums with
    | none => (s, .data none)
    | some a =>
      if !f.sumv then (s, .data none)
      else
        let n := 2 * f.header.dh
        let far := combFar (wordsOf a (4 * n)) s
        if far != [] then (far.foldl (fun s l => askLine l s) s, .wait)
        else match loadNum s.reader s.coreNo false a (4 * n) s with
          | (s, _, some w) => (s, .poison w)
          | (s, x, none) =>
            let ws := (List.range n).map fun i => BitVec.ofNat 32 (bitsOf x (32 * i) 32)
            (s, .data (some (ws.take f.header.dh, ws.drop f.header.dh)))

/-- The summaries of the blocks of a span, up to one that cannot be read. -/
def readSummaries (h : Handle) : List Nat → State → State × List (Option (List Word × List Word)) × Option Summary
  | [], s => (s, [], none)
  | b :: t, s =>
    match readSummary (h.plus (32 * b)) s with
    | (s, .data x) =>
      let (s, xs, e) := readSummaries h t s
      (s, x :: xs, e)
    | (s, e) => (s, [], some e)

/-- Whether a value is below another, NaN apart. -/
def numBelow (a b : Num) : Bool :=
  match a, b with
  | .nan, _ => false
  | _, .nan => false
  | .inf s, .inf t => s && !t
  | .inf s, _ => s
  | _, .inf t => !t
  | .fin s m e, .fin t n g => decide (scaled s m e (min e g) < scaled t n g (min e g))

/-- The greater of two exact products; NaN passes on (R254). -/
def maxNum (a b : Num) : Num :=
  match a, b with
  | .nan, _ => .nan
  | _, .nan => .nan
  | _, _ => if numBelow a b then b else a

/-- The bound of a block for a query (R254): exact, rounded once toward +infinity. A channel that the source of a reference does not hold has free
values (log entry 9). -/
def boundOf (q : List Num) (sum : Option (List Word × List Word)) : Word :=
  match sum with
  | none => 0xFF800000
  | some (lo, hi) =>
    let terms := q.zipIdx.map fun e =>
      maxNum (mulNum e.1 (f32 (lo.getD e.2 (Config.noElement 0 e.2)))) (mulNum e.1 (f32 (hi.getD e.2 (Config.noElement 1 e.2))))
    toF32 .up (chunkSum terms)

/-- comb.sum (R254), after the wave's own stores. -/
def combSumEnd (g : Sig) (h : Fin 64) (t : Fin 16) (q : Fin 8) (nr : Fin 32) (x : Exec) (s : State) : State :=
  let w := s.rdSS (dPair h)
  let nw := s.rdS (scratchBase nr)
  let n := nw.toNat
  let r := s.grp.ob[q]
  match attnChecks w nw (some r) 0 true true 32 s with
  | (s, none) => stallBack x s
  | (s, some (.error (c, a))) => attnFault 0 x c a s
  | (s, some (.ok d)) =>
    let g := spanOver (handleOf w) (List.range (32 * n)) x g
    if n = 0 then s
    else if heldBehind g s then stallBack x s
    else match queryPoison s.grp r d.dh x.run with
    | some u => attnFault 4 x 0x19 (BitVec.ofNat 64 u) s
    | none =>
      match readSummaries (handleOf w) (List.range n) s with
      | (s, _, some .wait) => stallBack x s
      | (s, _, some (.poison a)) =>
        let (s, fs) := poisonFaults 0 (poisonedRun x.run (BitVec.ofNat 64 a) a) s
        deliver g x [] fs s
      | (s, sums, _) =>
        let old := s.w.tile t
        let row (i : Fin 32) : Row :=
          let qs := (queryChunks s.grp r d.dh i).flatten
          { old.rows[i] with cells := Lanes.ofFn fun b => boundOf qs ((sums.getD b.val none)) }
        deliver g x [.rows t x.run (Lanes.ofFn fun i => if bit x.run i then row i else old.rows[i])] [] s

/-- comb.sum (R254). -/
def combSumBody (g : Sig) (h : Fin 64) (t : Fin 16) (q : Fin 8) (nr : Fin 32) : Exec → State → State := afterStores true (combSumEnd g h t q nr)

/-- comb.sum (R254). -/
def execCombSum (h : Fin 64) (t : Fin 16) (q : Fin 8) (nr : Fin 32) (l : Fin 16) (s : State) : Outcome :=
  issue (attnSig h t nr l) (combSumBody (attnSig h t nr l) h t q nr) s

/-- topk and topk.c (R232): the group register is the pending destination. -/
def topkSig (d : Fin 128) (t : Fin 16) (l : Fin 16) (c : Bool) : Sig :=
  { reads := tReg t, writes := sReg d, waitsFor := tReg t, perLane := false, long := true, lookahead := l.val,
    kind := .effect, notInHandler := c }

/-- topk (R255): the k best columns over the rows of the run. -/
def topkBody (g : Sig) (d : Fin 128) (k : Nat) (t : Fin 16) (x : Exec) (s : State) : State :=
  deliver g x [.s d (columnMask 0 (bestColumns k (selectable 0 (s.w.tile t) x.run)))] [] s

/-- topk (R255). -/
def execTopk (d : Fin 128) (k : Fin 32) (t : Fin 16) (l : Fin 16) (s : State) : Outcome :=
  issue (topkSig d t l false) (topkBody (topkSig d t l false) d (k.val + 1) t) s

/-- topk.c (R255): a cluster selection under the arrival rules of R228. -/
def execTopkC (d : Fin 128) (k : Fin 32) (t : Fin 16) (l : Fin 16) (s : State) : Outcome :=
  issue (topkSig d t l true) (joinMerge (topkSig d t l true) t.val 3 (k.val + 1) d.val false) s

end Sys2Proof.Machine
end

