-- ==== Sys2Proof/Machine/Engine.lean ====
section
/-! DEFINITION. Queue registers and engine ports (R234 to R237), the comb gather (R256, R257), the fabric engine (R258 to R262)
with its messages, the copy engine of cp.sc (R180) and the walks of engines (R389). -/

namespace Sys2Proof.Machine

/-! ## Waves by identity -/

/-- The live wave with an identity, on a core or saved. -/
def State.waveBy (s : State) (uid : Nat) : Option Wave :=
  ((s.groups ++ (s.die0.saved ++ s.die1.saved).map (·.group)).flatMap (·.all)).find? fun w => w.uid == uid && !w.ended

/-- The state with the wave of an identity changed, in its image too where its group is saved (R412). -/
def State.modWave (s : State) (uid : Nat) (f : Wave → Wave) : State :=
  let g (w : Wave) : Wave := if w.uid = uid then f w else w
  let s := s.mapGroups fun h => h.mapWaves g
  refreshImage uid ((s.modDie 0 fun d => d.mapSaved fun h => h.mapWaves g).modDie 1 fun d => d.mapSaved fun h => h.mapWaves g)

/-- A queue register changed. -/
def Wave.modQ (w : Wave) (q : Fin 16) (f : Queue → Queue) : Wave := { w with q := w.q.set q (f w.q[q]) }

/-! ## Completions -/

/-- Whether a completion for a queue register can be delivered: the register holds fewer than 64 words, or the binding or the
wave is gone (R234, R235). -/
def canComplete (s : State) (wave q binding : Nat) : Bool :=
  match s.waveBy wave with
  | some w =>
    let r := w.q[Fin.ofNat 16 q]
    r.binding != binding || decide (r.done.length < 64)
  | none => true

/-- A completion word arrives (R234, R235): it is held, or discarded and counted, or dropped when the wave has ended. -/
def pushCompletion (wave q binding : Nat) (x : Word) (s : State) : State :=
  match s.waveBy wave with
  | none => s
  | some _ =>
    s.modWave wave fun w => w.modQ (Fin.ofNat 16 q) fun r =>
      if r.binding = binding then { r with done := r.done ++ [x] } else { r with discard := min 255 (r.discard + 1) }

/-! ## The fabric engine -/

/-- A virtual address translated for an engine. -/
def engineTranslate (u : TlbUnit) (ctx : Nat) (a : Access) (va : Nat) (s : State) : State × Tr :=
  if 2 ^ 56 ≤ va then (s, .fault 0x10 99 false) else translate u ctx a va s

/-- Where no record can be written an engine's walk that faults is made once more at once, and only once (R388): once is the granule that the command has
walked again already. The granule comes with the second walk. -/
def engineWalk (once : Option Nat) (u : TlbUnit) (ctx : Nat) (a : Access) (va : Nat) (s : State) : State × Tr × Option Nat :=
  match engineTranslate u ctx a va s with
  | (s, .fault c k nc) =>
    if c = 0x14 ∧ (s.ctx ctx).fqbase = 0 ∧ once ≠ some (va / 2 ^ 19) then
      let (s, t) := engineTranslate u ctx a va s
      (s, t, some (va / 2 ^ 19))
    else (s, .fault c k nc, none)
  | (s, t) => (s, t, none)

/-- The bytes of a virtual range as an engine reads them, or what stops its access: a poisoned word, a walk that faults, with the address, or a
wait, which may be that of a second walk. -/
inductive EngineRead where
  | data (bs : List Byte)
  | fault (cause : Nat) (addr : Nat)
  | wait (again : Option Nat)
  deriving DecidableEq, Repr

/-- An engine reads the pieces of a range. -/
def engineReadPieces (once : Option Nat) (u : TlbUnit) (ctx : Nat) : List (Nat × Nat) → State → State × EngineRead
  | [], s => (s, .data [])
  | (va, n) :: t, s =>
    match engineWalk once u ctx .load va s with
    | (s, .wait, w) => (s, .wait w)
    | (s, .fault c _ _, _) => (s, .fault c va)
    | (s, .ok pa _, _) =>
      let far := combFar (wordsOf pa n) s
      if far != [] then (far.foldl (fun s l => askLine l s) s, .wait none)
      else
        let (s, bs, bad) := homeRead .engine pa n s
        if bad then (s, .fault 0x19 (((wordsOf pa n).find? fun w => s.marked w).getD pa))
        else match engineReadPieces once u ctx t s with
          | (s, .data cs) => (s, .data (bs ++ cs))
          | r => r

/-- An engine reads n bytes of a context. -/
def engineRead (once : Option Nat) (u : TlbUnit) (ctx va n : Nat) (s : State) : State × EngineRead := engineReadPieces once u ctx (piecesOf va n) s

/-- Bytes cut where a 256-byte boundary passes, so that no piece lies in two pages or two buffers. -/
def cutBytes : Nat → Nat → List Byte → List (Nat × List Byte)
  | 0, _, _ => []
  | fuel + 1, va, bs =>
    let k := 256 - va % 256
    if bs = [] then [] else (va, bs.take k) :: cutBytes fuel (va + k) (bs.drop k)

/-- Where the pieces of a write go: into a shadow, or to a physical address; or what stops it. A replayable node writes into declared buffers
alone (R306). -/
def engineTargets (once : Option Nat) (u : TlbUnit) (ctx : Nat) (node : Option DWord) :
    List (Nat × List Byte) → State → State × Except EngineRead (List (Nat × Option Nat × List Byte))
  | [], s => (s, .ok [])
  | (va, bs) :: t, s =>
    match engineWalk once u ctx .store va s with
    | (s, .wait, w) => (s, .error (.wait w))
    | (s, .fault c _ _, _) => (s, .error (.fault c va))
    | (s, .ok pa _, _) =>
      let shadowed := (bufferOf s ctx va).isSome
      if node.isSome && !shadowed then (s, .error (.fault 0x1A va))
      else match engineTargets once u ctx node t s with
        | (s, .ok l) => (s, .ok ((va, if shadowed then none else some pa, bs) :: l))
        | r => r

/-- An engine writes bytes of a context, all of them or none: into the shadows of declared buffers, else at the home slices once the fan-outs of their
lines are done (R246, R259, R353); a command, named by its identity, awaits the acknowledgement of what goes to a peer's home. -/
def engineWrite (id : Nat) (once : Option Nat) (u : TlbUnit) (ctx : Nat) (node : Option DWord) (va : Nat) (bs : List Byte) (s : State) : State × EngineRead :=
  match engineTargets once u ctx node (cutBytes (bs.length / 256 + 2) va bs) s with
  | (s, .error e) => (s, e)
  | (s, .ok l) =>
    match blockedAt (l.flatMap fun p => match p.2.1 with
      | some pa => wordsOf pa p.2.2.length
      | none => []) s with
    | (s, true) => (s, .wait none)
    | (s, false) => (l.foldl (fun s p => match p.2.1 with
      | some pa => sendWrite id pa p.2.2 (homeWrite .engine pa p.2.2 s)
      | none => shadowFor ctx node p.1 p.2.2 s) s, .data [])

/-- Fields of a command block (R258). -/
def Fabric.num (f : Fabric) (a n : Nat) : Nat := blockNum f.block a n
def Fabric.kind (f : Fabric) : Nat := f.num 0 1
def Fabric.tag (f : Fabric) : Nat := f.num 1 1

/-- The TLB and the context that a command works with. -/
def Fabric.tlb (f : Fabric) : TlbUnit := fabricTlb (dieOf f.core)

/-- Whether a block is well formed for a KIND: its limits hold and its reserved bytes are 0 (R258). -/
def blockOk (kind : Nat) (b : List Byte) : Bool :=
  let n (a k : Nat) : Nat := blockNum b a k
  n 0 1 == kind && (match kind with
    | 1 => n 2 2 == 0 && n 6 2 == 0 && n 24 4 % 32 == 0 && n 40 24 == 0
    | 2 => decide (n 2 2 < 2) && decide (1 ≤ n 4 1) && decide (n 4 1 ≤ 64) && decide (n 5 1 < n 4 1) && n 6 2 == 0 &&
        n 24 4 % 32 == 0 && n 28 4 % n 4 1 == 0 && n 48 16 == 0
    | 3 => decide (n 2 2 < 3) && n 24 4 % 32 == 0 && n 32 32 == 0
    | _ => false)

/-- A link that fabric bytes can cross: this device, or a Gollys link that is up. -/
def peerUp (s : State) (peer : Nat) : Bool :=
  peer == 0xFFFF || (decide (peer < 12) && (s.links.getD peer Link.blank).up)

/-- A command changed by its identity. -/
def modFabric (id : Nat) (f : Fabric → Fabric) (s : State) : State :=
  { s with fabrics := s.fabrics.map fun c => if c.id = id then f c else c }

/-- A fabric message with data goes to a peer, and its acknowledgement is awaited. -/
def sendFabric (id peer dst op : Nat) (bs : List Byte) (s : State) : State :=
  let msg := s.nextUid
  modFabric id (fun f => { f with acks := f.acks ++ [(peer, msg)] }) ((s.send (.flit peer 0x0C [dst, msg, op] bs)).fresh)

/-- A row goes to its place, on this device or at a peer: read at its source and written; what stops it comes with the status that the command
then ends with (R259). -/
def moveRow (f : Fabric) (peer src dst n op : Nat) (s : State) : State × Option (EngineRead × Nat) :=
  match engineRead f.walked f.tlb f.ctx src n s with
  | (s, .data bs) =>
    if peer = 0xFFFF then
      match engineWrite f.id f.walked f.tlb f.ctx f.repl dst bs s with
      | (s, .data _) => (s, none)
      | (s, e) => (s, some (e, 4))
    else (sendFabric f.id peer dst op bs s, none)
  | (s, e) => (s, some (e, 1))

/-- Rows in order, each counted once it has moved (R260, R261). -/
def moveRows (f : Fabric) (op : Nat) : List (Nat × Nat × Nat) → State → State × Option (EngineRead × Nat)
  | [], s => (s, none)
  | (peer, src, dst) :: t, s =>
    match moveRow f peer src dst (f.num 24 4) op s with
    | (s, none) => moveRows f op t (modFabric f.id (fun f => { f with moved := f.moved + 1, walked := none }) s)
    | r => r

/-- The rows of a fab.str: peer, source and destination (R260). -/
def strRows (f : Fabric) : List (Nat × Nat × Nat) :=
  (List.range (f.num 28 4)).map fun k =>
    let at_ (a b : Nat) : Nat := (((f.num a 8 : Int) + k * signed32 (f.num b 4)) % 2 ^ 64).toNat
    (f.num 4 2, at_ 8 32, at_ 16 36)

/-- The header of a participant of fab.a2a as its peers receive it: T, G, P, H, RB, DIR, RANK and DST (R261). -/
def a2aHead (f : Fabric) : List Byte :=
  leBytes 4 (f.num 32 4) ++ leBytes 4 (f.num 36 4) ++ leBytes 1 (f.num 4 1) ++ leBytes 4 (f.num 28 4) ++
    leBytes 4 (f.num 24 4) ++ leBytes 1 (f.num 2 2) ++ leBytes 1 (f.num 5 1) ++ leBytes 8 (f.num 16 8)

/-- The peers of the participants by rank; this device's own place is its rank. -/
def a2aPeers (f : Fabric) (list : List Byte) : List Nat :=
  (List.range (f.num 4 1)).map fun r => if r = f.num 5 1 then 0xFFFF else leNat ((list.drop (2 * r)).take 2)

/-- Whether participants disagree on P, H, RB or DIR, and whether their token ranges overlap (R261). -/
def a2aDisagree (hs : List (List Byte)) : Bool :=
  hs.any fun h => hs.any fun k => blockNum h 8 10 != blockNum k 8 10
def a2aOverlap (hs : List (Nat × List Byte)) : Bool :=
  hs.any fun h => hs.any fun k => h.1 != k.1 && meets (headG h.2) (headT h.2) (headG k.2) (headT k.2)

/-- The rows that participant p sends to participant q: source offset at p and destination offset at q, in bytes (R261). -/
def a2aRows (f : Fabric) (p q : Nat) (hp hq : List Byte) : List (Nat × Nat) :=
  let n := f.num 4 1
  let h := f.num 28 4
  let rb := f.num 24 4
  let part := h / n
  if f.num 2 2 = 0 then
    (List.range (headT hp)).flatMap fun t => (List.range part).map fun i =>
      ((t * h + q * part + i) * rb, ((headG hp + t) * part + i) * rb)
  else
    (List.range (headT hq)).flatMap fun t => (List.range part).map fun i =>
      (((headG hq + t) * part + i) * rb, (t * h + p * part + i) * rb)

/-- The headers of the other participants that are here. -/
def Fabric.others (f : Fabric) : List (Nat × List Byte) := f.heads

/-- The rows that a participant receives from the others: the link of each and where it lands. -/
def a2aExpected (f : Fabric) : List (Nat × Nat) :=
  let me := f.num 5 1
  (f.others.filter fun h => h.1 != me).flatMap fun h => (a2aRows f h.1 me h.2 (a2aHead f)).map fun r => (f.peers.getD h.1 0xFFFF, f.num 16 8 + r.2)

/-- A command ends with a status and nothing more to send or receive. -/
def failFabric (id st : Nat) (s : State) : State :=
  modFabric id (fun f => { f with sent := true, got := true, acks := [], status := st, waiting := false }) s

/-- A command ends with a status and nothing more to send; a ring step still receives the message that pairs with it, from a peer that can be reached
(R259, R262). -/
def failSend (f : Fabric) (st : Nat) (s : State) : State :=
  if f.kind = 3 ∧ peerUp s (f.num 6 2) then modFabric f.id (fun f => { f with sent := true, status := if f.status = 0 then st else f.status, waiting := false, walked := none }) s
  else failFabric f.id st s

/-- An engine that reads a poisoned word logs it, and discards the replayable node that it works for (R406, R417). -/
def enginePoison (ctx : Nat) (node : Option DWord) (pa : Nat) (s : State) : State :=
  let s := logError 1 0 pa s
  match node with
  | some d => { s with discards := s.discards ++ [(ctx, d)] }
  | none => s

/-- An access that the engine cannot make (R259, R389): a record of KIND 5 and a wait for its service at the first fault of a
walk in a granule, the error at the second, or where no record can be written or the fault is no fault of a walk. -/
def fabricStuck (id : Nat) (e : EngineRead) (fail : Fabric → State → State) (s : State) : State :=
  match e, s.fabrics.find? fun f => f.id == id with
  | .wait (some g), _ => modFabric id (fun f => { f with walked := some g }) s
  | .fault c a, some f =>
    if c = 0x14 ∧ f.walked ≠ some (a / 2 ^ 19) ∧ (s.ctx f.ctx).fqbase ≠ 0 then
      let slot := (s.ctx f.ctx).fqprod
      match writeSingle f.ctx (BitVec.ofNat 64 a) 5 s with
      | (s, true) => s
      | (s, false) => modFabric id (fun f => { f with waiting := true }) { s with waits := s.waits ++ [⟨1, id, f.ctx, slot, BitVec.ofNat 64 a⟩] }
    else fail f (if c = 0x19 then enginePoison f.ctx f.repl a s else s)
  | _, _ => s

/-- All rows that a participant of fab.a2a expects have come: its receive has performed (R259, R261). The first row that could not be written gives its status. -/
def settleRows (s : State) : State :=
  (s.fabrics.filter fun f => f.kind == 2 && f.sent && !f.got).foldl (fun s f =>
    let want := a2aExpected f
    let bad := s.rowsIn.any fun r => r.2.2 && want.contains (r.1, r.2.1)
    if want.all fun r => s.rowsIn.any fun x => (x.1, x.2.1) == r then
      modFabric f.id (fun f => { f with got := true, status := if bad ∧ f.status = 0 then 4 else f.status })
        { s with rowsIn := want.foldl (fun l r => l.eraseP fun x => (x.1, x.2.1) == r) s.rowsIn }
    else s) s

/-- Data of fab.a2a moves once every participant's header is here (R261). -/
def a2aExchange (f : Fabric) (s : State) : State :=
  let me := f.num 5 1
  let hs := (me, a2aHead f) :: f.others
  if f.others.length + 1 < f.num 4 1 then s
  else if a2aDisagree (hs.map (·.2)) then failFabric f.id 6 s
  else if a2aOverlap hs then failFabric f.id 5 s
  else
    let rows := f.peers.zipIdx.flatMap fun p => match hs.find? fun h => h.1 == p.2 with
      | some h => (a2aRows f me p.2 (a2aHead f) h.2).map fun r => (p.1, f.num 8 8 + r.1, headDst h.2 + r.2)
      | none => []
    match moveRows f 3 (rows.drop f.moved) s with
    | (s, none) => settleRows (modFabric f.id (fun f => { f with sent := true }) s)
    | (s, some (e, st)) => fabricStuck f.id e (fun f => failFabric f.id st) s

/-- An element-wise addition of a ring step (R262): OP 1 in FP32, OP 2 in BF16, each element rounded once. DESIGN CHOICE (log entry 93): bytes
after the last whole element are not applied; R262 does not speak of them. -/
def ringAdd (op : Nat) (old new : List Byte) : List Byte :=
  if op = 0 then new
  else if op = 1 then
    (List.range (new.length / 4)).flatMap fun i =>
      let f (l : List Byte) : Word := BitVec.ofNat 32 (leNat ((l.drop (4 * i)).take 4))
      leBytes 4 (fadd .nearest (f old) (f new)).toNat
  else
    (List.range (new.length / 2)).flatMap fun i =>
      let f (l : List Byte) : Num := valueOf bf16 (leNat ((l.drop (2 * i)).take 2))
      leBytes 2 (codeOf bf16 .nearest (addNum .nearest (f old) (f new)))

/-- A ring step receives the message of PREV (R262): the first min(SLEN, RLEN) bytes apply. What stops it leaves the message where it is. -/
def ringReceive (f : Fabric) (bs : List Byte) (s : State) : State × Option EngineRead :=
  let n := min bs.length (f.num 28 4)
  let st := if bs.length = f.num 28 4 then 0 else 2
  let done (s : State) : State := modFabric f.id (fun f => { f with got := true, status := if f.status = 0 then st else f.status }) s
  let put (old : List Byte) (s : State) : State × Option EngineRead :=
    match engineWrite f.id f.walked f.tlb f.ctx f.repl (f.num 16 8) (ringAdd (f.num 2 2) old (bs.take n)) s with
    | (s, .data _) => (done s, none)
    | (s, e) => (s, some e)
  if n = 0 then (done s, none)
  else if f.num 2 2 = 0 then put [] s
  else match engineRead f.walked f.tlb f.ctx (f.num 16 8) n s with
    | (s, .data old) => put old s
    | (s, e) => (s, some e)

/-- The ring step that the next message of PREV pairs with: the first that has not received, which must have sent its bytes (R262). -/
def ringStep (s : State) (prev : Nat) : Option Fabric :=
  (s.fabrics.find? fun f => f.kind == 3 && !f.got && f.num 6 2 == prev).filter fun f => f.sent && !f.waiting

/-- The waiting ring messages meet the ring steps of their PREV, the n-th the n-th (R262). -/
def pairRings : Nat → State → State
  | 0, s => s
  | fuel + 1, s =>
    match s.ringIn.zipIdx.findSome? fun m =>
      if (s.ringIn.take m.2).any fun k => k.1 == m.1.1 then none else (ringStep s m.1.1).map fun f => (m.2, m.1.2, f) with
    | none => s
    | some (i, bs, f) =>
      let drop (s : State) : State := { s with ringIn := s.ringIn.eraseIdx i }
      match ringReceive f bs s with
      | (s, none) => pairRings fuel (drop s)
      | (s, some e) =>
        let u := fabricStuck f.id e (fun f => failFabric f.id (if f.status = 0 then 4 else f.status)) s
        if u.fabrics.any fun g => g.id == f.id && g.got then pairRings fuel (drop u) else u

/-- A ring step sends its bytes to NEXT (R262). -/
def ringSend (f : Fabric) (s : State) : State × Option EngineRead :=
  match engineRead f.walked f.tlb f.ctx (f.num 8 8) (f.num 24 4) s with
  | (s, .data bs) =>
    let s := if f.num 4 2 = 0xFFFF then { s with ringIn := s.ringIn ++ [(0xFFFF, bs)] } else sendFabric f.id (f.num 4 2) 0 1 bs s
    (modFabric f.id (fun f => { f with sent := true, walked := none }) s, none)
  | (s, e) => (s, some e)

/-- The block of a command is read when the command is accepted (R258), or as soon as its page is here. -/
def takeBlock (f : Fabric) (s : State) : State :=
  match engineRead f.walked f.tlb f.ctx f.addr.toNat 64 s with
  | (s, .data b) =>
    let s := modFabric f.id (fun f => { f with block := b, walked := none }) s
    if f.addr.toNat % 64 ≠ 0 ∨ !blockOk (leNat (b.take 1)) b then failFabric f.id 1 s else s
  | (s, e) => fabricStuck f.id e (fun f => failFabric f.id 1) s

/-- A command whose block is here sends its bytes. -/
def startFabric (f : Fabric) (s : State) : State :=
  if f.kind = 1 then
    if !peerUp s (f.num 4 2) then failFabric f.id 3 s
    else
      match moveRows f 0 ((strRows f).drop f.moved) s with
      | (s, none) => modFabric f.id (fun f => { f with sent := true, got := true }) s
      | (s, some (e, st)) => fabricStuck f.id e (fun f => failFabric f.id st) s
  else if f.kind = 2 then
    if f.peers ≠ [] then a2aExchange f s
    else match engineRead f.walked f.tlb f.ctx (f.num 40 8) (2 * f.num 4 1) s with
    | (s, .data list) =>
      let peers := a2aPeers f list
      if peers.any fun p => !peerUp s p then failFabric f.id 3 s
      else
        let s := peers.foldl (fun s p => if p = 0xFFFF then s else sendFabric f.id p 0 2 (a2aHead f) s)
          (modFabric f.id (fun f => { f with peers := peers, walked := none }) s)
        match s.fabrics.find? fun c => c.id == f.id with
        | some g => a2aExchange g s
        | none => s
    | (s, e) => fabricStuck f.id e (fun f => failFabric f.id 1) s
  else if !peerUp s (f.num 4 2) || !(peerUp s (f.num 6 2)) then failSend f 3 s
  else
    match ringSend f s with
    | (s, none) => s
    | (s, some e) => fabricStuck f.id e (fun f => failSend f 1) s

/-- Commands whose blocks are not read read them, and commands that have not sent their bytes do, each only after the earlier ones of its queue
register (R260). -/
def startFabrics (s : State) : State :=
  (s.fabrics.map (·.id)).foldl (fun s id =>
    match s.fabrics.find? fun f => f.id == id with
    | some f =>
      let first := (s.fabrics.takeWhile fun g => g.id != id).all fun g => g.sent || g.wave != f.wave || g.q != f.q
      if f.sent || f.waiting then s
      else if f.block = [] then takeBlock f s
      else if !first then s else startFabric f s
    | none => s) s

/-! ## Messages of peers -/

/-- A message of a peer is done with and acknowledged, with a status. -/
def endIn (m : FabIn) (st : Nat) (s : State) : State := { s with fabIn := s.fabIn.erase m }.send (.flit m.link 0x0D [m.msg, st] [])

/-- The number by which a wait names a message of a peer. -/
def FabIn.item (m : FabIn) : Nat := m.link * 2 ^ 64 + m.msg

/-- The replayable node of the command that expects a row (R306). -/
def rowNode (m : FabIn) (s : State) : Option DWord :=
  (s.fabrics.find? fun f => f.kind == 2 && !f.got && (a2aExpected f).contains (m.link, m.dst)).bind (·.repl)

/-- A message of a peer changed. -/
def modIn (m : FabIn) (f : FabIn → FabIn) (s : State) : State := { s with fabIn := s.fabIn.map fun n => if n = m then f n else n }

/-- The bytes of a peer's message perform in the context that its link exports (R259); a walk that faults is resolved as R389 says, with status 4
where it cannot be. -/
def writeIn (m : FabIn) (s : State) : State :=
  let ctx := (s.links.getD m.link Link.blank).export_
  let count (bad : Bool) (s : State) : State := if m.op = 3 then { s with rowsIn := s.rowsIn ++ [(m.link, m.dst, bad)] } else s
  match engineWrite 0 m.walked (fabricTlb 0) ctx (if m.op = 3 then rowNode m s else none) m.dst m.data s with
  | (s, .data _) => endIn m 0 (count false s)
  | (s, .wait (some g)) => modIn m (fun n => { n with walked := some g }) s
  | (s, .wait none) => s
  | (s, .fault c a) =>
    if c = 0x14 ∧ m.walked ≠ some (a / 2 ^ 19) ∧ (s.ctx ctx).fqbase ≠ 0 then
      let slot := (s.ctx ctx).fqprod
      match writeSingle ctx (BitVec.ofNat 64 a) 5 s with
      | (s, true) => s
      | (s, false) => modIn m (fun n => { n with waiting := true }) { s with waits := s.waits ++ [⟨2, m.item, ctx, slot, BitVec.ofNat 64 a⟩] }
    else endIn m 4 (count true s)

/-- A peer's message performs if it can (R258 to R262): the header of an all-to-all once the local command that names its link at its rank has been accepted, a ring message at once, a
row where it is written; the rows of a fab.str in order (R260). -/
def takeIn (m : FabIn) (s : State) : State :=
  let ctx := (s.links.getD m.link Link.blank).export_
  if m.waiting then s
  else if m.op = 1 then endIn m 0 { s with ringIn := s.ringIn ++ [(m.link, m.data)] }
  else if m.op = 2 then
    let rank := blockNum m.data 18 1
    match s.fabrics.find? fun f => f.kind == 2 && !f.sent && f.ctx == ctx && f.peers[rank]? == some m.link && !f.heads.any fun h => h.1 == rank with
    | some f => endIn m 0 (modFabric f.id (fun f => { f with heads := f.heads ++ [(rank, m.data)] }) s)
    | none => s
  else if m.op = 0 && (s.fabIn.takeWhile fun n => n != m).any fun n => n.op == 0 && n.link == m.link then s
  else writeIn m s

/-- Every message of a peer that can perform does. -/
def takeIns (s : State) : State := s.fabIn.foldl (fun s m => if s.fabIn.contains m then takeIn m s else s) s

/-- The fabric engine goes on. -/
def pumpFabric (s : State) : State :=
  let s := startFabrics (takeIns (startFabrics s))
  pairRings s.ringIn.length (settleRows s)

/-- Whether a command is done: its bytes have gone and come, and every one of them has performed (R259). -/
def Fabric.ready (s : State) (f : Fabric) : Bool := f.sent && f.got && f.acks.isEmpty && !s.remotes.any fun r => r.write && r.wave == f.id

/-- The completion word of a fabric command (R259). -/
def fabricWord (f : Fabric) (st : Nat) : Word := BitVec.ofNat 32 (f.tag * 256 + st)

/-- The status that a command ends with: its own, or where it met none the one that its peers report. -/
def finalStatus (s : State) (f : Fabric) (status : Nat) : Nat := if f.status ≠ 0 then f.status else if f.ready s then 0 else status

/-- A fabric command completes (R259): its word is pushed once its bytes have performed, or a peer reports an error. -/
def completeFabric (i status : Nat) (s : State) : State :=
  let s := pumpFabric s
  match s.fabrics[i]? with
  | none => s
  | some f =>
    if (f.ready s || decide (1 ≤ status ∧ status ≤ 6)) && canComplete s f.wave f.q f.binding then
      pumpFabric (pushCompletion f.wave f.q f.binding (fabricWord f (finalStatus s f status))
        { s with fabrics := s.fabrics.filter fun g => g.id != f.id })
    else s

/-- FABRIC_COMMAND_COMPLETION (R259). -/
def execFabricCommandCompletion (i status : Nat) (s : State) : Outcome := next (completeFabric i status) s

/-- FABRIC_DATA (R259, R432): rows for a destination in the exported context, a ring message, or the header or a row of
an all-to-all. A fenced peer's is refused (R361). -/
def execFabricData (link dst msg op : Nat) (data : List (BitVec 8)) (s : State) : Outcome :=
  next (fun s =>
    let m : FabIn := ⟨link, dst, msg, op, data, false, none⟩
    let s := arrive link 3 (flitsOf 3 data) s
    if fenced s (link + 2) then endIn m 4 s else pumpFabric { s with fabIn := s.fabIn ++ [m] }) s

/-- A command after an acknowledgement of one of its messages: the first error that a destination reports is its status. -/
def Fabric.acked (link msg status : Nat) (f : Fabric) : Fabric :=
  if f.acks.contains (link, msg) then
    { f with acks := f.acks.filter (fun a => a != (link, msg)), status := if f.status = 0 then status else f.status }
  else f

/-- FABRIC_ACKNOWLEDGEMENT (R259, R262, R432): the sender's message `msg / 8` has performed, or the destination has met
the error whose status is `msg % 8`. -/
def execFabricAcknowledgement (link msg : Nat) (s : State) : Outcome :=
  next (fun s => { arrive link 3 1 s with fabrics := s.fabrics.map (Fabric.acked link (msg / 8) (msg % 8)) }) s

/-! ## Queue registers -/

/-- Words that a port takes for one command (R234). -/
def commandWords (port : Nat) : Nat := if port = 1 then 4 else 2

/-- The commands that a port holds for a core (R234). -/
def heldBy (s : State) (port core : Nat) : Nat :=
  if port = 1 then (s.gathers.filter fun g => g.core == core).length else (s.fabrics.filter fun f => f.core == core).length

/-- One command accepted by its port, from its words; a fabric command reads its block (R258), unless the instruction has read it. -/
def acceptCommand (q : Fin 16) (r : Queue) (block : List Byte) (ws : List Word) (s : State) : State :=
  let pair (i : Nat) : DWord := pairOf (ws.getD i 0) (ws.getD (i + 1) 0)
  if r.port = 1 then { s with gathers := s.gathers ++ [⟨s.ctxNo, s.w.uid, q.val, r.binding, s.coreNo, pair 0, pair 2⟩] }
  else
    let f : Fabric := {
      id := s.nextUid, ctx := s.ctxNo, wave := s.w.uid, q := q.val, binding := r.binding, core := s.coreNo, repl := s.node, addr := pair 0,
      block := block, sent := false, acks := [], peers := [], heads := [], moved := 0, got := false, status := 0, waiting := false, walked := none }
    let s := { s with fabrics := s.fabrics ++ [f] }.fresh
    if block = [] then takeBlock f s else s

/-- Words pushed one by one to a bound queue register (R19, R234), each by its place, while the port has a free place. The places of the words that have gone, in order. -/
def pushEach (q : Fin 16) (block : List Byte) : List (Nat × Word) → State → State × List Nat
  | [], s => (s, [])
  | (k, x) :: t, s =>
    let r := s.w.q[q]
    let all := r.partials ++ [x]
    if 32 ≤ heldBy s r.port s.coreNo then (s, [])
    else if all.length < commandWords r.port then
      let (s, ks) := pushEach q block t (s.modW fun w => w.modQ q fun r => { r with partials := all })
      (s, k :: ks)
    else
      let (s, ks) := pushEach q [] t ((acceptCommand q r block all s).modW fun w => w.modQ q fun r => { r with partials := [] })
      (s, k :: ks)

/-- A push of words by their places (R19, R234): those that have gone stay gone while the run waits for a place of a full port. The words of one
command whose block the instruction has read go together. -/
def pushWords (q : Fin 16) (block : List Byte) (ws : List (Nat × Word)) (x : Exec) (s : State) : State :=
  let gone := if s.w.pushed.1 = s.iss.id then s.w.pushed.2 else []
  let left := ws.filter fun e => !gone.contains e.1
  let (s, ks) := pushEach q (if (s.w.q[q]).partials = [] then block else []) left s
  let s := if (s.w.q[q]).port = 2 then pumpFabric s else s
  if ks.length = left.length then s
  else (stallBack x s).modW fun w => { w with q := s.w.q, pushed := (s.iss.id, gone ++ ks) }

/-- The ranges that a command is known to write on this device when it is accepted (R260 to R262): of an all-to-all those of its own tokens. -/
def Fabric.scope (f : Fabric) : List (Nat × Nat) :=
  if f.kind = 2 ∧ f.num 2 2 = 0 then
    let row := f.num 28 4 / f.num 4 1 * f.num 24 4
    [(f.num 16 8 + f.num 36 4 * row, f.num 32 4 * row)]
  else if f.kind = 2 then [(f.num 16 8, f.num 32 4 * (f.num 28 4 * f.num 24 4))]
  else f.writes

/-- Whether every byte of a range lies in a declared buffer (R244, R306). -/
def inBuffers (s : State) (ctx va n : Nat) : Bool := (cutBytes (n / 256 + 2) va (List.replicate n 0)).all fun p => (bufferOf s ctx p.1).isSome

/-- Whether a replayable node's fabric command would write outside the declared buffers on this device (R306). -/
def outsideBuffers (s : State) (f : Fabric) : Bool := s.grp.task.repl && f.scope.any fun r => !inBuffers s s.ctxNo r.1 r.2

/-- A command of a block, before it is accepted. -/
def blockFabric (s : State) (a : DWord) (b : List Byte) : Fabric := ⟨0, s.ctxNo, s.w.uid, 0, 0, s.coreNo, s.node, a, b, false, [], [], [], 0, false, 0, false, none⟩

/-- Whether words that a queue register of a replayable node takes complete a command that would write outside the declared buffers (R306): a gather does, since
it writes comb tables. DESIGN CHOICE (log entry 100): the push then raises the replay-scope fault in every lane and pushes nothing; a command whose block cannot be
read at the push ends with status 4. -/
def scopeOfWords : Nat → Fin 16 → List Word → State → State × Bool
  | 0, _, _, s => (s, false)
  | fuel + 1, q, ws, s =>
    let n := commandWords (s.w.q[q]).port
    if !s.grp.task.repl || decide (ws.length < n) then (s, false)
    else if n = 4 then (s, true)
    else
      let a := pairOf (ws.getD 0 0) (ws.getD 1 0)
      match engineRead none (fabricTlb s.dieNo) s.ctxNo a.toNat 64 s with
      | (s, .data b) => if blockOk (leNat (b.take 1)) b && outsideBuffers s (blockFabric s a b) then (s, true) else scopeOfWords fuel q (ws.drop n) s
      | (s, _) => scopeOfWords fuel q (ws.drop n) s

/-- The queue-binding fault of a lane form (R19, R236). -/
def unbound (g : Sig) (x : Exec) (s : State) : State := deliver g x [] (allLanes x.en 0x20 s.here) s

/-- qpush (R236). -/
def qpushBody (g : Sig) (v : Fin 128) (q : Fin 16) (x : Exec) (s : State) : State :=
  let ws := (lanesOf x.en).map fun l => (l.val, s.w.rdV v l)
  if s.w.q[q].port = 0 then unbound g x s
  else if s.w.pushed.1 = s.iss.id then pushWords q [] ws x s
  else match scopeOfWords 32 q ((s.w.q[q]).partials ++ ws.map (·.2)) s with
    | (s, true) => deliver g x [] (allLanes x.en 0x1A s.here) s
    | (s, false) => pushWords q [] ws x s

/-- qpush (R232): long-latency, with no pending destination. -/
def qpushSig (v : Fin 128) : Sig := { reads := vReg v, waitsFor := vReg v, long := true, kind := .effect }

/-- qpush (R236). -/
def execQpush (v : Fin 128) (q : Fin 16) (s : State) : Outcome := issue (qpushSig v) (qpushBody (qpushSig v) v q) s

/-- qpop (R236): one word for each enabled lane in ascending order; it blocks while fewer are queued. -/
def qpopBody (g : Sig) (d : Fin 128) (q : Fin 16) (x : Exec) (s : State) : State :=
  let r := s.w.q[q]
  let ls := lanesOf x.en
  if r.port = 0 then unbound g x s
  else if r.done.length < ls.length then stallBack x s
  else
    let xs := (ls.zip r.done).map fun e => (e.1, e.2.toNat)
    deliver g x (vWrite d zeroExt xs) [] (s.modW fun w => w.modQ q fun r => { r with done := r.done.drop ls.length })

/-- qpop (R232). -/
def qpopSig (d : Fin 128) (l : Fin 16) : Sig := { writes := vReg d, long := true, lookahead := l.val, kind := .effect }

/-- qpop (R236). -/
def execQpop (d : Fin 128) (q l : Fin 16) (s : State) : Outcome := issue (qpopSig d l) (qpopBody (qpopSig d l) d q) s

/-- qbind (R235): the words held are discarded and counted, a partial command is dropped. -/
def execQbind (p q : Fin 16) (s : State) : Outcome :=
  issue { perLane := false, kind := .effect } (fun _ s => s.modW fun w => w.modQ q fun r =>
    ⟨p.val, [], [], min 255 r.done.length, r.binding + 1⟩) s

/-- qstat (R237). -/
def execQstat (d : Fin 128) (q : Fin 16) (s : State) : Outcome :=
  issue { writes := sReg d, perLane := false } (fun _ s => s.wrS d (qstatWord s.w.q[q])) s

/-! ## The comb gather -/

/-- The words of the commands of gather.comb for the set bits of M in ascending order (R256). -/
def gatherWords (src dst : DWord) (m : Word) : List Word :=
  (lanesOf m).zipIdx.flatMap fun e =>
    let a := ((handleOf src).plus (32 * e.1.val)).word
    let b := ((handleOf dst).plus (32 * e.2)).word
    [loWord a, hiWord a, loWord b, hiWord b]

/-- gather.comb (R256); a reference is no byte of a declared buffer, so a replayable node has none installed (R306). -/
def gatherBody (h : Fin 64) (m : Fin 32) (q : Fin 16) (x : Exec) (s : State) : State :=
  let next_ : Fin 64 := Fin.ofNat 64 (h.val + 1)
  if s.w.q[q].port ≠ 1 then faultRun x 0x20 s.here s
  else if s.grp.task.repl ∧ s.rdS (scratchBase m) ≠ 0 then faultRun x 0x1A s.here s
  else pushWords q [] ((gatherWords (s.rdSS (dPair h)) (s.rdSS (dPair next_)) (s.rdS (scratchBase m))).zipIdx.map fun e => (e.2, e.1)) x s

/-- gather.comb (R256). -/
def execGatherComb (h : Fin 64) (m : Fin 32) (q : Fin 16) (s : State) : Outcome :=
  let r := sPair (dPair h) ++ sPair (dPair (Fin.ofNat 64 (h.val + 1))) ++ sReg (scratchBase m)
  issue { reads := r, waitsFor := r, perLane := false, kind := .effect } (gatherBody h m q) s

/-! ## Frame records -/

/-- The first 512 KiB frame of the page that maps a frame, whose record stands for the page (R398). -/
def pageFrame (s : State) (pa : Nat) : Nat :=
  match (mappings s).find? fun m => inRange m.2.2.pa m.2.2.size pa with
  | some m => m.2.2.pa
  | none => pa

/-- The address of the record of a device-memory frame (R398). -/
def frameAt (s : State) (pa : Nat) : Nat := s.frameTable + 8 * (pa % 2 ^ 48 / 2 ^ 19)

/-- The record of a frame, and the record written (R398): a write of the device that waits behind the fan-out of its line counts as made. -/
def frameRec (s : State) (pa : Nat) : Nat := engineNum (frameAt s pa) 8 s
def setFrame (pa x : Nat) (s : State) : State := engineStore (frameAt s pa) (leBytes 8 x) s

/-- REFS, SHARED, MIG and LEASES of a record (R398). -/
def refsOf (r : Nat) : Nat := bitsOf r 0 16
def sharedBit (r : Nat) : Bool := testBit r 16
def migBit (r : Nat) : Bool := testBit r 17
def leasesOf (r : Nat) : Nat := bitsOf r 18 12

/-- REFS rises, saturating into SHARED (R398). -/
def refUp (pa : Nat) (s : State) : State :=
  let r := frameRec s pa
  if sharedBit r then s else if refsOf r = 65535 then setFrame pa (r + 2 ^ 16) s else setFrame pa (r + 1) s

/-- REFS falls, unless SHARED (R398). -/
def refDown (pa : Nat) (s : State) : State :=
  let r := frameRec s pa
  if sharedBit r ∨ refsOf r = 0 then s else setFrame pa (r - 1) s

/-! ## Gather commands -/

/-- The SOURCE fields of a reference to a handle's block (R400). -/
def sourceField (h : Handle) : Nat := h.seq * 2 ^ 44 + h.layer * 2 ^ 36 + h.head * 2 ^ 28 + h.block * 2 ^ 9

/-- One side of a gather: where the destination's entry lies, the reference to install, and the source
block's frame where the source is resident; the range fault refuses the command (R257). -/
structure GatherSide where
  at_  : Nat
  ref  : Nat
  base : Option Nat
  deriving DecidableEq, Repr

/-- The frame of a resident block at a handle. -/
def blockFrame (port ctx : Nat) (h : Handle) (s : State) : State × Walked (Option Nat) :=
  match walkComb port ctx h s with
  | (s, .found g) => (s, .found (if g.valid && !g.gathered then some g.base else none))
  | (s, .range) => (s, .found none)
  | (s, .wait) => (s, .wait)
  | (s, .poison a) => (s, .poison a)

/-- One side of a gather found (R257, R401). -/
def gatherSide (port ctx : Nat) (src dst : Handle) (s : State) : State × Walked GatherSide :=
  Walked.andThen (walkComb port ctx src s) fun f s =>
  Walked.andThen (if f.gathered then blockFrame port ctx (sourceHandle f.entry src) s else (s, .found (if f.valid then some f.base else none))) fun base s =>
  Walked.andThen (walkComb port ctx dst s) fun d s =>
  match d.at_ with
  | some a => (s, .found ⟨a, (if f.gathered then f.entry / 2 ^ 9 * 2 ^ 9 else sourceField src) + 3, base⟩)
  | none => (s, .range)

/-- The reference at an entry counts no longer: the record that its installation raised falls (R398). -/
def dropRef (a : Nat) (s : State) : State :=
  match pull (fun (e : Nat × Nat) => e.1 == a) s.refsAt with
  | some (e, t) => refDown e.2 { s with refsAt := t }
  | none => s

/-- The reference at an entry is counted in the record of its source's frame, which must be device memory (R398). -/
def countRef (a pa : Nat) (s : State) : State :=
  if regionOf pa ≠ 0 then s
  else
    let f := pageFrame s pa
    refUp f { s with refsAt := s.refsAt ++ [(a, f)] }

/-- A reference installed, visible at once to every comb read (R257), and counted (R398). DESIGN CHOICE (log entry 101): the reference that it overwrites is the one
that the device installed there; software's own stores to an entry change no record. -/
def installRef (ctx : Nat) (h : Handle) (p : GatherSide) (s : State) : State :=
  let s := dropRef p.at_ s
  let s := sendWrite 0 p.at_ (leBytes 8 p.ref) (homeWrite .engine p.at_ (leBytes 8 p.ref) s)
  let s := { s with combs := s.combs.filter fun c =>
    !(c.ctx == ctx && c.seq == h.seq && c.block == some h.block && c.key == rootKey h) }
  match p.base with
  | some b => countRef p.at_ b s
  | none => s

/-- A gather command (R257, R401): K and V of the destination become references, and the completion word is answered; none waits.
DESIGN CHOICE (log entry 92): a poisoned table word on the walk refuses the command, with bit 30 set; R257's list of refusals does not name it. -/
def gatherRun (g : Gather) (s : State) : State × Option Word :=
  let src := handleOf g.src
  let dst := handleOf g.dst
  let word : Word := BitVec.ofNat 32 (dst.block % 64)
  let bad := src.pos % 32 != 0 || dst.pos % 32 != 0 || src.kv != 0 || dst.kv != 0 || src.egrp != 0 || dst.egrp != 0
  let refused : Word := word ||| 0x40000000
  let v (h : Handle) : Handle := { h with kv := 1 }
  if bad then (s, some refused)
  else
    match Walked.andThen (gatherSide g.core g.ctx src dst s) fun k s =>
      Walked.andThen (gatherSide g.core g.ctx (v src) (v dst) s) fun p s => (s, .found (k, p)) with
    | (s, .range) => (s, some refused)
    | (s, .poison a) => (logError 1 0 a s, some refused)
    | (s, .wait) => (s, none)
    | (s, .found (k, p)) =>
      match blockedAt (wordsOf k.at_ 8 ++ wordsOf p.at_ 8) s with
      | (s, true) => (s, none)
      | (s, false) =>
        let s := installRef g.ctx (v dst) p (installRef g.ctx dst k s)
        (s, some (if k.base.isSome && p.base.isSome then word else word ||| 0x80000000))

/-- GATHER_COMMAND (R234, R257): the i-th command accepted completes, unless its queue register is full. -/
def execGatherCommand (i : Nat) (s : State) : Outcome :=
  next (fun s => match s.gathers[i]? with
    | none => s
    | some g =>
      if canComplete s g.wave g.q g.binding then
        match gatherRun g s with
        | (s, some x) => pushCompletion g.wave g.q g.binding x { s with gathers := s.gathers.eraseIdx i }
        | (s, none) => s
      else s) s

/-! ## Fabric instructions -/

/-- fab.str, fab.a2a and fab.ring (R258): the block is read and checked, then the command is pushed. -/
def fabEnd (kind : Nat) (c : Fin 64) (q : Fin 16) (x : Exec) (s : State) : State :=
  let a := s.rdSS (dPair c)
  if 2 ^ 56 ≤ a.toNat then faultRun x 0x10 a s
  else if s.w.q[q].port ≠ 2 ∨ a.toNat % 64 ≠ 0 then faultRun x 0x21 s.here s
  else
    match nodeWalk (translate (.core s.coreNo) s.ctxNo .load a.toNat s) with
    | (s, .wait) => stallBack x s
    | (s, .fault f k _) => pageFault x ⟨f, a, k⟩ (oweFaults [⟨f, a, k⟩] s)
    | (s, .ok pa nc) =>
      if !lineHeld s pa then stallBack x (askLine pa s)
      else
        let (s, n, bad) := loadNum s.reader s.coreNo nc pa 64 s
        match bad with
        | some w =>
          let (s, fs) := poisonFaults 0 (poisonedRun x.run (poisonedAt a pa w).1 w) s
          parkAgain x fs s
        | none =>
          let b := leBytes 64 n
          if blockOk kind b && outsideBuffers s (blockFabric s a b) then faultRun x 0x1A s.here s
          else if !blockOk kind b then faultRun x 0x21 s.here s
          else pushWords q b [(0, loWord a), (1, hiWord a)] x s

/-- fab.str, fab.a2a and fab.ring (R258): the block is read as an ordinary load, after the wave's own stores (R288); a run-ahead translates its
address (R387). -/
def fabBody (kind : Nat) (c : Fin 64) (q : Fin 16) (x : Exec) (s : State) : State :=
  let a := s.rdSS (dPair c)
  if s.w.mode = .ahead then probeAt [(.load, a)] s
  else if heldBehind (Sig.over {} 1 64 ((lanesOf x.run).map fun l => (l, a.toNat))) s then stallBack x s
  else afterStores true (fabEnd kind c q) x s

/-- A fabric instruction (R232). -/
def fabSig (c : Fin 64) : Sig := { reads := sPair (dPair c), waitsFor := sPair (dPair c), perLane := false, kind := .effect, probes := true }

/-- fab.str (R260). -/
def execFabStr (c : Fin 64) (q : Fin 16) (s : State) : Outcome := issue (fabSig c) (fabBody 1 c q) s
/-- fab.a2a (R261). -/
def execFabA2a (c : Fin 64) (q : Fin 16) (s : State) : Outcome := issue (fabSig c) (fabBody 2 c q) s
/-- fab.ring (R262). -/
def execFabRing (c : Fin 64) (q : Fin 16) (s : State) : Outcome := issue (fabSig c) (fabBody 3 c q) s

/-! ## The copy engine -/

/-- Words of a copy move while they can, each read as an ordinary load of the wave that issued it (R180, R184); the second part says what stops it. -/
def copyWords (core ctx : Nat) : Nat → Copy → State → State × Copy × Option (Nat × Nat × Bool)
  | 0, c, s => (s, c, none)
  | fuel + 1, c, s =>
    if c.left = 0 then (s, c, none)
    else
      match engineWalk c.walked (.core core) ctx .load c.src.toNat s with
      | (s, .wait, g) => (s, if g.isSome then { c with walked := g } else c, some (0, 0, true))
      | (s, .fault f _ _, _) => (s, c, some (f, 0, false))
      | (s, .ok pa nc, _) =>
        if !lineHeld s pa then (askLine pa s, c, some (0, 0, true))
        else
          match loadNum (.wave c.wave core) core nc pa 4 s with
          | (s, _, some w) => (s, c, some (0x19, w, false))
          | (s, x, none) => copyWords core ctx fuel { c with src := c.src + 4, soff := c.soff + 4, left := c.left - 4, walked := none }
            (scratchStore c.soff (leBytes 4 x) s)

/-- A copy ends: with no other copy on its tag, the tag's bit is set; a copy that failed marks its tag (R180). -/
def endCopy (i : Nat) (c : Copy) (failed : Bool) (s : State) : State :=
  let s := s.modG fun g => { g with
    copies := g.copies.eraseIdx i
    failedTags := if failed then g.failedTags ++ [(c.tag, c.src)] else g.failedTags }
  if s.grp.copies.any fun d => d.tag == c.tag then s
  else s.modCore s.coreNo fun k => { k with tagmap := k.tagmap ||| BitVec.twoPow 64 c.tag }

/-- The i-th copy of the issuing group moves its bytes (R180, R389). -/
def runCopy (i : Nat) (s : State) : State :=
  match s.grp.copies[i]? with
  | none => s
  | some c =>
    if c.waiting then s
    else
      let (s, d, stop) := copyWords s.coreNo s.ctxNo (c.left / 4 + 1) c s
      let keep (d : Copy) (s : State) : State := s.modG fun g => { g with copies := g.copies.set i d }
      match stop with
      | none => endCopy i d false s
      | some (_, _, true) => keep d s
      | some (f, pa, false) =>
        if f = 0x14 ∧ d.walked ≠ some (d.src.toNat / 2 ^ 19) ∧ (s.ctx s.ctxNo).fqbase ≠ 0 then
          let slot := (s.ctx s.ctxNo).fqprod
          match writeSingle s.ctxNo d.src 5 s with
          | (s, true) => keep d s
          | (s, false) => keep { d with waiting := true } { s with waits := s.waits ++ [⟨0, s.grp.uid, s.ctxNo, slot, d.src⟩] }
        else endCopy i d true (if f = 0x19 then enginePoison s.ctxNo s.node pa s else s)

/-- COPY_COMPLETION (R180). -/
def execCopyCompletion (i : Nat) (s : State) : Outcome := next (runCopy i) s

/-! ## Walks of engines -/

/-- Whether the record in a slot of a context's fault queue is served (R388). -/
def slotServed (s : State) (ctx slot : Nat) : Bool := testBit (homeNum (slotAt (s.ctx ctx) slot) 16 s) 127

/-- ENGINE_WALK_RETRY (R389): the i-th waiting engine finds its record served and walks again. -/
def retryWalk (i : Nat) (s : State) : State :=
  match s.waits[i]? with
  | none => s
  | some e =>
    if !slotServed s e.ctx e.slot then s
    else
      let s := { s with waits := s.waits.eraseIdx i }
      let once := some (e.addr.toNat / 2 ^ 19)
      if e.engine = 1 then pumpFabric (modFabric e.item (fun f => { f with waiting := false, walked := once }) s)
      else if e.engine = 2 then
        pumpFabric { s with fabIn := s.fabIn.map fun m => if m.item = e.item then { m with waiting := false, walked := once } else m }
      else if e.engine = 3 then s.modWave e.item fun w => { w with walked := once }
      else
        let again (c : Copy) : Copy := if c.waiting ∧ c.src = e.addr then { c with waiting := false, walked := once } else c
        let upd (g : Group) : Group := if g.uid = e.item then { g with copies := g.copies.map again } else g
        ((s.mapGroups upd).modDie 0 fun d => d.mapSaved upd).modDie 1 fun d => d.mapSaved upd

/-- ENGINE_WALK_RETRY (R389). -/
def execEngineWalkRetry (i : Nat) (s : State) : Outcome := next (retryWalk i) s

/-- FAULT_SLOT_FREED (R388): the records that waves of a context owe are written while slots are free. The issuing wave's are
written first. -/
def execFaultSlotFreed (ctx : Nat) (s : State) : Outcome :=
  next (fun s => if s.ctxNo = ctx then flushBatch s.w.batch.length s else s) s

end Sys2Proof.Machine
end

