-- ==== Sys2Proof/Machine/Maintain.lean ====
section
/-! DEFINITION. Maintenance of translations: tlbinv (R394), migrate and its copy (R395 to R397), comb.inv (R403), leases and
recalls (R390 to R392). -/

namespace Sys2Proof.Machine

/-! ## Leases that this device grants -/

/-- LEASES of a frame changed (R398). -/
def setLeases (pa v : Nat) (s : State) : State :=
  let r := frameRec s pa
  setFrame pa (r % 2 ^ 18 + v * 2 ^ 18 + r / 2 ^ 30 * 2 ^ 30) s

/-- The number of a frame, by granule. -/
def frameOf (pa : Nat) : Nat := pa / 2 ^ 19

/-- The leases granted over a link. -/
def leasesOn (s : State) (link : Nat) : List Granted := (s.links.getD link Link.blank).leasesOut

/-- The granules of a range that a link holds leases on. -/
def leasedIn (s : State) (link lo n : Nat) : List Nat := (((leasesOn s link).map (·.frame)).filter fun g => inRange lo n (g * 2 ^ 19)).dedup

/-- Whether a granule of a range is leased. -/
def leased (s : State) (lo n : Nat) : Bool := (List.range 12).any fun l => leasedIn s l lo n != []

/-- The recall of the leases on the granules of a range, each sent once (R392). -/
def recallIn (lo n : Nat) (s : State) : State :=
  (List.range 12).foldl (fun s l => (leasedIn s l lo n).foldl (fun s g =>
    if s.recalls.contains (l, g) then s else { s.send (.flit l 0x09 [g] []) with recalls := (l, g) :: s.recalls }) s) s

/-- A lease ends: REFS falls, and LEASES loses the link's bit with its last lease on the page (R392, R398). -/
def dropLease (link : Nat) (e : Granted) (s : State) : State :=
  let pa := e.first * 2 ^ 19
  let s := { s with links := modAt s.links link fun l => { l with leasesOut := l.leasesOut.erase e } }
  let v := leasesOf (frameRec s pa)
  refDown pa (if ((leasesOn s link).all fun x => x.first != e.first) ∧ testBit v link then setLeases pa (v - 2 ^ link) s else s)

/-- A release ends one lease on a granule, and an acknowledgement of a recall every one (R391, R392). -/
def releaseLease (link g : Nat) (s : State) : State :=
  match (leasesOn s link).find? fun e => e.frame == g with
  | some e => dropLease link e s
  | none => s
def endRecall (link g : Nat) (s : State) : State :=
  ((leasesOn s link).filter fun e => e.frame == g).foldl (fun s e => dropLease link e s) { s with recalls := s.recalls.filter fun r => r != (link, g) }

/-- Every lease of a fenced peer ends (R361, R391). -/
def endLeases (link : Nat) (s : State) : State :=
  (leasesOn s link).foldl (fun s e => dropLease link e s) { s with recalls := s.recalls.filter fun r => r.1 != link }

/-- The migrations of the package. -/
def migrationsOf (s : State) : List Migration := s.die0.migrations ++ s.die1.migrations

/-- Whether a granule is under recall, or the purpose of a recall is not done yet: a tlbinv that waits, or a migration (R392). -/
def unsettled (s : State) (g : Nat) : Bool :=
  (s.recalls.any fun r => r.2 == g) || (s.purposes.any fun p => p.1 == g && (s.waveBy p.2).isSome) ||
    (migrationsOf s).any fun m => inRange m.old m.size (g * 2 ^ 19)

/-- The granule that a peer's window address names in the exported context: cached in its L3 bank, or found by a walk and then
cached there, so that tlbinv finds it (R385, R390, R394); some none when the walk faults or the page lies elsewhere, none when the walk waits. -/
def exportedPage (ctx va : Nat) (s : State) : State × Option (Option TlbEntry) :=
  let u := bankOf 0 va
  match tlbAt s u ctx va with
  | some e => (s, some (if regionOf e.pa = 0 then some e else none))
  | none =>
    match walkCtx ctx va s with
    | (s, .wait) => (s, none)
    | (s, .leaf p) =>
      if p.remote.isSome || regionOf p.pa != 0 then (s, some none)
      else if movingLeaf s p.pte then (s, none)
      else
        let e : TlbEntry := (⟨u, ctx, va / p.size * p.size, p.size, p.pa, p.w, p.x, p.nc, none, (va / p.size * p.size, p.size)⟩ : TlbEntry).in u va
        (tlbPut e s, some (some e))
    | (s, _) => (s, some none)

/-- A lease of a granule is granted: it counts in the record of its page's first frame (R390 step 3, R398). -/
def grantLease (link ctx window : Nat) (p : TlbEntry) (s : State) : State :=
  let first := pageFrame s p.pa
  let v := leasesOf (frameRec s first)
  let s := if testBit v link then s else setLeases first (v + 2 ^ link) s
  let e : Granted := ⟨frameOf p.pa, frameOf first, ctx, window % 2 ^ 56, p.leaf.1, p.leaf.2⟩
  (refUp first { s with links := modAt s.links link fun l => { l with leasesOut := l.leasesOut ++ [e] } }).send
    (.flit link 0x08 [window, frameOf p.pa, if p.w then 1 else 0, if p.nc then 1 else 0, 0] [])

/-- A peer's lease request is translated in the context that the link exports (R390); a request for a page under recall or migration
waits (R392). -/
def leaseRequest (link window : Nat) (s : State) : State :=
  let ctx := (s.links.getD link Link.blank).export_
  let refuse (s : State) : State := s.send (.flit link 0x08 [window, 0, 0, 0, 1] [])
  let wait (s : State) : State := { s with leaseWaits := s.leaseWaits ++ [(link, window)] }
  if fenced s (2 + link) then refuse s
  else
    match exportedPage ctx (window % 2 ^ 56) s with
    | (s, none) => wait s
    | (s, some none) => refuse s
    | (s, some (some p)) => if unsettled s (frameOf p.pa) then wait s else grantLease link ctx window p s

/-- Lease requests that waited are looked at again. -/
def answerWaits (s : State) : State :=
  s.leaseWaits.foldl (fun s r => leaseRequest r.1 r.2 s) { s with leaseWaits := [] }

/-! ## tlbinv -/

/-- Whether tlbinv names a page of a context (R394). -/
def tlbNames (scope ctx va c : Nat) (page : Nat × Nat) : Bool :=
  match scope with
  | 0 => c == ctx && inRange page.1 page.2 va
  | 1 => c == ctx
  | _ => true

/-- The physical range of the page of a cached translation; a leased one has its granule alone. -/
def TlbEntry.frames (e : TlbEntry) : Nat × Nat := if e.lease.isSome then (e.pa, e.size) else (e.pa - (e.page - e.leaf.1), e.leaf.2)

/-- The leases granted on pages that tlbinv names (R394). -/
def leasesNamed (scope ctx va : Nat) (s : State) : List (Nat × Nat) :=
  ((s.links.flatMap (·.leasesOut)).filter fun e => tlbNames scope ctx va e.ctx (e.page, e.size)).map fun e => (e.frame * 2 ^ 19, 2 ^ 19)

/-- Cached translations are dropped: the dirty bytes of non-coherent pages are written back and the words invalidated (R349, R394). -/
def dropEntries (es : List TlbEntry) (s : State) : State :=
  let s := (((es.filter (·.nc)).map TlbEntry.frames).dedup).foldl (fun s r => flushPage r.1 r.2 s) s
  { s with tlb := s.tlb.filter fun e => !es.contains e }

/-- The leases that this device holds and that pages a test names alone use. -/
def leasesOnly (p : LeaseUse → Bool) (s : State) : List (Nat × Nat × Nat) :=
  s.leases.filter fun l =>
    let uses := s.leaseUses.filter fun u => u.link == l.1 && u.window == l.2.1
    uses != [] && uses.all p

/-- Pages lose their leased translations; a lease that no page uses any more is released (R391, R394). -/
def dropUses (p : LeaseUse → Bool) (s : State) : State :=
  let gone := leasesOnly p s
  let s := gone.foldl (fun s l => s.send (.flit l.1 0x0B [l.2.2 / 4] [])) s
  { s with leases := s.leases.filter fun l => !gone.contains l, leaseUses := s.leaseUses.filter fun u => !p u }

/-- Whether no live context maps a byte of an alias's source or of its destination any more. -/
def Alias.unmapped (ms : List (Nat × Nat × Leaf)) (e : Alias) : Bool :=
  let gone (a : Nat) : Bool := ms.all fun m => !meets m.2.2.pa m.2.2.size a e.len
  gone e.dst || gone e.src

/-- Entries with their source or their destination in pages that no live context maps any more are materialised, before system software releases the pages
(R378; log entry 78). -/
def settleUnmapped (s : State) : State :=
  if s.aliases = [] then s
  else
    let ms := mappings s
    (s.aliases.filter (Alias.unmapped ms)).foldl (fun s e => materialise e s) s

/-- Whether tlbinv names a page under migration (R394). -/
def migrationNamed (scope ctx va : Nat) (m : Migration) : Bool :=
  2 ≤ scope || (m.ctx == ctx && (scope == 1 || inRange (m.va.toNat / m.size * m.size) m.size va))

/-- tlbinv after the release: every named translation goes, after a migration of its page has ended, the leases on its
frames are recalled and the accesses through it have drained (R394). -/
def tlbinvEnd (scope va : Nat) (x : Exec) (s : State) : State :=
  let es := s.tlb.filter fun e => tlbNames scope s.ctxNo va e.ctx e.leaf
  let uses (u : LeaseUse) : Bool := tlbNames scope s.ctxNo va u.ctx (u.page, u.size)
  let rs := (es.map TlbEntry.frames).dedup
  let held := (leasesOnly uses s).map fun l => ((2 + l.1) * 2 ^ 48 + l.2.2 / 4 * 2 ^ 19, 2 ^ 19)
  let out := ((rs ++ leasesNamed scope s.ctxNo va s).dedup.filter fun r => leased s r.1 r.2)
  if (migrationsOf s).any (migrationNamed scope s.ctxNo va) then stallBack x s
  else if out ≠ [] then
    let gs := (out.flatMap fun r => (List.range 12).flatMap fun l => leasedIn s l r.1 r.2).map fun g => (g, s.w.uid)
    stallBack x (out.foldl (fun s r => recallIn r.1 r.2 s) { s with purposes := (s.purposes ++ gs).dedup })
  else match drainWithin (rs ++ held) s with
    | (s, true) => stallBack x s
    | (s, false) => answerWaits (settleUnmapped (dropUses uses (dropEntries es { s with purposes := s.purposes.filter fun p => p.2 != s.w.uid })))

/-- tlbinv (R394): a release, then the translations go. -/
def tlbinvBody (v : Fin 64) (scope : Nat) (x : Exec) (s : State) : State :=
  let va := s.rdSS (dPair v)
  if scope = 0 ∧ 2 ^ 56 ≤ va.toNat then faultRun x 0x10 va s else afterRelease (tlbinvEnd scope va.toNat) x s

/-- tlbinv (R393): privileged. -/
def execTlbinv (v : Fin 64) (c : Fin 4) (s : State) : Outcome :=
  issue { reads := sPair (dPair v), perLane := false, fence := true, privileged := true, kind := .effect } (tlbinvBody v c.val) s

/-! ## migrate -/

/-- A page made still before it is copied (R395 step 3): its provisional cells settle, its aliases are materialised and its side
bands rounded. -/
def quietPage (pa size : Nat) (s : State) : State :=
  let inPage (a : Nat) : Bool := decide (pa ≤ a) && decide (a < pa + size)
  let s := { s with provs := s.provs.filter fun c => !inPage c.addr }
  let s := (s.aliases.filter fun e => inPage e.dst || inPage e.src || inPage (e.src + e.len - 1)).foldl (fun s e => materialise e s) s
  (s.bands.filter fun b => inPage (b.line * 256)).foldl (fun s b => roundLine b.line s) s

/-- No core keeps a copy or the ownership of a word of a frame. -/
def forgetFrame (pa size : Nat) (s : State) : State :=
  let inPage (a : Nat) : Bool := decide (pa ≤ a) && decide (a < pa + size)
  let word (e : Nat × L1Word) : Nat × L1Word := if inPage e.1 then (e.1, { e.2 with valid := false, owned := false, dirty := 0 }) else e
  let line (l : L1Line) : L1Line := { l with words := l.words.map word }
  { s with
    owners := s.owners.filter fun e => !inPage e.1
    cores := s.cores.map fun e => (e.1, { e.2 with l1 := e.2.l1.map line }) }

/-- The offsets of a page at which either frame lists a byte. -/
def pageOffsets (old new size : Nat) (s : State) : List Nat :=
  let cells := (s.mem ++ s.stores).map (·.1)
  let off (base : Nat) : List Nat := (cells.filter fun a => decide (base ≤ a) && decide (a < base + size)).map fun a => a - base
  (off old ++ off new).dedup

/-- The page is copied from the old frame to the new one (R395 step 5). -/
def copyPage (old new size : Nat) (s : State) : State :=
  let offs := pageOffsets old new size s
  let data := offs.map fun i => (i, s.byte (old + i))
  let s := data.foldl (fun s e => s.poke (new + e.1) [e.2]) s
  { s with poison := s.poison.filter fun w => w < new || decide (new + size ≤ w) }

/-- MIG of a frame of device memory set or cleared (R395). -/
def setMig (pa : Nat) (b : Bool) (s : State) : State :=
  if regionOf pa ≠ 0 then s
  else
    let r := frameRec s pa
    setFrame pa (r % 2 ^ 17 + (if b then 2 ^ 17 else 0) + r / 2 ^ 18 * 2 ^ 18) s

/-- Every migration changed. -/
def mapMigrations (f : List Migration → List Migration) (s : State) : State :=
  (s.modDie 0 fun d => { d with migrations := f d.migrations }).modDie 1 fun d => { d with migrations := f d.migrations }

/-- A claimed page is frozen and its translations flushed (R395 steps 3 and 4). -/
def freezePage (m : Migration) (s : State) : State :=
  let s := quietPage m.old m.size (mapMigrations (fun l => l.map fun t => if t = m then { t with copying := true } else t) s)
  dropEntries (s.tlb.filter fun e => inRange m.old m.size e.pa) s

/-- A migration ends with a code for its wave, which issues again. -/
def endMigration (m : Migration) (code : Nat) (s : State) : State :=
  let s := setMig m.old false (mapMigrations (fun l => l.filter fun t => t != m) s)
  let free (w : Wave) : Wave := if w.uid = m.wave ∧ w.hold = some .migrate then { w with hold := none } else w
  let upd (g : Group) : Group := if g.uid = m.group then
      { (g.mapWaves free) with s := g.s.set (Fin.ofNat 128 m.dest) (BitVec.ofNat 32 code) } else g
  s.mapGroups upd

/-- A claim is looked at again: leases recalled, or refused, or the accesses translated before drained and the page frozen (R395). -/
def advanceMigration (m : Migration) (s : State) : State :=
  if m.copying then s
  else if leased s m.old m.size then recallIn m.old m.size s
  else
    let r := if regionOf m.old = 0 then frameRec s m.old else 0
    if sharedBit r || refsOf r != 0 then endMigration m 3 s
    else match drainWithin [(m.old, m.size)] s with
      | (s, true) => s
      | (s, false) => freezePage m s

/-- Every claim is looked at again. -/
def advanceMigrations (s : State) : State := (migrationsOf s).foldl (fun s m => advanceMigration m s) s

/-- The checks of migrate (R395 step 1): the code of a refusal, or the leaf; none when the walk waits. -/
def migrateCheck (va p : Nat) (s : State) : State × Option (Except Nat Leaf) :=
  match walkCtx s.ctxNo va s with
  | (s, .wait) => (s, none)
  | (s, .leaf l) =>
    if l.remote.isSome || p % l.size != 0 || regionOf p != 0 || decide (2 ^ 48 ≤ p) || meets l.pa l.size p l.size then (s, some (.error 4))
    else if regionOf l.pa == 0 && migBit (frameRec s l.pa) then (s, some (.error 5))
    else (s, some (.ok l))
  | (s, _) => (s, some (.error 4))

/-- migrate (R395): refused at once, or claimed; the wave issues again when the migration has ended. -/
def migrateBody (v p : Fin 64) (d : Fin 128) (x : Exec) (s : State) : State :=
  let va := s.rdSS (dPair v)
  if 2 ^ 56 ≤ va.toNat then faultRun x 0x10 va s
  else
    match migrateCheck va.toNat (s.rdSS (dPair p)).toNat s with
    | (s, none) => stallBack x s
    | (s, some (.error c)) => s.wrS d (BitVec.ofNat 32 c)
    | (s, some (.ok l)) =>
      if 8 ≤ (s.die s.dieNo).migrations.length then stallBack x s
      else
        let m : Migration := {
          copying := false, group := s.grp.uid, wave := s.w.uid, ctx := s.ctxNo, va := va,
          leaf := l.pte, old := l.pa, new := (s.rdSS (dPair p)).toNat, size := l.size, dest := d.val }
        let s := setMig l.pa true (s.modDie s.dieNo fun e => { e with migrations := e.migrations ++ [m] })
        advanceMigration m (s.modW fun w => { w with hold := some .migrate })

/-- migrate (R393): privileged. -/
def execMigrate (v p : Fin 64) (d : Fin 128) (s : State) : Outcome :=
  issue { reads := sPair (dPair v) ++ sPair (dPair p), writes := sReg d, perLane := false, privileged := true, kind := .effect }
    (migrateBody v p d) s

/-- The i-th migration of the package. -/
def migrationAt (s : State) (i : Nat) : Option Migration := (s.die0.migrations ++ s.die1.migrations)[i]?

/-- The first burst of a frame that the base dies refuse, looked for where a port has retired rows or lacks a channel (R396, R441, R442). -/
def refusedBurst (p : State → Nat → Bool) (base size : Nat) (s : State) : Option Nat :=
  if s.isais.all fun q => q.retired.isEmpty && bitsOf q.capability.toNat 24 32 == 2 ^ 32 - 1 then none
  else ((List.range (size / 64)).map fun i => base + 64 * i).find? (p s)

/-- The lines of a page of host or peer memory that the proxy slices do not hold yet; they are asked for. -/
def farLines (pa size : Nat) (s : State) : List Nat :=
  if regionOf pa = 0 then [] else ((List.range (size / 256)).map fun i => pa + 256 * i).filter fun a => !lineHeld s a

/-- The writes of agents that wait for a migrated page go on at its new frame (R395 step 7). -/
def redirectFans (m : Migration) (s : State) : State :=
  let move (f : FanOut) : FanOut :=
    if f.data != [] && inRange m.old m.size f.addr then
      let a := m.new + (f.addr - m.old)
      { f with line := lineOf a, addr := a, begun := false, agents := 0 }
    else f
  { s with fanOuts := s.fanOuts.map move }

/-- A migration is aborted with a code and a record of its own, once its slot is free (R396). -/
def abortMigration (m : Migration) (code : Nat) (log : State → State) (s : State) : State :=
  match writeSingle m.ctx m.va (5 + code) s with
  | (s, true) => s
  | (s, false) => endMigration m code (log s)

/-- A copied page takes the old one's place (R395 step 6). -/
def finishMigration (m : Migration) (s : State) : State :=
  let own := inRange m.old m.size m.leaf
  match if own then (s, false) else blockedAt (wordsOf m.leaf 8) s with
  | (s, true) => s
  | (s, false) =>
    let s := forgetFrame m.old m.size (quietPage m.new m.size (forgetFrame m.new m.size s))
    let s := copyPage m.old m.new m.size s
    let e := homeNum m.leaf 8 s
    let bs := leBytes 8 (e - bitsOf e 6 46 * 64 + m.new / 64 * 64)
    endMigration m 0 (setFrame m.new 0 (redirectFans m (sendWrite 0 m.leaf bs (homeWrite .engine m.leaf bs s))))

/-- The end of a migration's copy (R395 step 6, R396): an uncorrectable word of the old frame aborts it with code 1, a refused write
to the new frame with code 2; otherwise the mapping moves. -/
def migrationEnds (i code : Nat) (s : State) : State :=
  match migrationAt s i with
  | none => s
  | some m =>
    if !m.copying then advanceMigration m s
    else match farLines m.old m.size s with
      | a :: t => (a :: t).foldl (fun s a => askLine a s) s
      | [] =>
        match (s.poison.find? fun w => inRange m.old m.size w).or (refusedBurst absentAt m.old m.size s) with
        | some w => abortMigration m 1 (logError 1 0 w) s
        | none => match refusedBurst (fun s a => absentAt s a || retiredAt s a) m.new m.size s with
          | some b => abortMigration m 2 (logError 0 0 b) s
          | none => if code = 0 then finishMigration m s else if code ≤ 2 then abortMigration m code id s else s

/-! ## comb.inv -/

/-- Whether a line of the walker's caches stays when comb.inv names a handle (R403). -/
def combStays (scope ctx : Nat) (h : Handle) (c : CombLine) : Bool :=
  match scope with
  | 0 => !(c.ctx == ctx && c.seq == h.seq && c.block == some h.block &&
      (c.key == rootKey { h with kv := 0 } || c.key == rootKey { h with kv := 1 }))
  | 1 => !(c.ctx == ctx && c.seq == h.seq)
  | _ => c.ctx != ctx

/-- comb.inv (R403): a release, then the cached state goes. -/
def execCombInv (h : Fin 64) (c : Fin 4) (s : State) : Outcome :=
  issue { reads := sPair (dPair h), perLane := false, fence := true, kind := .effect } (afterRelease fun _ s =>
    { s with combs := s.combs.filter (combStays c.val s.ctxNo (handleOf (s.rdSS (dPair h)))) }) s

/-! ## Leases -/

/-- LEASE_REQUEST (R390). -/
def execLeaseRequest (link window : Nat) (s : State) : Outcome :=
  next (fun s => leaseRequest link window (arrive link 0 1 s)) s

/-- LEASE_ANSWER (R390): a granted lease is kept for the accesses that wait on it; a refusal is reported to them, with a record
of KIND 5 in the contexts that have a fault queue. -/
def execLeaseAnswer (link window frame : Nat) (writable nc refused : Bool) (s : State) : Outcome :=
  next (fun s =>
    let s := arrive link 1 1 s
    if ¬ s.leaseAsked.contains (link, window) then s
    else
      let s := { s with leaseAsked := s.leaseAsked.filter fun r => r != (link, window) }
      if refused then { s with refused := (link, window) :: s.refused }
      else { s with leases := (link, window, frame * 4 + (if nc then 2 else 0) + (if writable then 1 else 0)) :: s.leases }) s

/-- A recall is acknowledged once every access through the leased translations has drained; they are dropped (R392). -/
def answerRecall (link frame : Nat) (s : State) : State :=
  let base := (2 + link) * 2 ^ 48 + frame * 2 ^ 19
  match drainWithin [(base, 2 ^ 19)] s with
  | (s, true) => s
  | (s, false) =>
    let mine (e : TlbEntry) : Bool := e.lease == some link && e.pa == base
    let s := if s.tlb.any fun e => mine e && e.nc then flushPage base (2 ^ 19) s else s
    let ended (x : Nat × Nat × Nat) : Bool := x.1 == link && x.2.2 / 4 == frame
    { s.send (.flit link 0x0A [frame] []) with
      tlb := s.tlb.filter fun e => !mine e
      leases := s.leases.filter fun x => !ended x
      leaseUses := s.leaseUses.filter fun u => !s.leases.any fun x => ended x && x.1 == u.link && x.2.1 == u.window
      recalled := s.recalled.filter fun r => r != (link, frame) }

/-- The recalls that wait are looked at again. -/
def answerRecalls (s : State) : State := s.recalled.foldl (fun s r => answerRecall r.1 r.2 s) s

/-- RECALL (R392): new accesses through the leased translations wait from here on. -/
def execRecall (link frame : Nat) (s : State) : Outcome :=
  next (fun s =>
    let s := arrive link 2 1 s
    answerRecall link frame { s with recalled := (s.recalled ++ [(link, frame)]).dedup }) s

/-- RECALL_ACKNOWLEDGEMENT (R392): the leases end at the target, and a migration that waited on them goes on. -/
def execRecallAcknowledgement (link frame : Nat) (s : State) : Outcome :=
  next (fun s => answerWaits (advanceMigrations (endRecall link frame (arrive link 2 1 s)))) s

/-- LEASE_RELEASE (R391). -/
def execLeaseRelease (link frame : Nat) (s : State) : Outcome :=
  next (fun s => answerWaits (advanceMigrations (releaseLease link frame (arrive link 2 1 s)))) s

/-- MIGRATION_COPY_DONE (R395): then the waiting writes, walks and lease requests go on. -/
def execMigrationCopyDone (i code : Nat) (s : State) : Outcome := next (fun s => pumpFans (answerWaits (migrationEnds i code s))) s

end Sys2Proof.Machine
end

