-- ==== Sys2Proof/Machine/Sched.lean ====
section
/-! DEFINITION. The scheduler: descriptors and records (R269 to R275), ready queues (R325 to R330), the kernel table (R334, R341),
latency-class jobs (R335 to R339), admission and allotments (R276 to R278, R332, R333), the end of a group (R274), replayable
nodes (R306, R417). -/

namespace Sys2Proof.Machine

/-! ## Reading and writing for the scheduler -/

/-- Bytes that the scheduler reads at a virtual address: a fault with its cause, KIND and address, or a wait. -/
inductive SchedRead where
  | data (bs : List Byte)
  | fault (cause kind addr : Nat)
  | wait
  deriving DecidableEq, Repr

/-- The scheduler of a die translates in the L3 banks (R385). -/
def schedTlb (die : Nat) : TlbUnit := .bank (Config.slicesPerDie * die)

/-- The first poisoned word of n bytes at a physical address, or the first of them. -/
def firstMarked (s : State) (pa n : Nat) : Nat := ((wordsOf pa n).find? fun w => s.marked w).getD (wordOf pa)

/-- The scheduler reads the pieces of a range as ordinary loads (R334); a poisoned word is reported at its own address (R406). -/
def schedPieces (die ctx : Nat) : List (Nat × Nat) → State → State × SchedRead
  | [], s => (s, .data [])
  | (va, n) :: t, s =>
    if 2 ^ 56 ≤ va then (s, .fault 0x10 99 va)
    else
      match translate (schedTlb die) ctx .load va s with
      | (s, .wait) => (s, .wait)
      | (s, .fault c k _) => (s, .fault c k va)
      | (s, .ok pa _) =>
        if !lineHeld s pa then (askLine pa s, .wait)
        else
          let (s, bs, bad) := homeRead .engine pa n s
          if bad then
            let w := firstMarked s pa n
            (logError 1 0 w s, .fault 0x19 99 (poisonedAt (BitVec.ofNat 64 va) pa w).1.toNat)
          else match schedPieces die ctx t s with
            | (s, .data cs) => (s, .data (bs ++ cs))
            | r => r

/-- The scheduler reads n bytes of a context. -/
def schedRead (die ctx va n : Nat) (s : State) : State × SchedRead := schedPieces die ctx (piecesOf va n) s

/-- The scheduler writes bytes of a descriptor or a record that it owns (R32, R269), where the page is mapped (log entry 32). A write whose
translation waits, and every later one until it has been done, is held and tried again (R395). -/
def schedPoke (die ctx va : Nat) (bs : List Byte) (s : State) : State :=
  let hold (s : State) : State := { s with pokes := s.pokes ++ [(die, ctx, va, bs)] }
  if s.pokes ≠ [] then hold s
  else match translate (schedTlb die) ctx .load va s with
    | (s, .ok pa _) => match blockedAt (wordsOf pa bs.length) s with
      | (s, true) => hold s
      | (s, false) => sendWrite 0 pa bs (homeWrite .engine pa bs s)
    | (s, .fault _ _ _) => s
    | (s, .wait) => hold s

/-- The held writes of the scheduler are tried again in their order. -/
def retryPokes (s : State) : State := s.pokes.foldl (fun s p => schedPoke p.1 p.2.1 p.2.2.1 p.2.2.2 s) { s with pokes := [] }

/-! ## Descriptors -/

/-- The descriptor that the scheduler owns at an address of a context. -/
def ownedOf (s : State) (ctx : Nat) (d : DWord) : Option Owned := s.owned.find? fun o => o.ctx == ctx && o.desc == d

/-- A descriptor changed. -/
def modOwned (ctx : Nat) (d : DWord) (f : Owned → Owned) (s : State) : State :=
  { s with owned := s.owned.map fun o => if o.ctx = ctx ∧ o.desc = d then f o else o }

/-- Bits 31:0 of a descriptor as they stand (R17, R269). -/
def Owned.lowWord (o : Owned) : Nat := o.low + (if o.running then 1 else if o.cancelled then 3 else 2) * 8 + o.now * 256

/-- The RO fields and COUNT of a descriptor are written where they lie. -/
def mirror (ctx : Nat) (d : DWord) (s : State) : State :=
  match ownedOf s ctx d with
  | none => s
  | some o =>
    let s := schedPoke o.die ctx d.toNat (leBytes 4 o.lowWord ++ leBytes 4 o.count) s
    if o.running then s else schedPoke o.die ctx (d.toNat + 56) (leBytes 8 o.doneAt) s

/-- The descriptors from one upward: itself, its UP, and so on (R269). -/
def chainOf (s : State) (ctx : Nat) : Nat → DWord → List Owned
  | 0, _ => []
  | fuel + 1, d => match ownedOf s ctx d with
    | some o => o :: (if o.level = 4 then [] else chainOf s ctx fuel o.up)
    | none => []

/-- The job that contains a descriptor. -/
def jobOf (s : State) (ctx : Nat) (d : DWord) : Option Owned := (chainOf s ctx 4 d).find? fun o => o.level == 4

/-- CLASS of a job: latency (R269). -/
def Owned.latency (o : Owned) : Bool := testBit o.low 6

/-- Whether the work below a descriptor belongs to a latency-class job. -/
def latencyUnder (s : State) (ctx : Nat) (d : DWord) : Bool := match jobOf s ctx d with
  | some j => j.latency
  | none => false

/-- The reservation-table entry of a latency job (R336). -/
def entryOf (s : State) (ctx : Nat) (d : DWord) : Option Job := (s.die0.jobs ++ s.die1.jobs).find? fun j => j.ctx == ctx && j.desc == d

/-! ## Records and queues -/

/-- The fields of a task record (R32). -/
def recordOf (ctx : Nat) (launch : DWord) (index : Nat) (latency : Bool) (addr : Nat) (b : List Byte) : Record where
  addr := BitVec.ofNat 64 addr
  ctx := ctx
  launch := launch
  index := index
  code := BitVec.ofNat 64 (fieldAt b 0 8)
  frame := BitVec.ofNat 64 (fieldAt b 8 8)
  join := fieldAt b 16 4
  prio := bitsOf (fieldAt b 20 4) 0 2
  idem := testBit (fieldAt b 20 4) 2
  repl := testBit (fieldAt b 20 4) 3
  clus := testBit (fieldAt b 20 4) 4
  waves := bitsOf (fieldAt b 20 4) 5 5 + 1
  lastLanes := bitsOf (fieldAt b 20 4) 10 5 + 1
  parent := BitVec.ofNat 64 (fieldAt b 24 8)
  latency := latency
  since := 0
  head := 0

/-- Whether the bytes of a record fail the checks of R272 that hold for every record. -/
def recordBad (b : List Byte) : Bool :=
  bitsOf (fieldAt b 20 4) 15 17 != 0 || decide (2 ^ 56 ≤ fieldAt b 0 8) || testBit (fieldAt b 0 8) 0

/-- The records of a block of bytes, each with its bytes. -/
def recordsOf (ctx : Nat) (launch : DWord) (latency : Bool) (index addr : Nat) : Nat → List Byte → List (Record × List Byte)
  | 0, _ => []
  | n + 1, b => (recordOf ctx launch index latency addr (b.take 32), b.take 32) ::
      recordsOf ctx launch latency (index + 1) (addr + 32) n (b.drop 32)

/-- The die that queues a record (R326, R330). -/
def recordDie (s : State) (r : Record) : Nat :=
  if r.latency ∨ r.clus then match ownedOf s r.ctx r.launch with
    | some o => o.die
    | none => 0
  else r.index / 16 % 2

/-- A queue of a die changed. -/
def Die.modReady (d : Die) (p : Nat) (f : List Record → List Record) : Die :=
  let i : Fin 4 := Fin.ofNat 4 p
  { d with ready := d.ready.set i (f d.ready[i]) }

/-- The queue of a record: priority 0 for a latency job's, whatever its PRIO (R325). -/
def Record.queue (r : Record) : Nat := if r.latency then 0 else r.prio

/-- A record joins a queue at its tail; one of a latency job stands ahead of every bulk record of priority 0 (R325). A queue holds 2^24 records:
one that finds it full stays among the waiting ones until there is room (log entry 33). -/
def pushTail (r : Record) (d : Die) : Die :=
  if 2 ^ 24 ≤ (d.ready[(Fin.ofNat 4 r.queue : Fin 4)]).length then { d with waiting := d.waiting ++ [r] }
  else if r.latency then d.modReady 0 fun l => (l.filter (·.latency)) ++ r :: (l.filter fun q => !q.latency)
  else d.modReady r.prio fun l => l ++ [r]

/-- The ready records that found their queues full take the places there are, in their order (R325). -/
def Die.settle (d : Die) : Die :=
  (d.waiting.filter fun r => r.join == 0).foldl (fun d r => pushTail r d) { d with waiting := d.waiting.filter fun r => r.join != 0 }

/-- Records leave a queue, and ready records that found it full take the places (R325). -/
def Die.leave (d : Die) (p : Nat) (f : List Record → List Record) : Die := (d.modReady p f).settle

/-- A record returns to the head of its priority (R342); the last record of a full queue waits for a place (R325). -/
def pushHead (r : Record) (d : Die) : Die :=
  let i : Fin 4 := Fin.ofNat 4 r.queue
  let l := if r.latency then r :: d.ready[i] else (d.ready[i].filter (·.latency)) ++ r :: (d.ready[i].filter fun q => !q.latency)
  { d with ready := d.ready.set i (l.take (2 ^ 24)), waiting := l.drop (2 ^ 24) ++ d.waiting }

/-- A record becomes ready (R325). -/
def makeReady (r : Record) (s : State) : State := s.modDie (recordDie s r) (pushTail { r with join := 0, since := s.clock, head := 0 })

/-- A record is enqueued: ready with JOIN 0, else waiting (R272, R325). DESIGN CHOICE (log entry 72): the scheduler goes on with the fields it read, so a
program's store into the enqueued record, whose later use R32 leaves undefined, changes nothing of its group and its join. -/
def enqueue (r : Record) (s : State) : State :=
  if r.join = 0 then makeReady r s
  else s.modDie (recordDie s r) fun d => { d with waiting := d.waiting ++ [r] }

/-- JOIN of the waiting record at an address falls by 1, and at 0 the record is ready (R273); none where no record with JOIN above 0 waits there. -/
def decJoin (ctx : Nat) (addr : DWord) (s : State) : Option State :=
  let is (r : Record) : Bool := r.ctx == ctx && r.addr == addr && r.join != 0
  match (s.die0.waiting ++ s.die1.waiting).find? is with
  | none => none
  | some r =>
    let s := schedPoke (recordDie s r) ctx (addr.toNat + 16) (leBytes 4 (r.join - 1)) s
    let drop (d : Die) : Die := { d with waiting := d.waiting.filter fun q => q != r }
    let keep (d : Die) : Die := { d with waiting := d.waiting.map fun q => if q = r then { r with join := r.join - 1 } else q }
    some (if r.join ≤ 1 then makeReady r ((s.modDie 0 drop).modDie 1 drop) else (s.modDie 0 keep).modDie 1 keep)

/-! ## The kernel table -/

/-- The entry of a kernel in a die's table (R334). -/
def kernelOf (s : State) (die ctx : Nat) (code : DWord) : Option Kernel :=
  (s.die die).kernels.find? fun k => k.ctx == ctx && k.code == code

/-- The words of a dictionary, each stored high parcel first (R49). -/
def dictWords : Nat → List Byte → List Word
  | 0, _ => []
  | n + 1, b => BitVec.ofNat 32 (fieldAt b 0 2 * 2 ^ 16 + fieldAt b 2 2) :: dictWords n (b.drop 4)

/-- A kernel's declared allotment, header and dictionary read from memory (R49, R50, R276); a failure is recorded in the entry;
none while a read waits. While another entry with the same dictionary is pinned, its copy serves. DESIGN CHOICE: with DICTLEN 0 any aligned DICTADDR is
accepted (log entry 94), and a field of the declared allotment outside its range is no reserved value (log entry 98). -/
def readKernel (die ctx : Nat) (code : DWord) (id : Nat) (s : State) : State × Option Kernel :=
  let blank : Kernel := {
    id := id, ctx := ctx, code := code, dictAddr := 0, dictLen := 0, sliceOff := 0, declared := 0, dict := [], failed := true,
    pins := [], avg := none }
  match schedRead die ctx (code - 24).toNat 24 s with
  | (s, .wait) => (s, none)
  | (s, .fault _ _ _) => (s, some blank)
  | (s, .data b) =>
    let declared := fieldAt b 0 8
    let dictAddr := fieldAt b 8 8
    let w := fieldAt b 16 4
    let len := bitsOf w 0 11
    let k := { blank with dictAddr := BitVec.ofNat 64 dictAddr, dictLen := len, sliceOff := fieldAt b 20 4, declared := BitVec.ofNat 64 declared }
    if bitsOf w 11 21 ≠ 0 ∨ 1024 < len ∨ dictAddr % 64 ≠ 0 ∨ testBit declared 31 = false ∨ bitsOf declared 27 4 ≠ 0 ∨
        bitsOf declared 38 26 ≠ 0 then (s, some k)
    else if len = 0 then (s, some { k with failed := false })
    else
      match (s.die die).kernels.find? fun e => e.ctx == ctx && e.dictAddr == k.dictAddr && e.dictLen == len && !e.failed with
      | some e => (s, some { k with dict := e.dict, failed := false })
      | none => match schedRead die ctx dictAddr (4 * len) s with
        | (s, .wait) => (s, none)
        | (s, .fault _ _ _) => (s, some k)
        | (s, .data d) => (s, some { k with dict := dictWords len d, failed := false })

/-- A launch pins the entry of a kernel, which is installed in both dies' tables where no entry is pinned (R334); none while a
read waits or the table has no free entry. -/
def pinKernel (die ctx : Nat) (launch code : DWord) (s : State) : State × Bool :=
  match kernelOf s die ctx code with
  | some _ =>
    let pin (k : Kernel) : Kernel :=
      if k.ctx = ctx ∧ k.code = code ∧ ¬ k.pins.contains launch then { k with pins := k.pins ++ [launch] } else k
    ((s.modDie 0 fun d => { d with kernels := d.kernels.map pin }).modDie 1 fun d => { d with kernels := d.kernels.map pin }, true)
  | none =>
    if 64 ≤ (s.die die).kernels.length then (s, false)
    else
      match readKernel die ctx code s.nextUid s with
      | (s, none) => (s, false)
      | (s, some k) =>
        let add (d : Die) : Die := { d with kernels := d.kernels ++ [{ k with pins := [launch] }] }
        (((s.modDie 0 add).modDie 1 add).fresh, true)

/-- The kernels of a list of codes are pinned. -/
def pinAll (die ctx : Nat) (launch : DWord) : List DWord → State → State × Bool
  | [], s => (s, true)
  | c :: t, s =>
    match pinKernel die ctx launch c s with
    | (s, true) => pinAll die ctx launch t s
    | (s, false) => (s, false)

/-- A launch's pins are dropped; an entry no longer pinned is never used again (R334). -/
def unpin (ctx : Nat) (launch : DWord) (s : State) : State :=
  let drop (d : Die) : Die := { d with kernels := (d.kernels.map fun k =>
    if k.ctx = ctx then { k with pins := k.pins.filter fun p => p != launch } else k).filter fun k => k.pins != [] }
  (s.modDie 0 drop).modDie 1 drop

/-- The resident groups of a core. -/
def State.resident (s : State) (c : Nat) : List Group := s.groups.filter fun g => g.core == c

/-- The dictionaries in use on a core (R50): context, DICTADDR and DICTLEN. -/
def tablesOn (s : State) (c : Nat) : List (Nat × DWord × Nat) :=
  (((s.resident c).filter fun g => !g.failed).filterMap fun g => match kernelOf s (dieOf c) g.task.ctx g.task.code with
    | some k => if k.dictLen = 0 then none else some (k.ctx, k.dictAddr, k.dictLen)
    | none => none).dedup

/-- Whether a dictionary table is available for a kernel on a core (R50, R332). -/
def tableFree (s : State) (c ctx : Nat) (code : DWord) : Bool := match kernelOf s (dieOf c) ctx code with
  | some k => k.failed || k.dictLen == 0 || (tablesOn s c).contains (k.ctx, k.dictAddr, k.dictLen) || decide ((tablesOn s c).length < 4)
  | none => true

/-- After the handler of a dictionary-load fault has returned, the kernel's memory is read again into its entry, and into a free table of the core (R50,
R276); the flag says that a read or a table must be waited for. -/
def reloadKernel (s : State) : State × Bool :=
  match kernelOf s s.dieNo s.ctxNo s.grp.task.code with
  | none => (s, false)
  | some old =>
    match readKernel s.dieNo s.ctxNo old.code old.id s with
    | (s, none) => (s, true)
    | (s, some k) =>
      let upd (e : Kernel) : Kernel := if e.id = old.id then { k with pins := e.pins, avg := e.avg } else e
      let s := (s.modDie 0 fun d => { d with kernels := d.kernels.map upd }).modDie 1 fun d => { d with kernels := d.kernels.map upd }
      if tableFree s s.coreNo s.ctxNo s.grp.task.code then (s.modG fun g => { g with failed := k.failed, dict := k.dict }, false)
      else (s, true)

/-! ## Completion -/

/-- Shadows of the buffers that a node's groups wrote are discarded (R417). -/
def dropShadows (ctx : Nat) (bases : List DWord) (s : State) : State :=
  let cut (b : Shadow) : Shadow := if bases.contains (BitVec.ofNat 64 b.base) then { b with bytes := [] } else b
  s.modCtx ctx fun c => { c with shadows := c.shadows.map cut }

/-- The ranges and shadow bytes of a node's buffers by physical address; the second part says that the publication must wait. DESIGN CHOICE (log entry
102): it waits while a page of a buffer cannot be translated. -/
def nodePlan (die ctx : Nat) : List DWord → State → State × List (Nat × List (Nat × Nat) × List (Nat × Byte)) × Bool
  | [], s => (s, [], false)
  | b :: t, s =>
    match bufferAt s ctx b.toNat with
    | none => nodePlan die ctx t s
    | some c =>
      match c.plan (schedTlb die) ctx s with
      | (s, none) => (s, [], true)
      | (s, some (.error _)) => (s, [], true)
      | (s, some (.ok (rs, ps))) =>
        let (s, w) := publishWaits rs ps s
        let (s, qs, w') := nodePlan die ctx t s
        (s, (b.toNat, rs, ps) :: qs, w || w')

/-- The buffers that a node's groups wrote are published (R306). -/
def publishNode (die ctx : Nat) (bases : List DWord) (s : State) : State :=
  let (s, plan, _) := nodePlan die ctx bases s
  plan.foldl (fun s p => publishBytes 0 ctx p.1 p.2.1 p.2.2 s) s

/-- A level whose COUNT is 0 completes: a replayable node's buffers are published (R306), DONEAT and STATE are written, the
kernels are unpinned, a latency job's entry is freed, and UP's COUNT falls (R270, R338). -/
def finishLevel : Nat → Nat → DWord → State → State
  | 0, _, _, s => s
  | fuel + 1, ctx, d, s =>
    match ownedOf s ctx d with
    | none => s
    | some o =>
      if !o.running || o.count != 0 then s
      else
        let s := if o.cancelled then dropShadows ctx o.wrote s else publishNode o.die ctx o.wrote s
        let s := modOwned ctx d (fun o => { o with running := false, now := if o.cancelled then o.status else o.now, doneAt := s.clock, records := [] }) s
        let s := unpin ctx d (mirror ctx d s)
        let free (e : Die) : Die := { e with jobs := e.jobs.filter fun j => !(j.ctx == ctx && j.desc == d) }
        let s := (s.modDie 0 free).modDie 1 free
        if o.level = 4 then s
        else
          let s := mirror ctx o.up (modOwned ctx o.up (fun u => { u with count := u.count - 1 }) s)
          finishLevel fuel ctx o.up s

/-- A launch's COUNT falls by n (R270). -/
def countDown (ctx : Nat) (d : DWord) (n : Nat) (s : State) : State :=
  if n = 0 then s else finishLevel 4 ctx d (mirror ctx d (modOwned ctx d (fun o => { o with count := o.count - n }) s))

/-- Whether the end of a launch's last group must wait for its publication: for the writes of its engine commands to land, and for what nodePlan names
(R246, R306). -/
def publicationWaits (ctx : Nat) (d : DWord) (s : State) : State × Bool :=
  match ownedOf s ctx d with
  | some o =>
    if 1 < o.count ∨ o.cancelled then (s, false)
    else if s.fabrics.any fun f => f.ctx == ctx && f.repl == some d then (s, true)
    else if o.wrote = [] then (s, false)
    else
      let (s, _, w) := nodePlan o.die ctx o.wrote s
      (s, w)
  | none => (s, false)

/-- STATUS written to a launch descriptor. -/
def writeStatus (ctx : Nat) (d : DWord) (st : Nat) (s : State) : State := mirror ctx d (modOwned ctx d (fun o => { o with now := st }) s)

/-! ## Cancelling -/

/-- f applied to a group on a core as the issuing group; every group keeps its place. -/
def onGroup (uid : Nat) (f : State → State) (s : State) : State :=
  if s.grp.uid = uid then f s
  else match s.rest.find? fun g => g.uid == uid with
    | none => s
    | some g =>
      let u := s.grp.uid
      let t := f { s with grp := g, rest := s.rest.map fun h => if h.uid = uid then s.grp else h }
      match t.rest.find? fun h => h.uid == u with
      | none => t
      | some h => { t with grp := h, rest := t.rest.map fun k => if k.uid = u then t.grp else k }

/-- The records of a launch leave every queue and its saved groups are discarded; the second part counts them. -/
def takeRecords (ctx : Nat) (d : DWord) (s : State) : State × Nat :=
  let of (r : Record) : Bool := r.ctx == ctx && r.launch == d
  let gone (g : Die) : List Saved := g.saved.filter fun v => of v.group.task
  let uids := (gone s.die0 ++ gone s.die1).flatMap fun v => v.group.all.map (·.uid)
  let n := (s.unstarted ctx d).length + (gone s.die0 ++ gone s.die1).length
  let keep (r : Record) : Bool := !of r
  let cut (e : Die) : Die := Die.settle { e with
    ready := e.ready.map fun l => l.filter keep
    waiting := e.waiting.filter keep
    saved := e.saved.filter fun v => keep v.group.task }
  let core (c : Core) : Core := { c with local_ := c.local_.filter keep }
  let s := (s.modDie 0 cut).modDie 1 cut
  ({ s with
    cores := s.cores.map fun e => (e.1, core e.2)
    provs := s.provs.filter fun c => !uids.contains c.wave
    merges := s.merges.filter fun m => !uids.contains m.wave }, n)

/-- The running groups of a launch stop (R275). -/
def stopAll (ctx : Nat) (d : DWord) (status : Nat) (s : State) : State :=
  ((s.groups.filter fun g => g.task.ctx == ctx && g.task.launch == d).map (·.uid)).foldl
    (fun s u => onGroup u (stopGroup status) s) s

/-- A descriptor and every descriptor below it are cancelled (R275): the one named takes a STATUS at STATE 3, the others 1. -/
def cancelTree (ctx : Nat) (d : DWord) (status : Nat) (s : State) : State :=
  let under := (s.owned.filter fun o => o.ctx == ctx && o.running && !o.cancelled && (chainOf s ctx 4 o.desc).any fun a => a.desc == d).map (·.desc)
  let mark (o : Owned) : Owned :=
    if o.ctx = ctx ∧ under.contains o.desc = true then { o with cancelled := true, status := if o.desc = d then status else 1 } else o
  let s := { s with owned := s.owned.map mark }
  under.foldl (fun s l =>
    match ownedOf s ctx l with
    | some o => if o.level = 1 then
        let (s, n) := takeRecords ctx l s
        countDown ctx l n (stopAll ctx l 0 s)
      else s
    | none => s) s

/-- A replayable node that consumed an uncorrectable error is discarded and re-queued, or at the fourth error cancelled with
STATUS 3 (R417). -/
def discardNode (ctx : Nat) (d : DWord) (s : State) : State :=
  match ownedOf s ctx d with
  | none => s
  | some o =>
    if !o.running || o.cancelled then s
    else if 3 ≤ o.requeues then cancelTree ctx d 3 s
    else
      let s := (takeRecords ctx d (stopAll ctx d 257 s)).1
      let s := dropShadows ctx o.wrote s
      let s := modOwned ctx d (fun o => { o with count := o.nrec, next := o.nrec, requeues := o.requeues + 1, wrote := [] }) s
      let s := o.records.foldl (fun s r => schedPoke o.die ctx (r.addr.toNat + 16) (leBytes 4 r.join) s) s
      o.records.foldl (fun s r => enqueue r s) (mirror ctx d s)

/-- The nodes whose discard is due (R417). -/
def settleDiscards (s : State) : State := s.discards.foldl (fun s d => discardNode d.1 d.2 s) { s with discards := [] }

/-! ## submit -/

/-- The answer to a submission: a code, a fault with its cause, KIND and address, or a wait. -/
inductive Verdict where
  | code (n : Nat)
  | fault (cause kind addr : Nat)
  | wait
  deriving DecidableEq, Repr

/-- Whether a descriptor is malformed (R269, R271), its records apart. -/
def malformed (b : List Byte) : Bool :=
  let low := fieldAt b 0 4
  let level := bitsOf low 0 3
  let latency := testBit low 6
  level == 0 || decide (5 ≤ level) || bitsOf low 3 2 != 0 || bitsOf low 8 8 != 0 || fieldAt b 56 8 != 0 || bitsOf low 27 5 != 0 ||
    fieldAt b 28 4 != 0 || (level != 1 && (testBit low 5 || testBit low 7 || bitsOf low 16 11 != 0)) || (level != 4 && latency) ||
    (level != 1 && fieldAt b 4 4 == 0) || ((level == 4) != (fieldAt b 8 8 == 0)) ||
    (level == 1 && (fieldAt b 24 4 == 0 || decide (2 ^ 24 < fieldAt b 24 4) || fieldAt b 16 8 % 32 != 0 ||
      testBit (fieldAt b 32 8) 0 || decide (2 ^ 56 ≤ fieldAt b 32 8))) ||
    (latency && (fieldAt b 40 8 == 0 || fieldAt b 48 8 == 0))

/-- RESV of a die (R331). -/
def resvOf (d : Die) : Nat := bitsOf d.schedcfg.toNat 8 8

/-- A job placed in ascending order of deadline, behind those of the same one (R336). -/
def placeJob (j : Job) : List Job → List Job
  | [] => [j]
  | k :: t => if j.deadline < k.deadline then j :: k :: t else k :: placeJob j t

/-- The running sum of budgets against the capacity of the reserved cores (R336). -/
def fitsJobs (resv clock : Nat) : Nat → List Job → Bool
  | _, [] => true
  | sum, j :: t =>
    let sum := sum + j.budget
    decide (clock + 21000 < j.deadline) && decide (sum ≤ resv * ((j.deadline - clock - 21000) * 11 / 15)) && fitsJobs resv clock sum t

/-- The admission test of a latency-class job (R336, R339). -/
def admitsJob (d : Die) (clock : Nat) (j : Job) : Bool :=
  testBit d.schedcfg.toNat 18 && decide (d.jobs.length < 32) &&
    fitsJobs (resvOf d) clock 0 (placeJob j (d.jobs.foldl (fun l k => placeJob k l) []))

/-- Whether UP names a descriptor that runs and is of a higher level (R271 code 3). DESIGN CHOICE (log entry 33): one that is cancelled and has not yet
reached STATE 3 still runs, and what is submitted under it then runs to its end. -/
def upRuns (s : State) (ctx level : Nat) (up : DWord) : Bool := match ownedOf s ctx up with
  | some o => o.running && decide (level < o.level)
  | none => false

/-- An accepted descriptor is owned: STATE 1, COUNT at NREC for a launch (R269 to R271). -/
def ownDesc (die ctx : Nat) (keepSys : Bool) (d : DWord) (b : List Byte) (rs : List Record) (s : State) : State :=
  let low := fieldAt b 0 4
  let level := bitsOf low 0 3
  let nrec := if level = 1 then fieldAt b 24 4 else 0
  let o : Owned := {
    desc := d, ctx := ctx, level := level, die := die, up := BitVec.ofNat 64 (fieldAt b 8 8), running := true, cancelled := false
    status := 1, next := nrec, nrec := nrec, first := BitVec.ofNat 64 (fieldAt b 16 8), handler := BitVec.ofNat 64 (fieldAt b 32 8)
    low := if testBit low 7 && !keepSys then low - 128 else low, count := if level = 1 then nrec else fieldAt b 4 4, now := 0, doneAt := 0
    clus := rs.any (·.clus), repl := rs != [] && rs.all (·.repl), records := if rs.all (·.repl) then rs else [], requeues := 0, wrote := []
    roFrom := s.roLog.length }
  let s := { s with owned := (s.owned.filter fun p => !(p.ctx == ctx && p.desc == d)) ++ [o] }
  let s := if level = 4 ∧ o.latency then
      s.modDie die fun e => { e with jobs := e.jobs ++ [⟨d, ctx, fieldAt b 40 8, s.clock + fieldAt b 48 8, false⟩] }
    else s
  mirror ctx d s

/-- While nothing that was accepted runs, no read-only load can return an overwritten value (R298). -/
def dropRo (s : State) : State := if s.owned.any (·.running) then s else { s with roLog := [] }

/-- The die whose scheduler takes a launch: for the work of a latency job the job's own die (R335). -/
def workDie (s : State) (die ctx : Nat) (up : DWord) : Nat := match jobOf s ctx up with
  | some j => if j.latency then j.die else die
  | none => die

/-- submit of a launch whose descriptor is well formed (R271, R330, R334, R335). -/
def submitLaunch (die ctx : Nat) (keepSys : Bool) (d : DWord) (b : List Byte) (s : State) : State × Verdict :=
  let n := fieldAt b 24 4
  let up := BitVec.ofNat 64 (fieldAt b 8 8)
  match schedRead die ctx (fieldAt b 16 8) (32 * n) s with
  | (s, .wait) => (s, .wait)
  | (s, .fault c k a) => (s, .fault c k a)
  | (s, .data bs) =>
    let rs := recordsOf ctx d (latencyUnder s ctx up) 0 (fieldAt b 16 8) n bs
    let clus := rs.any (·.1.clus)
    if (rs.any fun r => recordBad r.2) ∨ (clus ∧ ((rs.any fun r => !r.1.clus) ∨ 12 < n)) then (s, .code 2)
    else if !upRuns s ctx 1 up then (s, .code 3)
    else if clus ∧ latencyUnder s ctx up ∧ resvOf (s.die (workDie s die ctx up)) < 12 then (s, .code 1)
    else
      match pinAll die ctx d ((rs.map (·.1.code)).dedup) s with
      | (s, false) => (s, .wait)
      | (s, true) =>
        let die := workDie s die ctx up
        let prio := ((rs.map (·.1.prio)).head?).getD 0
        let rs := rs.map fun r => if clus then { r.1 with prio := prio } else r.1
        let s := ownDesc die ctx keepSys d b rs (dropRo s)
        (rs.foldl (fun s r => enqueue r s) s, .code 0)

/-- A submission (R271): the checks in order, then acceptance. -/
def submitDesc (die ctx : Nat) (keepSys : Bool) (d : DWord) (s : State) : State × Verdict :=
  if 2 ^ 56 ≤ d.toNat then (s, .fault 0x10 99 d.toNat)
  else if d.toNat % 64 ≠ 0 ∨ (s.ctx ctx).state ≠ .live then (s, .code 2)
  else
    match schedRead die ctx d.toNat 64 s with
    | (s, .wait) => (s, .wait)
    | (s, .fault c k a) => (s, .fault c k a)
    | (s, .data b) =>
      let level := bitsOf (fieldAt b 0 4) 0 3
      if malformed b then (s, .code 2)
      else if level = 1 then submitLaunch die ctx keepSys d b s
      else if level ≠ 4 ∧ upRuns s ctx level (BitVec.ofNat 64 (fieldAt b 8 8)) = false then (s, .code 3)
      else if testBit (fieldAt b 0 4) 6 && !admitsJob (s.die die) s.clock ⟨d, ctx, fieldAt b 40 8, s.clock + fieldAt b 48 8, false⟩ then
        (s, .code 1)
      else (ownDesc die ctx keepSys d b [] s, .code 0)

/-- A read of the scheduler for submit or spawn faults: a page that is not present has the whole instruction replayed (R272, R387), any other cause parks the
run with RESTART 0 (R265), and a poisoned word discards the replayable node that consumes it (R417). -/
def schedFault (x : Exec) (c k a : Nat) (s : State) : State :=
  let addr := BitVec.ofNat 64 a
  if c = 0x19 ∧ s.grp.task.repl = true then { s with discards := s.discards ++ [(s.ctxNo, s.grp.task.launch)] }
  else if c = 0x14 then replayRun x c addr (oweRecords [⟨addr, c, k⟩] s)
  else faultRun x c addr (oweRecords [⟨addr, c, k⟩] s)

/-- submit (R271): a release, then the scheduler decides. -/
def submitBody (d p : Fin 128) (x : Exec) (s : State) : State :=
  match submitDesc s.dieNo s.ctxNo false (s.rdSS p) s with
  | (s, .wait) => stallBack x s
  | (s, .code n) => s.wrS d (BitVec.ofNat 32 n)
  | (s, .fault c k a) => schedFault x c k a s

/-- submit (R264). -/
def execSubmit (d p : Fin 128) (s : State) : Outcome :=
  issue { reads := sPair p, writes := sReg d, perLane := false, fence := true, kind := .effect, probes := true } (fun x s => if s.w.mode = .ahead then probeAt [(.load, s.rdSS p)] s else afterRelease (submitBody d p) x s) s

/-! ## spawn, joindec, cancel -/

/-- spawn (R272): every record is checked before any is enqueued. -/
def spawnBody (r n : Fin 128) (x : Exec) (s : State) : State :=
  let a := s.rdSS r
  let k := (s.rdS n).toNat
  if k = 0 then s
  else
    let launch := s.grp.task.launch
    let bad (s : State) : State := faultRun x 0x29 s.here s
    if 2 ^ 56 ≤ a.toNat then faultRun x 0x10 a s
    else
      match ownedOf s s.ctxNo launch with
      | none => bad s
      | some o =>
        if a.toNat % 32 ≠ 0 ∨ 65535 < k ∨ o.cancelled then bad s
        else
          match schedRead s.dieNo s.ctxNo a.toNat (32 * k) s with
          | (s, .wait) => stallBack x s
          | (s, .fault c q f) => schedFault x c q f s
          | (s, .data bs) =>
            let rs := recordsOf s.ctxNo launch (latencyUnder s s.ctxNo launch) o.next a.toNat k bs
            if rs.any fun e => recordBad e.2 || e.1.clus then bad s
            else
              match pinAll s.dieNo s.ctxNo launch ((rs.map (·.1.code)).dedup) s with
              | (s, false) => stallBack x s
              | (s, true) =>
                let s := modOwned s.ctxNo launch (fun o => { o with count := o.count + k, next := o.next + k }) s
                (rs.map (·.1)).foldl (fun s r => enqueue r s) (mirror s.ctxNo launch s)

/-- spawn (R264). -/
def execSpawn (r n : Fin 128) (s : State) : Outcome :=
  issue { reads := sPair r ++ sReg n, perLane := false, fence := true, kind := .effect, probes := true }
    (fun x s => if s.w.mode = .ahead then probeAt (granulesOf .load (s.rdSS r) (32 * (s.rdS n).toNat)) s
      else if s.rdS n = 0 then s else afterRelease (spawnBody r n) x s) s

/-- joindec (R273). -/
def joindecBody (r : Fin 128) (x : Exec) (s : State) : State :=
  let a := s.rdSS r
  if 2 ^ 56 ≤ a.toNat then faultRun x 0x10 a s
  else match decJoin s.ctxNo a s with
    | some s => s
    | none => faultRun x 0x2A s.here s

/-- joindec (R264). -/
def execJoindec (r : Fin 128) (s : State) : Outcome :=
  issue { reads := sPair r, perLane := false, fence := true, kind := .effect } (afterRelease (joindecBody r)) s

/-- Whether a descriptor lies inside the job of the issuing group. -/
def sameJob (s : State) (d : DWord) : Bool :=
  match jobOf s s.ctxNo d, jobOf s s.ctxNo s.grp.task.launch with
  | some a, some b => a.desc == b.desc
  | _, _ => false

/-- cancel (R275). -/
def cancelBody (d : Fin 128) (x : Exec) (s : State) : State :=
  let a := s.rdSS d
  if 2 ^ 56 ≤ a.toNat then faultRun x 0x10 a s
  else if a.toNat % 64 ≠ 0 then faultRun x 0x2B s.here s
  else match ownedOf s s.ctxNo a with
    | none => faultRun x 0x2B s.here s
    | some o =>
      if !sameJob s a then faultRun x 0x2B s.here s
      else afterRelease (fun _ s => if o.running then cancelTree s.ctxNo a 1 s else s) x s

/-- cancel (R264). -/
def execCancel (d : Fin 128) (s : State) : Outcome :=
  issue { reads := sPair d, perLane := false, fence := true, kind := .effect } (cancelBody d) s

/-! ## Resources of a core -/

/-- The resources of a core (R31): group slots, wave slots, wave-registers, scratch and operand buffer units, tiles, tags. -/
def coreTotals : List Nat := [Config.groupsPerCore, Config.wavesPerCore, Config.coreVregs, Config.coreScratch, Config.coreTiles, 64, Config.coreObuf]

/-- What an allotment takes for a number of waves. -/
def allotNeeds (a : DWord) (waves : Nat) : List Nat :=
  [1, waves, waves * vregsOf a, scratchOf a, waves * tilesOf a, tagsOf a, obufOf a]

/-- The midge contexts of a group. -/
def Group.midges (g : Group) : Nat := (g.all.filter fun w => w.mode == .midge).length

/-- What a resident group takes, its midge context with it (R343). -/
def Group.holds (g : Group) : List Nat :=
  List.zipWith (· + ·) (allotNeeds g.allot g.task.waves) [0, g.midges, g.midges * vregsOf g.allot, 0, 0, 0, 0]

/-- What a held acquire still needs. -/
def Group.shortfall (g : Group) : List Nat := match g.acquire with
  | some a => List.zipWith (· - ·) (allotNeeds a.request g.task.waves) (allotNeeds g.allot g.task.waves)
  | none => [0, 0, 0, 0, 0, 0, 0]

/-- The sum of lists of resources. -/
def sumNeeds (ls : List (List Nat)) : List Nat := ls.foldl (List.zipWith (· + ·)) [0, 0, 0, 0, 0, 0, 0]

/-- Whether needs fit into what is left beside what is taken or set aside; a resource of which nothing is needed does not count (R332). -/
def fitsBeside (need : List Nat) (taken : List (List Nat)) : Bool :=
  (List.zipWith (fun n a => n == 0 || decide (n ≤ a)) need (List.zipWith (· - ·) coreTotals (sumNeeds taken))).all id

/-- The tags that groups of a core hold. -/
def tagsTaken (s : State) (c : Nat) : BitVec 64 := (s.resident c).foldl (fun m g => m ||| g.tags) 0

/-- The n lowest free tags of a core (R278). -/
def lowestTags (used : BitVec 64) (n : Nat) : BitVec 64 :=
  (((List.range 64).filter fun i => !used.getLsbD i).take n).foldl (fun m i => m ||| BitVec.twoPow 64 i) 0

/-! ## acquire -/

/-- Whether a request is refused with the allotment fault (R277). -/
def badRequest (g : Group) (r : DWord) : Bool :=
  let w := g.task.waves
  decide (vregsOf r < vregsOf g.allot) || decide (scratchOf r < scratchOf g.allot) || decide (tilesOf r < tilesOf g.allot) ||
    decide (tagsOf r < tagsOf g.allot) || decide (obufOf r < obufOf g.allot) || vregsOf r % 8 != 0 || decide (vregsOf r < 16) ||
    decide (128 < vregsOf r) || decide (scratchOf r < 4) || decide (64 < scratchOf r) || decide (16 < tilesOf r) ||
    decide (tagsOf r < 4) || decide (64 < tagsOf r) || decide (48 < obufOf r) || bitsOf r.toNat 27 4 != 0 || bitsOf r.toNat 38 26 != 0 ||
    decide (Config.coreVregs < vregsOf r * w) || decide (Config.coreTiles < tilesOf r * w)

/-- FULL of an allotment set (R278). -/
def withFull (a : DWord) : DWord := a ||| 0x80000000

/-- A grant takes effect (R278): the request with FULL, and new tags with their bits at 1. -/
def grantTo (r : DWord) (s : State) : State :=
  let new := lowestTags (tagsTaken s s.coreNo) (tagsOf r - tagsOf s.grp.allot)
  let s := s.modG fun g => { g with allot := withFull r, tags := g.tags ||| new }
  s.modCore s.coreNo fun c => { c with tagmap := c.tagmap ||| new }

/-- acquire and acquire dA (R277): a request equal to the grant sets FULL; any other is held until it is granted. A second
acquire of the group waits for the first. -/
def acquireBody (explicit : Bool) (r : DWord) (x : Exec) (s : State) : State :=
  if s.grp.acquire.isSome then stallBack x s
  else if badRequest s.grp r then faultRun x 0x2C s.here s
  else if withFull r = withFull s.grp.allot then s.modG fun g => { g with allot := withFull r }
  else
    let s := s.modG fun g => { g with acquire := some ⟨explicit, r, s.nextUid, g.wave.uid⟩ }
    (s.modW fun w => { w with hold := some .acquire }).fresh

/-- The declared allotment of the issuing group's kernel (R276). -/
def declaredOf (s : State) : DWord := match kernelOf s s.dieNo s.ctxNo s.grp.task.code with
  | some k => k.declared
  | none => s.grp.allot

/-- acquire (R277). -/
def execAcquire (s : State) : Outcome :=
  issue { perLane := false, kind := .effect } (fun x s => acquireBody false (declaredOf s) x s) s

/-- acquire dA (R277). -/
def execAcquireExplicit (a : Fin 128) (s : State) : Outcome :=
  issue { reads := sPair a, perLane := false, kind := .effect } (fun x s => acquireBody true (s.rdSS a) x s) s

/-- The place of a group's held acquire in the order of requests. -/
def Group.order (g : Group) : Nat := match g.acquire with
  | some a => a.order
  | none => 0

/-- A group placed by the order of its request. -/
def placeGroup (g : Group) : List Group → List Group
  | [] => [g]
  | h :: t => if g.order < h.order then g :: h :: t else h :: placeGroup g t

/-- The held acquires of a core in the order of their requests (R332), those of groups being taken back apart (R345). -/
def heldAcquires (s : State) (c : Nat) : List Group :=
  ((s.resident c).filter fun g => g.acquire.isSome && g.saving.isNone && g.stop.isNone).foldl (fun l g => placeGroup g l) []

/-- The first held acquire that can be granted once those requested before it are set aside (R332). -/
def grantable (taken : List (List Nat)) : List Group → Option Group
  | [] => none
  | g :: t => if fitsBeside g.shortfall taken then some g else grantable (g.shortfall :: taken) t

/-- The wave held in acquire issues again. -/
def releaseAcquire (g : Group) : Group :=
  { (g.mapWaves fun w => if w.hold = some .acquire then { w with hold := none } else w) with acquire := none }

/-- One held acquire of a core is granted (R278, R332). -/
def grantAcquire (c : Nat) (s : State) : State :=
  match grantable ((s.resident c).map (·.holds)) (heldAcquires s c) with
  | some g => onGroup g.uid (fun s => match s.grp.acquire with
    | some a => (grantTo a.request s).modG releaseAcquire
    | none => s) s
  | none => s

/-- ACQUIRE_GRANT (R278, R332). -/
def execAcquireGrant (core : Nat) (s : State) : Outcome := next (grantAcquire core) s

end Sys2Proof.Machine
end

