-- ==== Sys2Proof/Machine/Groups.lean ====
section
/-! DEFINITION. Groups on cores: the ready queues as cores see them (R327 to R330, R335), admission and the start of a group (R12,
R17, R25, R332), its end (R27, R274), taking a core back (R340 to R342), saves and restores (R412 to R414), midge contexts (R343,
R344), latency jobs in operation (R337 to R339), and the orders of the control cores on halted groups (R451). -/

namespace Sys2Proof.Machine

/-! ## The start of a group -/

/-- The wave of a group at its start (R12, R25, R34). -/
def startWave (uid idx slot lanes : Nat) (code : BitVec 56) (fair : Nat) (promise : Bool) : Wave :=
  let m : Mask := maskOf fun l => decide (l.val < lanes)
  { Wave.blank with
    uid := uid, idx := idx, slot := slot, fairness := fair, promise := promise
    st := Lanes.ofFn fun l => if bit m l then .ready else .inactive
    pc := Lanes.ofFn fun l => if bit m l then code else 0 }

/-- The threshold of %fairness (R34), and the one that FAIR of a launch gives (R269). -/
def clampFair (x : Nat) : Nat := if x < 8 then 8 else if 1024 < x then 1024 else x
def startFair (low : Nat) : Nat := if bitsOf low 16 11 = 0 then 48 else clampFair (bitsOf low 16 11)

/-- The group registers of R17. -/
def startRegs (r : Record) (low : Nat) : Vector Word 128 :=
  (((((((Vector.replicate 128 (0 : Word)).set 0 (loWord r.frame)).set 1 (hiWord r.frame)).set 2 (loWord r.addr)).set 3 (hiWord r.addr)).set 4
    (BitVec.ofNat 32 r.index)).set 5 (BitVec.ofNat 32 r.waves)).set 6 (BitVec.ofNat 32 r.lastLanes) |>.set 7 (BitVec.ofNat 32 low)

/-- The lowest free group slot of a core. -/
def lowestSlot (s : State) (c : Nat) : Nat :=
  let used := (s.resident c).map (·.slot)
  ((List.range Config.groupsPerCore).find? fun i => !used.contains i).getD 0

/-- The free wave slots of a core, in ascending order (R332). -/
def freeSlots (s : State) (c : Nat) : List Nat :=
  let used := (s.resident c).flatMap fun g => g.all.map (·.slot)
  (List.range Config.wavesPerCore).filter fun i => !used.contains i

/-- A group joins those on cores. -/
def addGroup (g : Group) (s : State) : State := if s.grp.live then { s with rest := s.rest ++ [g] } else { s with grp := g }

/-- The issuing group leaves its core. -/
def dropFocus (s : State) : State := match s.rest with
  | [] => { s with grp := Group.blank }
  | g :: t => { s with grp := g, rest := t }

/-- A group starts a record on a core (R12, R17, R25, R30, R31, R208): as after an acquire, with the prologue and four tags at 1. -/
def startGroup (c : Nat) (r : Record) (s : State) : State :=
  let o := ownedOf s r.ctx r.launch
  let low := (o.map (·.lowWord)).getD 0
  let k := kernelOf s (dieOf c) r.ctx r.code
  let tags := lowestTags (tagsTaken s c) 4
  let base := s.nextUid + 1
  let wave (i : Nat) : Wave :=
    startWave (base + i) i ((freeSlots s c).getD i 0) (if i + 1 = r.waves then r.lastLanes else 32) (r.code.setWidth 56) (startFair low) (testBit low 5)
  let g : Group := { Group.blank with
    live := true, uid := s.nextUid, core := c, slot := lowestSlot s c, task := r
    handler := (o.map (·.handler)).getD 0, sys := testBit low 7, s := startRegs r low, tags := tags
    kernel := (k.map (·.id)).getD 0, dict := (k.map (·.dict)).getD [], failed := (k.map (·.failed)).getD true, started := s.clock
    wave := wave 0, waves := (List.range (r.waves - 1)).map fun i => wave (i + 1) }
  let s := s.modCore c fun k => { k with tagmap := k.tagmap ||| tags }
  let s := acquireCore c { s with nextUid := base + r.waves }
  addGroup g s

/-! ## Admission -/

/-- Whether a core is one of the reserved cores of its die (R335). -/
def reservedCore (s : State) (c : Nat) : Bool := decide (c % Config.coresPerDie < resvOf (s.die (dieOf c)))

/-- The cores of a die. -/
def dieCores (die : Nat) : List Nat := (List.range Config.coresPerDie).map fun i => die * Config.coresPerDie + i

/-- Whether a core can admit a group with an allotment, the shortfall of every held acquire set aside (R332). -/
def hasRoom (s : State) (c : Nat) (a : DWord) (waves : Nat) : Bool :=
  fitsBeside (allotNeeds a waves) ((s.resident c).map (·.holds) ++ (s.resident c).map (·.shortfall))

/-- Whether a core can admit a record (R332). -/
def canAdmit (s : State) (c : Nat) (r : Record) : Bool := (s.core c).open_ && hasRoom s c prologue r.waves && tableFree s c r.ctx r.code

/-- The midge context of a group ends, if it has one (R344). -/
def endMidgeOf (uid : Nat) (s : State) : State :=
  let cut (g : Group) : Group :=
    if g.uid = uid ∧ g.midges ≠ 0 then
      match g.all.filter (fun w => w.mode != .midge) with
      | [] => g
      | w :: t => { g with wave := w, waves := t }
    else g
  s.mapGroups cut

/-- The groups of a core that have a midge context. -/
def midgesOn (s : State) (c : Nat) : List Nat := ((s.resident c).filter fun g => g.midges != 0).map (·.uid)

/-- Midge contexts end one after another until admission no longer needs their slots (R344). -/
def endUntil (ok : State → Bool) : List Nat → State → State
  | [], s => s
  | u :: t, s => if ok s then s else endUntil ok t (endMidgeOf u s)

/-- The state in which a core can admit a record: as few midge contexts as need be have ended; none where that does not help (R332, R344). -/
def roomed (c : Nat) (r : Record) (s : State) : Option State :=
  let t := endUntil (fun s => canAdmit s c r) (midgesOn s c) s
  if canAdmit t c r then some t else none

/-- The unit that a CLUS record belongs to: its launch's records among the ready ones, in the order of their indices (R330). -/
def unitOf (d : Die) (r : Record) : List Record :=
  ((d.ready.toList.flatten).filter fun q => q.ctx == r.ctx && q.launch == r.launch).foldl
    (fun l q => (l.filter fun p => p.index < q.index) ++ q :: (l.filter fun p => q.index < p.index)) []

/-- Whether a CLUS record completes its unit: no record of its launch waits on its JOIN, and none became ready after it (R330). -/
def closesUnit (d : Die) (r : Record) : Bool :=
  let mate (q : Record) : Bool := q.ctx == r.ctx && q.launch == r.launch
  !d.waiting.any mate && (d.ready.toList.flatten.reverse.find? mate) == some r

/-- What stands in the queues of a die in the order of pops, priority by priority (R325): single records, and for each ready cluster launch the record
that completes it (R330). -/
def entriesOf (d : Die) : List Record := d.ready.toList.flatten.filter fun r => !r.clus || closesUnit d r

/-- The ready latency records of a die. -/
def latencyReady (d : Die) : List Record := (entriesOf d).filter (·.latency)

/-- The first record that a test holds for, of the lowest key. -/
def firstBy (key : Record → Nat) (l : List Record) : Option Record :=
  l.foldl (fun b r => match b with
    | none => some r
    | some q => if key r < key q then some r else some q) none

/-- The deadline of the job of a latency record. -/
def deadlineOf (s : State) (r : Record) : Nat := match jobOf s r.ctx r.launch with
  | some j => ((entryOf s r.ctx j.desc).map (·.deadline)).getD 0
  | none => 0

/-- The latency job that a record or a core's groups belong to, if any. -/
def jobName (s : State) (r : Record) : Option (Nat × DWord) := (jobOf s r.ctx r.launch).map fun j => (j.ctx, j.desc)
def jobOn (s : State) (c : Nat) : Option (Nat × DWord) := ((s.resident c).find? fun g => g.task.latency).bind fun g => jobName s g.task

/-- Whether a core may hold a group of a latency record (R335): a reserved core that holds no other job's, in cluster 0 for a cluster launch. -/
def takesLatency (s : State) (c : Nat) (r : Record) : Bool :=
  reservedCore s c && (!r.clus || decide (c % Config.coresPerDie < 12)) && match jobOn s c with
    | some j => jobName s r == some j
    | none => true

/-- The latency record that a reserved core takes (R335): of the job it holds, else of the job whose bound ends soonest. -/
def pickLatency (s : State) (c : Nat) : Option Record :=
  firstBy (deadlineOf s) ((latencyReady (s.die (dieOf c))).filter (takesLatency s c))

/-- The single bulk records of a distributor queue. -/
def bulkOf (l : List Record) : List Record := l.filter fun r => !r.latency && !r.clus

/-- The bulk records and cluster launches that wait on a die: in its distributor's queues and in its cores' local queues. -/
def waitingBulk (s : State) (die : Nat) : List Record :=
  (entriesOf (s.die die)).filter (fun r => !r.latency) ++ (s.cores.filter fun c => dieOf c.1 == die).flatMap fun c => c.2.local_

/-- The oldest record that has waited at a lower priority than p for longer than STARVE, if any (R327). -/
def starved (s : State) (die p : Nat) : Option Record :=
  let limit := bitsOf (s.die die).schedcfg.toNat 32 16 * 1500
  if limit = 0 then none
  else firstBy (·.since) ((waitingBulk s die).filter fun r => decide (p < r.prio) && decide (limit < s.clock - r.since))

/-- The head of the highest non-empty priority of a distributor, latency records apart (R325, R327). -/
def distributorHead (d : Die) : Option Record := ((entriesOf d).filter fun r => !r.latency).head?

/-- The order in which saved groups stand at the heads of the queues: by priority, latency jobs' first, and the one saved last first (R342). -/
def savedAhead (u v : Record) : Bool := if u.latency = v.latency then decide (u.queue < v.queue) else u.latency

/-- Whether a saved group stands before a bulk record: it is of a higher priority, or of the same one and came back to its head later (R342). -/
def Saved.before (v : Saved) (r : Record) : Bool := decide (v.group.task.prio < r.prio) || (v.group.task.prio == r.prio && decide (r.head < v.order))

/-- Whether a saved bulk group of the die that lies in no core's own area stands before a bulk record (R342). -/
def savedBefore (d : Die) (r : Record) : Bool := d.saved.any fun v => v.area.isNone && !v.group.task.latency && v.before r

/-- Whether a core's own area holds an image, which is restored before the core admits bulk records (R413). -/
def areaWaits (d : Die) (c : Nat) : Bool := d.saved.any fun v => v.area == some c

/-- Whether a core may take bulk work: a reserved core while no latency record is ready (R335), another once no latency group remains on it (R331). -/
def atBulk (s : State) (c : Nat) : Bool := if reservedCore s c then latencyReady (s.die (dieOf c)) == [] else (jobOn s c).isNone

/-- Whether a saved latency group stands before a latency record: its job's bound ends sooner, or the same and it came back to the head later (R335,
R342). -/
def Saved.sooner (s : State) (v : Saved) (r : Record) : Bool :=
  decide (deadlineOf s v.group.task < deadlineOf s r) || (deadlineOf s v.group.task == deadlineOf s r && decide (r.head < v.order))

/-- Whether a core may take its record of a cluster launch (R330, R331, R335, R413). -/
def clusterTakes (s : State) (c : Nat) (r : Record) : Bool :=
  if r.latency then takesLatency s c r else atBulk s c && !areaWaits (s.die (dieOf c)) c

/-- The records of a cluster launch with the cores of a core's cluster that they go to (R330). -/
def clusterCores (s : State) (c : Nat) (u : Record) : List (Record × Nat) :=
  (unitOf (s.die (dieOf c)) u).zipIdx.map fun e => (e.1, c / 12 * 12 + e.2)

/-- The state in which the cluster of a core can admit a ready cluster launch, if it can (R330, R332, R344). -/
def clusterRoomed (c : Nat) (u : Record) (s : State) : Option State :=
  let cores := clusterCores s c u
  if cores.all fun e => clusterTakes s e.2 e.1 then cores.foldl (fun t e => t.bind (roomed e.2 e.1)) (some s) else none

/-- What an idle slot pops (R327): the record that starved while the last pop passed it over, if it still waits; else the first of the core's local
queue; else the distributor's head. A ready cluster launch of a higher priority than the local queue holds, which no slot pops, comes first where the
cluster can admit it (R330). -/
def popBulk (s : State) (c : Nat) : Option Record :=
  let d := s.die (dieOf c)
  match d.owed.filter fun r => (waitingBulk s (dieOf c)).contains r with
  | some r => some r
  | none => match firstBy (·.prio) (s.core c).local_, distributorHead d with
    | some r, some u => if u.clus && decide (u.prio < r.prio) && (clusterRoomed c u s).isSome then some u else some r
    | some r, none => some r
    | none, h => h

/-- What a core admits next: a latency record on a reserved core, behind saved latency groups (R342), else a bulk record. -/
def admits (s : State) (c : Nat) : Option Record :=
  let d := s.die (dieOf c)
  if reservedCore s c ∧ latencyReady d ≠ [] then
    (pickLatency s c).filter fun r =>
      !d.saved.any fun v => v.area.isNone && v.group.task.latency && takesLatency s c v.group.task && v.sooner s r
  else if !atBulk s c || areaWaits d c then none
  else (popBulk s c).filter fun r => (s.core c).local_.contains r || !savedBefore d r

/-- A record leaves the queues of a core's die, and the die notes the record that it passed over, if one starves (R325, R327). -/
def takeRecord (c : Nat) (r : Record) (s : State) : State :=
  let die := dieOf c
  let s := { s with cores := s.cores.map fun (k : Nat × Core) => (k.1, { k.2 with local_ := k.2.local_.erase r }) }
  let s := s.modDie die fun d => d.leave r.queue fun l => l.erase r
  s.modDie die fun d => { d with owed := starved s die r.queue }

/-- A ready cluster launch is admitted on the cluster of a core, all its groups at once (R330). -/
def admitCluster (c : Nat) (u : Record) (s : State) : State :=
  match clusterRoomed c u s with
  | some t => (clusterCores s c u).foldl (fun s e => startGroup e.2 e.1 (takeRecord e.2 e.1 s)) t
  | none => s

/-- A core admits a record that it may take next. -/
def admitRecord (c : Nat) (r : Record) (s : State) : State :=
  match roomed c r s with
  | some t => startGroup c r (takeRecord c r t)
  | none => s

/-- A core admits a ready record, or its cluster a ready cluster launch (R330, R332). -/
def admitGroup (c : Nat) (s : State) : State :=
  match admits s c with
  | some r => if r.clus then admitCluster c r s else admitRecord c r s
  | none => s

/-- GROUP_ADMISSION (R332). -/
def execGroupAdmission (core : Nat) (s : State) : Outcome := next (admitGroup core) s

/-! ## Distributors -/

/-- The core with the shallowest local queue of those that need a record (R327). -/
def needyCore (s : State) (die : Nat) : Option Nat :=
  let depth (c : Nat) : Nat := (s.core c).local_.length
  ((dieCores die).filter fun c => (s.core c).open_ && decide (depth c < 4)).foldl (fun b c => match b with
    | none => some c
    | some q => if depth c < depth q then some c else some q) none

/-- DISTRIBUTOR_REFILL (R327): a cluster launch at the head enters no local queue (R330). -/
def refill (die : Nat) (s : State) : State :=
  match needyCore s die, distributorHead (s.die die) with
  | some c, some r =>
    if r.clus || savedBefore (s.die die) r then s
    else (s.modDie die fun d => d.leave r.prio fun l => l.erase r).modCore c fun k => { k with local_ := k.local_ ++ [r] }
  | _, _ => s

/-- DISTRIBUTOR_REFILL (R327). -/
def execDistributorRefill (die : Nat) (s : State) : Outcome := next (refill die) s

/-- Whether a core has an idle group slot with its local queue empty (R328). -/
def idleCore (s : State) (c : Nat) : Bool :=
  (s.core c).open_ && (s.core c).local_.isEmpty && decide ((s.resident c).length < Config.groupsPerCore)

/-- STEAL_REQUEST (R328): a distributor with nothing in its queues, no saved group at their heads either (R342), asks the other die. -/
def execStealRequest (die : Nat) (s : State) : Outcome :=
  next (fun s =>
    let d := s.die die
    if d.ready.toList.flatten = [] ∧ (d.saved.all fun v => v.area.isSome) = true ∧ testBit d.schedcfg.toNat 16 = true ∧ d.stealing = false ∧ d.stealAfter ≤ s.clock ∧
        (dieCores die).any (idleCore s) = true then s.modDie die fun d => { d with stealing := true }
    else s) s

/-- STEAL_ANSWER (R328): this die gives half of the number that its highest non-empty priority holds, at most 64 records, from the tail, latency and
cluster records apart; an answer of none holds the next request for 2 µs. -/
def execStealAnswer (die : Nat) (s : State) : Outcome :=
  next (fun s =>
    let other := 1 - die
    if !(s.die other).stealing then s
    else
      let l := ((s.die die).ready.toList.find? fun l => l != []).getD []
      let b := bulkOf l
      let gone := b.drop (b.length - min 64 ((l.length + 1) / 2))
      if gone = [] then s.modDie other fun d => { d with stealing := false, stealAfter := s.clock + 3000 }
      else
        let s := s.modDie die fun d => gone.foldl (fun d r => d.leave r.prio fun l => l.erase r) d
        s.modDie other fun d => { gone.foldl (fun d r => pushTail { r with head := 0 } d) d with stealing := false }) s

/-- The record that a push takes (R329): of the lowest priority present, the last in its queue. -/
def tailRecord (l : List Record) : Option Record :=
  l.foldl (fun b r => match b with
    | none => some r
    | some q => if q.prio ≤ r.prio then some r else some q) none

/-- The records that a push of n takes (R329). -/
def tailRecords : Nat → List Record → List Record
  | 0, _ => []
  | n + 1, l => match tailRecord l with
    | none => []
    | some r => r :: tailRecords n (l.erase r)

/-- A push of n records from one core's local queue to another's, no more than it has free; they keep their order (R329). -/
def pushRecords (a b n : Nat) (s : State) : State :=
  let l := (s.core a).local_
  let gone := tailRecords (min n (32 - (s.core b).local_.length)) l
  (s.modCore a fun k => { k with local_ := l.filter fun r => !gone.contains r }).modCore b fun k => { k with local_ := k.local_ ++ l.filter fun r => gone.contains r }

/-- The core of a cluster with the extreme depth, ties to the lower core. -/
def extremeCore (depth : Nat → Nat) (deep : Bool) (base : Nat) : Nat :=
  ((List.range 12).map fun i => base + i).foldl (fun b c => if deep then (if depth b < depth c then c else b) else (if depth c < depth b then c else b)) base

/-- QUEUE_BALANCING (R329): every 3,000 ticks, from depths read at one instant. DESIGN CHOICE (log entry 99): the pairs of cores push in ascending order,
then the pairs of clusters. -/
def balance (die : Nat) (s : State) : State :=
  if s.clock < (s.die die).balanced + 3000 then s
  else
    let thr := bitsOf (s.die die).schedcfg.toNat 0 8
    let depth (c : Nat) : Nat := (s.core c).local_.length
    let base := die * Config.coresPerDie
    let cluster (k : Nat) : Nat := ((List.range 12).map fun i => depth (base + 12 * k + i)).sum
    let push (da db a b : Nat) (s : State) : State :=
      if thr < da - db then pushRecords a b ((da - db) / 2) s else if thr < db - da then pushRecords b a ((db - da) / 2) s else s
    let pairs := (List.range 12).flatMap fun k => (List.range 12).map fun i => (base + 12 * k + i, base + 12 * k + (i + 1) % 12)
    let t := s.modDie die fun d => { d with balanced := s.clock }
    let t := pairs.foldl (fun t p => push (depth p.1) (depth p.2) p.1 p.2 t) t
    (List.range 12).foldl (fun t k =>
      let a := cluster k
      let j := (k + 1) % 12
      let b := cluster j
      let core (deep : Bool) (k : Nat) : Nat := extremeCore depth deep (base + 12 * k)
      if thr < a - b then pushRecords (core true k) (core false j) ((a - b) / 2) t
      else if thr < b - a then pushRecords (core true j) (core false k) ((b - a) / 2) t else t) t

/-- QUEUE_BALANCING (R329). -/
def execQueueBalancing (die : Nat) (s : State) : Outcome := next (balance die) s

/-! ## The end of a group -/

/-- Whether every wave of the issuing group has ended; a midge context does not count (R27, R343). -/
def groupDone (s : State) : Bool := s.grp.live && s.grp.all.all fun w => w.mode == .midge || w.ended

/-- AVG of a kernel after a group that ended normally (R341). -/
def averaged (avg : Option Nat) (t : Nat) : Option Nat := match avg with
  | none => some t
  | some a => some (if a ≤ t then a + (t - a) / 8 else a - (a - t) / 8)

/-- f applied to a wave of the issuing group as the issuing wave. -/
def onWave (uid : Nat) (f : State → State) (s : State) : State := f (s.modG fun g => g.focus uid)

/-- Barriers and merges that waited for a group that has ended are evaluated again (R206, R207, R228). -/
def settlePeers (g : Group) (s : State) : State :=
  let s := settleMerges s
  match s.groups.find? fun h => h.peerOf g && h.uid != g.uid with
  | some h => onGroup h.uid settleBarC s
  | none => s

/-- Whether the epilogue rows and non-temporal stores of the issuing group must wait before they perform (R353, R395). -/
def groupHeld (s : State) : State × Bool :=
  blockedAt (s.grp.epilogues.flatMap (rowWords s s.grp) ++ s.grp.all.flatMap fun w => w.nt.flatMap fun n => wordsOf n.addr n.data.length) s

/-- The end of the issuing group (R274): its waves drain and release, PARENT and COUNT fall, and its resources return. A stopped
group decrements no PARENT (R275); a flushed one leaves COUNT alone and its record returns to the head of its priority (R342); one
of a discarded node leaves both (R417). -/
def endGroup (s : State) : State :=
  if !groupDone s then s
  else
    let g := s.grp
    let (s, held) := if g.stop.isNone then publicationWaits g.task.ctx g.task.launch s else (s, false)
    let far := g.all.any fun w => s.remotes.any fun r => r.write && r.wave == w.uid
    let (s, rows) := groupHeld s
    if held || rows || far then s
    else
      let s := g.all.foldl (fun s w => onWave w.uid (fun s => releaseWave (drainNt s)) s) s
      let ctx := g.task.ctx
      let launch := g.task.launch
      let s := match g.stop with
        | none =>
          let t := s.clock - g.started
          let upd (k : Kernel) : Kernel := if k.id = g.kernel then { k with avg := averaged k.avg t } else k
          let s := s.modDie (dieOf g.core) fun d => { d with kernels := d.kernels.map upd }
          if g.task.parent = 0 then s
          else match decJoin ctx g.task.parent s with
            | some s => s
            | none => writeStatus ctx launch 4 s
        | some 256 => (s.modDie (dieOf g.core) (pushHead { g.task with since := s.clock, head := s.nextUid })).fresh
        | some st => if st = 0 ∨ 256 ≤ st then s else writeStatus ctx launch st s
      let s := if (g.stop.getD 0) < 256 then countDown ctx launch 1 s else s
      settlePeers g (dropFocus s)

/-- GROUP_END (R274): of the issuing group. -/
def execGroupEnd (s : State) : Outcome := next endGroup s

/-! ## Taking a core back -/

/-- A group's estimated remaining time; none where the kernel has no average (R341). -/
def remaining (s : State) (g : Group) : Option Nat :=
  match kernelOf s (dieOf g.core) g.task.ctx g.task.code with
  | some k => k.avg.map fun a => a - (s.clock - g.started)
  | none => none

/-- Whether the estimate is at most 3,000 ticks. -/
def drains (s : State) (g : Group) : Bool := match remaining s g with
  | some t => decide (t ≤ 3000)
  | none => false

/-- A group is to drain, or to be saved (R340); from a reserved core for a latency record it is saved into the core's own area (R413). -/
def beginDrain (area : Bool) (uid : Nat) (s : State) : State :=
  onGroup uid (fun s => s.modG fun g => if g.drainBy.isSome || g.saving.isSome then g else { g with drainBy := some (s.clock + 3000, area) }) s
def beginSave (area : Bool) (uid : Nat) (s : State) : State :=
  onGroup uid (fun s => s.modG fun g =>
    let own := area && reservedCore s g.core
    if g.saving.isSome && !own then g else { g with saving := some own, drainBy := none }) s

/-- The groups of a cluster launch, or the group alone. -/
def together (s : State) (g : Group) : List Group :=
  if g.task.clus then s.groups.filter fun h => h.task.clus && h.task.ctx == g.task.ctx && h.task.launch == g.task.launch else [g]

/-- A group's slot and resources are taken back, in the mode of R340. -/
def takeBack (area : Bool) (uid : Nat) (s : State) : State :=
  match s.groups.find? fun g => g.uid == uid with
  | none => s
  | some g =>
    if g.stop.isSome ∨ g.drainBy.isSome then s
    else if g.saving.isSome then (if area then beginSave area uid s else s)
    else
      let gs := together s g
      if gs.all (drains s) then gs.foldl (fun s h => beginDrain area h.uid s) s
      else if !g.task.clus && g.task.idem && decide (s.clock - g.started ≤ 18000) then onGroup uid (stopGroup 256) s
      else gs.foldl (fun s h => beginSave area h.uid s) s

/-- TAKE_BACK_REQUEST (R340). -/
def execTakeBackRequest (uid : Nat) (s : State) : Outcome := next (takeBack false uid) s

/-- DRAIN_TIMEOUT (R340): a group that has not ended 3,000 ticks after the decision is saved. -/
def execDrainTimeout (uid : Nat) (s : State) : Outcome :=
  next (fun s => match s.groups.find? fun g => g.uid == uid with
    | some g => match g.drainBy with
      | some (t, area) => if t ≤ s.clock then beginSave area uid s else s
      | none => s
    | none => s) s

/-- The groups of the core that runs only bulk groups, the fewest of them, are taken back, ties going to the core named first (R335). -/
def takeBackFewest (cores : List Nat) (s : State) : State :=
  let bulk := cores.filter fun c => (s.resident c) != [] && (s.resident c).all fun g => !g.task.latency
  let pick := bulk.foldl (fun (b : Option Nat) c => match b with
    | none => some c
    | some q => if (s.resident c).length < (s.resident q).length then some c else some q) none
  match pick with
  | some c => ((s.resident c).map (·.uid)).foldl (fun s u => takeBack true u s) s
  | none => s

/-- The cores of cluster 0 that cannot admit their record of a latency job's ready cluster launch (R335). -/
def clusterShort (s : State) (die : Nat) (r : Record) : List Nat :=
  ((unitOf (s.die die) r).zipIdx.map fun e => (e.1, die * Config.coresPerDie + e.2)).filterMap fun e =>
    if takesLatency s e.2 e.1 && (roomed e.2 e.1 s).isSome then none else some e.2

/-- LATENCY_TAKE_BACK (R335): with a latency record ready and no reserved core able to admit it, a reserved core that runs only bulk groups is taken
back; for a cluster launch, a core of cluster 0 that cannot admit its record. -/
def latencyTakeBack (die : Nat) (s : State) : State :=
  let cores := (dieCores die).filter (reservedCore s)
  let able (r : Record) : Bool :=
    if r.clus then clusterShort s die r == [] else cores.any fun c => takesLatency s c r && (roomed c r s).isSome
  let under (c : Nat) : Bool := (s.resident c).any fun g => (g.drainBy.map (·.2)) == some true || g.saving == some true || g.stop == some 256
  if cores.any under = true then s
  else match (latencyReady (s.die die)).find? fun r => !able r with
    | some r => takeBackFewest (if r.clus then (clusterShort s die r).filter (reservedCore s) else cores) s
    | none => s

/-- LATENCY_TAKE_BACK (R335). -/
def execLatencyTakeBack (die : Nat) (s : State) : Outcome := next (latencyTakeBack die) s

/-- Whether a group is held in acquire, or holds a wave at a barrier or merge behind a group that is (R333). -/
def behindAcquire (s : State) (g : Group) : Bool :=
  g.acquire.isSome ||
    ((g.all.any fun w => w.hold == some .barC || w.pending.any fun p => p.on != .time) &&
      s.groups.any fun h => h.peerOf g && h.acquire.isSome)

/-- ACQUIRE_DEADLOCK_SAVE (R333): the group whose acquire was requested last is saved, with the other groups of a cluster launch (R412). -/
def deadlockSave (c : Nat) (s : State) : State :=
  let held := heldAcquires s c
  if held = [] ∨ (grantable ((s.resident c).map (·.holds)) held).isSome ∨ !(s.resident c).all (behindAcquire s) ∨
      (s.resident c).any (fun g => g.saving.isSome || g.stop.isSome) = true then s
  else match held.getLast? with
    | some g => (together s g).foldl (fun s h => beginSave false h.uid s) s
    | none => s

/-- ACQUIRE_DEADLOCK_SAVE (R333). -/
def execAcquireDeadlockSave (core : Nat) (s : State) : Outcome := next (deadlockSave core) s

/-! ## Saves and restores -/

/-- Every pending instruction of the issuing wave completes, merges apart (R412). -/
def completeAll : Nat → State → State
  | 0, s => s
  | fuel + 1, s =>
    match s.w.pending.find? fun p => p.on == .time with
    | some p => completeAll fuel (completePending p s)
    | none => s

/-- Whether a run that was chosen and waits has done part of its work: sent accesses to peers, pushed words, or begun a load that waits for memory. -/
def begunRun (s : State) (w : Wave) (c : Issue) : Bool :=
  (s.remotes.any fun r => !r.write && r.wave == w.uid) || (w.pushed.1 == c.id && w.pushed.2 != []) || w.loading.1 == c.id

/-- A wave as its image holds it: a run that was chosen and waits, and has begun nothing, is given back with what its choice did to COUNT, the pointer
and the yield mask, so that the wave stands at the boundary before it. One that has begun an access stays pending in the image (R412). -/
def atBoundary (s : State) (w : Wave) : Wave := match w.chosen with
  | some c => if begunRun s w c then w else { w with chosen := none, count := c.count, rotation := c.rotation, yieldMask := (w.yieldMask ||| c.cleared) &&& w.ready }
  | none => w

/-- A saved group as its image holds it: the time of residence so far, no copy's engine waiting on a record (R412). -/
def imageOf (s : State) (g : Group) : Group :=
  { (g.mapWaves (atBoundary s)) with
    started := s.clock - g.started, drainBy := none, saving := none, copies := g.copies.map fun d => { d with waiting := false, walked := none } }

/-- The issuing group is saved (R412): its midge context ends, what is pending completes, non-temporal stores perform, its image is written into the
pool, and its resources return. A fault that ends the group meanwhile ends the save; a wave that owes a replay first issues it (R411), and one that waits for
a migration first has its code (R395). -/
def saveGroup (s : State) : State :=
  match s.grp.saving with
  | none => s
  | some own =>
    let area := if own then some s.coreNo else none
    if s.grp.stop.isSome ∨ s.grp.all.any (fun w => w.replaying || w.hold == some .migrate) ∨ (roomFor s area (imageSize s.grp)).isNone then s
    else
      let s := endMidgeOf s.grp.uid s
      match groupHeld s with
      | (s, true) => s
      | (s, false) =>
      let s := s.grp.all.foldl (fun s w => onWave w.uid (fun s => drainNt (completeAll w.pending.length s)) s) s
      match roomFor s area (imageSize s.grp) with
      | none => s
      | some base =>
        if s.grp.stop.isSome ∨ groupDone s then s
        else
          let g := imageOf s s.grp
          let bits := (s.core g.core).tagmap &&& g.tags
          let v : Saved := ⟨g, area, base, imageSize g, bits, s.nextUid⟩
          let s := { s.fresh with waits := s.waits.filter fun w => w.engine != 0 || w.item != g.uid }
          (dropFocus (s.poke base (imageBytes bits g))).modDie (dieOf g.core) fun d => { d with saved := v :: d.saved }

/-- GROUP_SAVE (R412). -/
def execGroupSave (uid : Nat) (s : State) : Outcome :=
  next (fun s => match s.groups.find? fun g => g.uid == uid with
    | some g => if g.saving.isSome then saveGroup (s.focus uid) else s
    | none => s) s

/-- Whether an access of a saved group to host or peer memory is still under way: one that waits for its answer, or a run that stays pending in the image
(R412, R413). -/
def farPending (s : State) (g : Group) : Bool :=
  g.all.any fun w => w.chosen.isSome || s.remotes.any fun r => !r.write && r.wave == w.uid && r.reply.isNone

/-- Whether a saved group can be restored on a core (R413), once its accesses to host and peer memory are done: a cluster launch's only on the same cluster at the
same %core (R342). -/
def canRestore (s : State) (c : Nat) (v : Saved) : Bool :=
  !farPending s v.group && (s.core c).open_ && (tagsTaken s c &&& v.group.tags) == 0 && hasRoom s c v.group.allot v.group.task.waves && tableFree s c v.group.task.ctx v.group.task.code &&
    (v.area.isNone || v.area == some c) && (!v.group.task.clus || c == v.group.core)

/-- A group's waves after a restore: the release of every mask is evaluated, and a held acquire is requested again (R278, R413). -/
def resumed (c slot clock order : Nat) (g : Group) : Group :=
  let again (a : Acquire) : Acquire := { a with order := order }
  { (g.mapWaves Wave.releaseAll) with core := c, slot := slot, started := clock - g.started, acquire := g.acquire.map again }

/-- A saved group is loaded from its image onto a core (R413). -/
def restoreOn (c : Nat) (v : Saved) (s : State) : State :=
  let g := resumed c (lowestSlot s c) s.clock s.nextUid (groupFrom v.bits (s.bytes v.base v.size) v.group)
  let cut (d : Die) : Die := { d with saved := d.saved.erase v }
  let s := (s.modDie 0 cut).modDie 1 cut
  addGroup g ((s.modCore c fun k => { k with tagmap := k.tagmap &&& ~~~g.tags ||| v.bits }).fresh)

/-- Whether the i-th saved group of a core's die is the one that the core takes: from the core's own area once it is back at bulk work with no latency
group (R331, R413); else with nothing in its local queue, nothing of a higher priority in the distributor, and no saved group ahead that it could
take (R327, R335, R342). -/
def turnOf (s : State) (c i : Nat) (v : Saved) : Bool :=
  let d := s.die (dieOf c)
  let r := v.group.task
  let ahead := d.saved.zipIdx.any fun u => u.1.area.isNone && (savedAhead u.1.group.task r || (!savedAhead r u.1.group.task && decide (u.2 < i))) &&
    !(u.1.group.task.clus && u.1.group.task.ctx == r.ctx && u.1.group.task.launch == r.launch) && canRestore s c u.1
  if v.area.isSome then atBulk s c && (jobOn s c).isNone
  else if r.latency then takesLatency s c r && !ahead && (pickLatency s c).all (v.sooner s)
  else (s.core c).local_.isEmpty && atBulk s c && !ahead && (distributorHead d).all v.before

/-- A restored group's barriers and merges are evaluated again: participants may have ended meanwhile (R207, R228). -/
def resettle (uid : Nat) (s : State) : State := settleMerges (onGroup uid settleBarC s)

/-- The i-th saved group of a core's die is restored there; the groups of a cluster launch together, on their cluster (R342, R413). -/
def restoreGroup (c i : Nat) (s : State) : State :=
  match (s.die (dieOf c)).saved[i]? with
  | none => s
  | some v =>
    if !v.group.task.clus then
      if canRestore s c v && turnOf s c i v then resettle v.group.uid (restoreOn c v s) else s
    else
      let mate (r : Record) : Bool := r.clus && r.ctx == v.group.task.ctx && r.launch == v.group.task.launch
      let vs := (s.die (dieOf c)).saved.filter fun u => mate u.group.task
      if c / 12 ≠ v.group.core / 12 ∨ (s.groups.any fun g => g.saving.isSome && mate g.task) ∨
          !vs.all (fun u => canRestore s u.group.core u && turnOf s u.group.core i u) then s
      else vs.foldl (fun s u => resettle u.group.uid s) (vs.foldl (fun s u => restoreOn u.group.core u s) s)

/-- GROUP_RESTORE (R413). -/
def execGroupRestore (core i : Nat) (s : State) : Outcome := next (restoreGroup core i) s

/-! ## Midge contexts -/

/-- The wave of a group that has had a global load pending, if any: one that has not completed, or one with lookahead 0 that waits for memory (R343). No step
counts 512 cycles, since no latency is fixed (R38). -/
def stalledWave (g : Group) : Option Wave :=
  g.all.find? fun w => w.mode == .normal &&
    ((w.pending.any fun p => p.load && p.on == .time) || (w.chosen.any fun c => c.id == w.loading.1))

/-- A midge context's wave (R343). -/
def midgeWave (uid slot : Nat) (s : Vector Word 128) (target : BitVec 56) (w : Wave) : Wave :=
  let m := w.lanesIn fun x => match x with
    | .ready => true
    | .waiting _ => true
    | .parked => false
    | .exited => false
    | .inactive => false
  { Wave.blank with
    uid := uid, idx := w.idx, slot := slot, mode := .midge, v := w.v, p := w.p, own := some s
    st := Lanes.ofFn fun l => if bit m l then .ready else .inactive
    pc := Lanes.ofFn fun l => if bit m l then target else 0 }

/-- Whether no record waits for admission to a core (R343). -/
def noneWaits (s : State) (c : Nat) : Bool := (s.core c).local_.isEmpty && (s.die (dieOf c)).ready.toList.flatten == []

/-- MIDGE_START (R343). -/
def startMidge (uid : Nat) (s : State) : State :=
  match s.groups.find? fun g => g.uid == uid with
  | none => s
  | some g =>
    let d := s.die (dieOf g.core)
    match kernelOf s (dieOf g.core) g.task.ctx g.task.code, stalledWave g with
    | some k, some w =>
      let room := fitsBeside [0, 1, vregsOf g.allot, 0, 0, 0, 0] ((s.resident g.core).map (·.holds))
      if !testBit d.schedcfg.toNat 17 || k.sliceOff == 0 || g.midges != 0 || !room || !noneWaits s g.core || g.saving.isSome then s
      else
        let target := (g.task.code + BitVec.ofNat 64 (2 * k.sliceOff)).setWidth 56
        (onGroup uid (fun s => s.modG fun g => { g with waves := g.waves ++ [midgeWave s.nextUid ((freeSlots s g.core).getD 0 0) g.s target w] }) s).fresh
    | _, _ => s

/-- MIDGE_START (R343). -/
def execMidgeStart (uid : Nat) (s : State) : Outcome := next (startMidge uid) s

/-- MIDGE_END (R344): all its lanes have exited, or 4,096 issues have passed, or admission needs its slot. -/
def endMidge (uid : Nat) (s : State) : State :=
  match s.groups.find? fun g => g.uid == uid with
  | none => s
  | some g =>
    let spent := g.all.any fun w => w.mode == .midge && (w.ended || decide (4096 ≤ w.issues))
    let needed := match (admits s g.core).bind fun r => roomed g.core r s with
      | some t => !(midgesOn t g.core).contains uid
      | none => false
    if spent || needed then endMidgeOf uid s else s

/-- MIDGE_END (R344). -/
def execMidgeEnd (uid : Nat) (s : State) : Outcome := next (endMidge uid) s

/-! ## Latency jobs in operation -/

/-- Whether a job's COUNT is above 0. -/
def jobOpen (s : State) (j : Job) : Bool := match ownedOf s j.ctx j.desc with
  | some o => o.running && o.count != 0 && !o.cancelled
  | none => false

/-- The scheduler cancels an accepted job, and its entry is freed (R338). -/
def cancelJob (die : Nat) (j : Job) (status : Nat) (s : State) : State :=
  let s := cancelTree j.ctx j.desc status s
  s.modDie die fun d => { d with jobs := d.jobs.filter fun k => k != j }

/-- BUDGET_EXHAUSTED (R338). -/
def execBudgetExhausted (die i : Nat) (s : State) : Outcome :=
  next (fun s => match (s.die die).jobs[i]? with
    | some j => if j.budget = 0 ∧ jobOpen s j then cancelJob die j 2 s else s
    | none => s) s

/-- DEADLINE_EXPIRY (R338, R339). -/
def execDeadlineExpiry (die i : Nat) (s : State) : Outcome :=
  next (fun s => match (s.die die).jobs[i]? with
    | some j => if j.deadline ≤ s.clock ∧ jobOpen s j then cancelJob die j (if j.floorLost then 5 else 2) s else s
    | none => s) s

/-- FLOOR of a die (R331). -/
def setFloor (b : Bool) (d : Die) : Die :=
  { d with schedcfg := if b then d.schedcfg ||| 0x40000 else d.schedcfg &&& ~~~0x40000 }

/-- FLOOR_LOST (R339): every accepted job of the die has met the lost floor. -/
def execFloorLost (die : Nat) (s : State) : Outcome :=
  next (fun s => s.modDie die fun d =>
    { (setFloor false d) with floorSince := s.clock, jobs := d.jobs.map fun j => { j with floorLost := true } }) s

/-- FLOOR_REGAINED (R339): 3,000 ticks after the floor was last lost. -/
def execFloorRegained (die : Nat) (s : State) : Outcome :=
  next (fun s => if (s.die die).floorSince + 3000 ≤ s.clock then s.modDie die (setFloor true) else s) s

/-- The charge of arithmetic-clock cycles (R5, R337): those of each core on which at least one group of the job is resident. -/
def chargeJobs (cycles : Nat → Nat) (s : State) : State :=
  let cores (j : Job) : List Nat := (((s.groups.filter fun g => g.task.latency &&
    ((jobOf s g.task.ctx g.task.launch).map fun o => (o.ctx, o.desc)) == some (j.ctx, j.desc)).map (·.core)).dedup)
  let charge (d : Die) : Die := { d with jobs := d.jobs.map fun j => { j with budget := j.budget - ((cores j).map cycles).sum } }
  (s.modDie 0 charge).modDie 1 charge

/-! ## Halted and sleeping waves -/

/-- The lanes that a halt parked become ready at their entries (R282, R451). -/
def Wave.resume (w : Wave) : Wave :=
  let m := w.halted
  let w := (w.setState m .ready).setPc m fun l => entryPc w.recs[l].entry
  { (w.setGuard (m &&& ~~~w.handlerLanes) fun l => w.recs[l].guard) with halted := 0 }

/-- HALT_RESUME (R282, R451): of a wave. -/
def execHaltResume (uid : Nat) (s : State) : Outcome :=
  next (fun s => s.modWave uid fun w => if w.halted = 0 then w else w.resume) s

/-- HALTED_GROUP_CANCEL (R282, R451): the group of a halted wave stops as a cancelled one does. -/
def execHaltedGroupCancel (uid : Nat) (s : State) : Outcome :=
  next (fun s => match s.groups.find? fun g => g.all.any fun w => w.uid == uid && w.halted != 0 with
    | some g => onGroup g.uid (stopGroup 0) s
    | none => s) s

/-- SLEEP_EXPIRY (R282): of the issuing wave. -/
def execSleepExpiry (s : State) : Outcome :=
  next (fun s => match s.w.hold with
    | some (.sleep t) => if t ≤ s.clock then s.modW fun w => { w with hold := none } else s
    | _ => s) s

end Sys2Proof.Machine
end

