-- ==== Sys2Proof/Machine/Coherence.lean ====
section
/-! DEFINITION. Coherence beyond the lanes: revocations and replacement (R353, R355), guest copies and the directory (R356 to R359),
fan-outs and their answers (R358), fencing and rejoining (R361, R362, R364), COHCFG (R363), source probes (R372) and
materialisation on the base die (R374). -/

namespace Sys2Proof.Machine

/-! ## Ownership -/

/-- OWNERSHIP_REVOCATION (R293, R353): the core's copy of the word becomes unowned and stays valid, and the registry names no
owner. -/
def execOwnershipRevocation (core word : Nat) (s : State) : Outcome :=
  next (fun s =>
    if ownerOf s word = some core then revoke word s
    else s.modCore core fun k => k.mapWord word fun w => { w with owned := false }) s

/-- L2_REPLACEMENT (R352, R355): the owners of the line's words are revoked; a pinned line is not replaced. -/
def execL2Replacement (line : Nat) (s : State) : Outcome :=
  next (fun s => match pull (fun (e : L2Line) => e.line == line && !e.guest) s.l2 with
    | some (v, t) => if pinned s line then s else { replaceWay v s with l2 := t }
    | none => s) s

/-! ## Guest copies -/

/-- Whether a line may be held as a guest copy (R356): no page of it is typed non-coherent. -/
def grantable_ (s : State) (line : Nat) : Bool :=
  guestable s line && !((mappings s).any fun m => m.2.2.nc && inRange m.2.2.pa m.2.2.size (line * 256))

/-- A region entry begins to be evicted (R357): every line of the region gets a fan-out to the entry's sharers, after the one that is outstanding
(R360); the entry is freed once they have completed. -/
def evictRegion (r : Region) (s : State) : State :=
  let s := (List.range 16).foldl (fun s i => dropGuest (r.region * 16 + i) (clearSharers ((r.region * 16 + i) * 256) 1 s))
    { s with regions := s.regions.map fun q => if q.region = r.region then { q with evicting := true } else q }
  let fan (s : State) (i : Nat) : State :=
    let a := (r.region * 16 + i) * 256
    if outside (sharersOf s a) = 0 then s
    else { s with fanOuts := s.fanOuts ++ [⟨lineOf a, 0, s.clock, true, false, 15, a, 0, 0, [], 0, cohOf s a⟩] }
  freeEvicted (pumpFans ((List.range 16).foldl fan s))

/-- The region entries of a slice, the least recently used first. -/
def regionsAt (s : State) (slice : Nat) : List Region := s.regions.filter fun r => sliceOf (r.region * 4096) == slice

/-- A sharer is recorded (R357): in the region entry, which is created if it is absent, and in its line vector. The flag says that it must wait for an
entry under eviction. -/
def addSharer (agent line : Nat) (s : State) : State × Bool :=
  let a := line * 256
  let bit_ : BitVec 14 := BitVec.twoPow 14 agent
  let add (s : State) : State × Bool := ({ s with regions := s.regions ++ [⟨dirRegion a, bit_, 0, none, cohOf s a, false⟩] }, false)
  match s.regions.find? fun r => r.region == dirRegion a with
  | some r =>
    if r.evicting then (s, true)
    else
      let upd (q : Region) : Region :=
        if q.region = r.region then
          match q.lines with
          | some ls => { q with lines := some (modAt ls (dirLine a) fun x => x ||| bit_) }
          | none => { q with vec := q.vec ||| bit_ }
        else q
      (useRegion a { s with regions := s.regions.map upd }, false)
  | none =>
    if (regionsAt s (sliceOf a)).length < Config.regionsPerSlice then add s
    else
      let s := match (regionsAt s (sliceOf a)).find? fun r => !r.evicting with
        | some v => if (regionsAt s (sliceOf a)).any (·.evicting) then s else evictRegion v s
        | none => s
      if (regionsAt s (sliceOf a)).length < Config.regionsPerSlice then add s else (s, true)

/-- Whether a fan-out of a line keeps a fill waiting (R358, R360): until its write has performed. One that is complete and whose write no wave and no
engine is about to make is dropped. -/
def fanHolds (s : State) (line : Nat) : Bool :=
  let coming := (s.groups.any fun g => g.all.any fun w => w.chosen.isSome) || s.pokes != [] || s.fabrics != [] || s.fabIn != []
  s.fanOuts.any fun f => f.line == line && (coming || f.agents != 0 || f.data != [] || !f.begun)

/-- A fill is served, or must wait: a guest copy is granted where it may be held (R356), and a peer's read of a whole line is answered (R432). -/
def serveFill (f : Fill) (s : State) : State × Bool :=
  let line := lineOf f.addr
  if fenced s f.agent then (if f.len = 0 then s else answerAgent f.agent f.tag 3 [] s, false)
  else if fanHolds s line then (s, true)
  else
    let (s, bs, bad) := if f.len = 0 then (s, [], false) else homeRead (agentOf f.agent) f.addr f.len s
    let s := { s with fanOuts := s.fanOuts.filter fun e => e.line != line }
    let (s, wait) := if grantable_ s line && !bad then addSharer f.agent line s else (s, false)
    let s := if f.agent = 0 ∧ !wait ∧ (sharersOf s f.addr).getLsbD 0 then useWay ⟨line, true, false, []⟩ s else s
    if wait then (s, true)
    else (if f.len = 0 then s else answerAgent f.agent f.tag (if bad then 2 else 0) (if bad then [] else bs) s, false)

/-- A fill request arrives; what must wait is held. -/
def requestFill (f : Fill) (s : State) : State :=
  let (s, wait) := serveFill f s
  if wait then { s with fills := s.fills ++ [f] } else s

/-- The fills that wait are looked at again. -/
def retryFills (s : State) : State := s.fills.foldl (fun s f => requestFill f s) { s with fills := [] }

/-- GUEST_FILL (R356). -/
def execGuestFill (agent line : Nat) (s : State) : Outcome := next (fun s => if 14 ≤ agent then s else requestFill ⟨agent, line * 256, 0, 0⟩ s) s

/-! ## Fan-outs -/

/-- Every answer of a fan-out is here: with no line block, a fan-out of ABSENT answers alone counts as waste (R358). -/
def fanAnswered (f : FanOut) (s : State) : State := if f.absent then wasted f.cfg (f.line * 256) s else s

/-- An answer of an agent to the fan-out of a line (R358). -/
def answerFan (agent line : Nat) (present : Bool) (s : State) : State :=
  let bit_ : BitVec 14 := BitVec.twoPow 14 agent
  match s.fanOuts.find? fun f => f.line == line && f.begun && f.agents &&& bit_ != 0 with
  | none => s
  | some f =>
    let g : FanOut := { f with agents := f.agents &&& ~~~bit_, absent := f.absent && !present }
    let s := clearSharers (line * 256) bit_ { s with fanOuts := s.fanOuts.map fun e => if e = f then g else e }
    pumpFans (if g.agents = 0 then fanAnswered g s else s)

/-- INVALIDATION_ANSWER (R358). -/
def execInvalidationAnswer (agent line : Nat) (present : Bool) (s : State) : Outcome :=
  next (fun s => answerFan agent line present (if 2 ≤ agent then arrive (agent - 2) 2 1 s else s)) s

/-- DIRECTORY_FAN_OUT (R353, R358): a write of the host (agent 1), of a peer (2 and above) or of an engine (0) reaches the home slice
and performs once its line's sharers have answered; a fenced agent's is refused (R361). -/
def execDirectoryFanOut (agent addr : Nat) (data : List (BitVec 8)) (s : State) : Outcome :=
  next (fun s =>
    if data = [] ∨ 2 ^ 48 ≤ addr + data.length then s
    else if fenced s agent then answerAgent agent 0 3 [] s
    else agentWrite agent 0 addr 0 data s) s

/-- INVALIDATION (R307, R356, R358, R432): the proxy slice drops its copy of a line of the agent's memory and answers PRESENT or ABSENT, and gives the host
the line's data where it held it exclusive (R428). A link of 12 or above stands for the host. -/
def execInvalidation (link line : Nat) (s : State) : Outcome :=
  next (fun s =>
    let mine := (if link < 12 then 2 + link else 1) * 2 ^ 40 + line
    let present := s.proxies.contains mine
    let own := s.exclusive.contains mine
    let s := dropLine mine (if link < 12 then arrive link 2 1 s else s)
    if link < 12 then s.send (.flit link 0x06 [line, if present then 1 else 0] [])
    else s.send (.cxl mine 3 (if own then s.bytes (mine * 256) 256 else []))) s

/-! ## Fencing -/

/-- A containment entry (R364). -/
def logContainment (line agent reason : Nat) (s : State) : State :=
  let e := s.contlog.slots.getD s.contlog.pos (0, 0)
  if testBit e.1.toNat 63 then
    let st := s.contstat.toNat
    let lost := min (bitsOf st 16 8 + 1) 255
    { s with contstat := BitVec.ofNat 32 (st % 2 ^ 16 + lost * 2 ^ 16 + st / 2 ^ 24 * 2 ^ 24) }
  else
    let w : DWord := BitVec.ofNat 64 (bitsOf line 0 44 * 2 ^ 8 + agent * 2 ^ 52 + reason * 2 ^ 56 + 2 ^ 63)
    { s with contlog := ⟨s.contlog.slots.set s.contlog.pos (w, BitVec.ofNat 64 s.clock), (s.contlog.pos + 1) % 16⟩ }.send (.msix 1)

/-- The agent's bit leaves every region entry and line vector; a region whose block is empty is freed (R359, R361). -/
def forgetAgent (bit_ : BitVec 14) (rs : List Region) : List Region :=
  (rs.map fun r => { r with vec := r.vec &&& ~~~bit_, lines := r.lines.map fun ls => ls.map fun x => x &&& ~~~bit_ }).filter
    fun r => match r.lines with
      | some ls => ls.any fun x => x != 0
      | none => true

/-- Whether an agent's link is up. -/
def agentUp (s : State) (agent : Nat) : Bool := if agent = 1 then s.hostlanes != 0 else (s.links.getD (agent - 2) Link.blank).up

/-- A fenced agent's writes that have not performed are not performed (R361): those whose fan-out has begun leave the bare fan-out. -/
def refusePending (agent : Nat) (s : State) : State :=
  let mine (f : FanOut) : Bool := f.agent == agent && f.data != []
  let writes := ((s.fanOuts.filter mine).map fun f => (f.write, f.tag)).dedup
  let s := if agentUp s agent then writes.foldl (fun s f => answerAgent agent f.2 3 [] s) s else s
  { s with fanOuts := (s.fanOuts.filter fun f => !mine f || f.begun).map fun f => if mine f then { f with agent := 0, op := 0, tag := 0, data := [], write := 0 } else f }

/-- Fencing of the host or of a peer (R361): its sharer bits and leases go, FENCED is set and logged, it counts as having answered
every fan-out, and what it asked for and has not had is refused. -/
def fence (agent line reason : Nat) (s : State) : State :=
  if agent = 0 ∨ 14 ≤ agent ∨ fenced s agent then s
  else
    let bit_ : BitVec 14 := BitVec.twoPow 14 agent
    let link := agent - 2
    let s := { s with regions := forgetAgent bit_ s.regions }
    let s := if agent = 1 then s else endLeases link s
    let s := logContainment line agent reason { s with contstat := s.contstat ||| BitVec.twoPow 32 agent }
    let s := refusePending agent s
    let s := if agent = 1 then s else (s.fabIn.filter fun m => m.link == link).foldl (fun s m => endIn m 4 s) s
    let s := retryFills s
    let last (f : FanOut) : Bool := f.begun && f.agents != 0 && f.agents &&& ~~~bit_ == 0
    pumpFans ((s.fanOuts.filter last).foldl (fun s f => fanAnswered f s) { s with fanOuts := s.fanOuts.map fun f => { f with agents := f.agents &&& ~~~bit_ } })

/-- INVTO_EXPIRY (R361, R363): no answer within INVTO. -/
def execInvtoExpiry (agent line : Nat) (s : State) : Outcome :=
  next (fun s =>
    match s.fanOuts.find? fun f => f.line == line && f.begun && f.agents.getLsbD agent with
    | some f =>
      if f.start + 1500 * bitsOf f.cfg.toNat 0 8 ≤ s.clock then answerWaits (advanceMigrations (fence agent line 0 s))
      else s
    | none => s) s

/-- REJOIN (R362): the message of an agent whose link is up clears its FENCED bit. -/
def execRejoin (agent : Nat) (s : State) : Outcome :=
  next (fun s =>
    if agent = 0 ∨ 14 ≤ agent ∨ agentUp s agent = false then s
    else
      let s := if agent = 1 then s else arrive (agent - 2) 4 1 s
      { s with contstat := s.contstat &&& ~~~(BitVec.twoPow 32 agent) }) s

/-! ## COHCFG -/

/-- Every line block of a die's slices is collapsed (R359, R363). -/
def collapseAll (die : Nat) (s : State) : State :=
  let f (r : Region) : Region := match r.lines with
    | some ls => if sliceOf (r.region * 4096) / Config.slicesPerDie = die then { r with vec := ls.foldl (· ||| ·) 0, lines := none, cfg := cohOf s (r.region * 4096) } else r
    | none => r
  { s with regions := s.regions.map f }

/-- COHCFG as stored (R363). -/
def storedCohcfg (x : Nat) : Word :=
  BitVec.ofNat 32 (max 1 (bitsOf x 0 8) + max 1 (bitsOf x 8 4) * 2 ^ 8 + bitsOf x 12 1 * 2 ^ 12)

/-- A write of COHCFG (R363). -/
def writeCohcfg (die x : Nat) (s : State) : State :=
  let s := s.modDie die fun d => { d with cohcfg := storedCohcfg x }
  if testBit x 12 then s else collapseAll die s

/-- COHCFG_WRITE (R363). -/
def execCohcfgWrite (die : Nat) (value : BitVec 32) (s : State) : Outcome := next (writeCohcfg die value.toNat) s

/-! ## Aliases -/

/-- SOURCE_PROBE (R372): every live entry whose source touches the line is materialised. -/
def execSourceProbe (line : Nat) (s : State) : Outcome :=
  next (fun s => (s.aliases.filter (touchesSource line)).foldl (fun s e => materialise e s) s) s

/-- Whether the base die may materialise an entry (R374): BASEDIE is 1, source and destination lie in one stack, no source line is dirty in L2 and the
destination line is not in L2; and a script can name it, in whole bursts of one region (R443). -/
def onOneStack (s : State) (e : Alias) : Bool :=
  (s.ctx e.ctx).basedie && regionOf e.src == 0 && regionOf e.dst == 0 && stackOf e.src == stackOf e.dst &&
    e.src % 64 == 0 && e.dst % 64 == 0 && e.len % 64 == 0 && e.src / 4096 == (e.src + e.len - 1) / 4096 &&
    !(s.l2.any fun l => (l.dirty && touchesSource l.line e) || l.line == lineOf e.dst)

/-- The copy script of an entry: one COPY command (R443). -/
def copyScript (e : Alias) : List Byte := leBytes 16 (1 + e.len / 64 * 2 ^ 4 + e.src / 64 * 2 ^ 18 + e.dst / 64 * 2 ^ 64)

/-- The lowest free TAG of a port, if there is one (R437). -/
def freeTag (p : Isais) : Option Nat := (List.range 2048).find? fun t => p.outstanding.all fun m => m.tag != t

/-- The base die has copied an entry's bytes, which never came to the compute die (R374). -/
def baseMaterialise (e : Alias) (s : State) : State := copyBytes e.src e.dst e.len { s with aliases := s.aliases.filter fun f => f != e }

/-- BASE_DIE_MATERIALISE (R374): the slice has the base die copy the i-th entry's bytes. The script is sent under a free TAG and is answered in the same
step, so that no access meets the entry BUSY (log entry 79). -/
def execBaseDieMaterialise (i : Nat) (s : State) : Outcome :=
  next (fun s => match s.aliases[i]? with
    | some e =>
      let k := stackOf e.dst
      match freeTag (s.port k) with
      | none => s
      | some tag =>
        if onOneStack s e && (s.port k).recal.isNone then
          let s := s.send (.isais k (isaisHead 0x7 (chOf e.dst) tag e.dst 0 0 (copyScript e)) (copyScript e))
          baseMaterialise e { s with isais := modAt s.isais k (Isais.answered tag) }
        else s
    | none => s) s

end Sys2Proof.Machine
end

