-- ==== Sys2Proof/Machine/Links.lean ====
section
/-! DEFINITION. The links: freezing (R425, R426), Gollys messages (R430 to R434), audits (R415, R416), recalibration (R435), the die
bridge (R436) and the answers of the host's home agent (R428). Links are numbered as R415 numbers them: 0 to 11 Gollys, 12 and 13 the
bridge, 14 to 21 the Isais ports; 22 stands for the host port. -/

namespace Sys2Proof.Machine

/-! ## Freezing -/

/-- A freeze (R425, R426): nothing but the management window and the base dies runs on; the host is signalled (R429). An update under way ends with the
slot of the last boot active (R452). -/
def freeze (s : State) : State := if s.frozen then s else { s with frozen := true, restarting := none }.send (.msix 5)

/-- DEVICE_FAULT (R425): kind 0 is an uncorrectable error in an array of code 9, 1 a bridge or Isais failure, 2 a control-core fault. -/
def execDeviceFault (kind index : Nat) (s : State) : Outcome :=
  next (fun s => freeze (if kind = 0 then logError 0 9 index s else s)) s

/-- FREEZE_L (R425). -/
def execFreezeL (s : State) : Outcome := next freeze s

/-- DEVCMD_FREEZE (R447). -/
def execDevcmdFreeze (s : State) : Outcome := next freeze s

/-! ## Links going down and coming up -/

/-- A link's state changed. -/
def modLink (i : Nat) (f : Link → Link) (s : State) : State := { s with links := modAt s.links i f }

/-- The line of an outstanding fan-out that awaits an agent; 0 where none does (R364). -/
def awaitedLine (s : State) (agent : Nat) : Nat :=
  match s.fanOuts.find? fun f => f.begun && f.agents.getLsbD agent with
  | some f => f.line
  | none => 0

/-- What a device does toward a home agent whose link has failed (R362): its guest copies and leases are gone; no access waits for it
any more, and those under way there are refused. -/
def forsake (region : Nat) (s : State) : State :=
  let away (l : Nat) : Bool := regionOf (l * 256) != region
  let s := (s.proxies.filter fun l => !away l).foldl (fun s l => dropLine l s) s
  { s with
    asked := s.asked.filter away
    noLines := s.noLines.filter away
    remotes := (s.remotes.filter fun r => !(r.write && r.link + 2 == region)).map fun r => if r.link + 2 = region ∧ r.reply.isNone then { r with reply := some (3, 0) } else r
    leaseUses := s.leaseUses.filter fun e => e.link + 2 != region
    recalled := s.recalled.filter fun r => r.1 + 2 != region
    tlb := s.tlb.filter fun e => e.lease != some (region - 2) || region == 1
    leases := s.leases.filter fun e => e.1 + 2 != region
    leaseAsked := s.leaseAsked.filter fun e => e.1 + 2 != region }

/-- The link layer reports a link down (R361, R362, R434, R436): a Gollys link or the host port is fenced, a bridge or Isais link is a
device fault. -/
def takeDown (link : Nat) (s : State) : State :=
  if link < 12 then
    let s := modLink link (fun l => { l with up := false, recal := none, audit := none, queue := [], unacked := [], replays := 0, failed := 0 }) s
    forsake (2 + link) (fence (2 + link) (awaitedLine s (2 + link)) 1 s)
  else if link = 22 then forsake 1 (fence 1 (awaitedLine s 1) 1 { s with hostlanes := 0 })
  else if link < 22 then freeze s else s

/-- LINK_DOWN (R434): lease requests and claims that waited on the agent go on. -/
def execLinkDown (link : Nat) (s : State) : Outcome :=
  next (fun s => answerWaits (advanceMigrations (takeDown link s))) s

/-- A link restored by training: every permit count at its total, every slot empty (R435). -/
def Link.trained (l : Link) (clock : Nat) : Link :=
  { l with
    up := true, permits := l.totals, slots := [0, 0, 0, 0], unacked := [], replays := 0, failed := 0, heard := clock, sentIdle := clock
    recal := none }

/-- A link brought up: both directions start again at SEQ 0 (log entry 39). -/
def Link.started (l : Link) (clock : Nat) : Link := { l.trained clock with seq := 0, ack := 4095 }

/-- Every write that the device holds for a region is flushed (R362): non-temporal stores, epilogue rows, and the dirty bytes of non-coherent pages. -/
def flushRegion (region : Nat) (s : State) : State :=
  let rs := [(region * 2 ^ 48, 2 ^ 48)]
  let s := ((s.grp :: s.rest).foldl (fun s g => drainGroup rs g s) s).mapGroups (Group.drained rs)
  s.cores.foldl (fun s e => writeBackRange e.1 (region * 2 ^ 48) (2 ^ 48) s) s

/-- LINK_UP (R362): the link is trained again; the device, which holds no copy and no translation of the agent's memory, flushes the writes it holds for
it and sends its rejoin. A link that a repair record holds out of service stays down, one of which it holds lanes out runs at 4 lanes, and the host port at 8
(R446). -/
def execLinkUp (link : Nat) (s : State) : Outcome :=
  next (fun s =>
    if link < 12 then
      if s.linkUp link ∨ s.linksOut.contains link = true then s
      else (flushRegion (2 + link) (modLink link (fun l => l.started s.clock) s)).send (.flit link 0x12 [] [])
    else if link = 22 ∧ s.hostlanes = 0 then { s with hostlanes := if s.lanesOut.contains 22 then 8 else 16 }
    else s) s

/-- LANE_FAILURE (R427, R430): a Gollys link trains at 4 lanes, the host port at 8 or 4. -/
def execLaneFailure (link : Nat) (s : State) : Outcome :=
  next (fun s =>
    if link < 12 then
      if (s.links.getD link Link.blank).up then modLink link (fun l => { l with lanes := 4 }) s else s
    else if link = 22 then { s with hostlanes := if s.hostlanes = 0 then 0 else if s.hostlanes = 16 then 8 else 4 }
    else s) s

/-! ## Flits -/

/-- Permits come back to a sender (R433), and count for its audit (R415). -/
def Link.regain (l : Link) (vc n : Nat) : Link :=
  { l with permits := modAt l.permits vc fun p => p + n, audit := l.audit.map fun a => (a.1, a.2 + n) }

/-- Flits up to one are acknowledged (R431, R434). -/
def Link.acked (l : Link) (ack : Nat) : Link :=
  if l.unacked.any fun f => f.seq == ack then { l with unacked := (l.unacked.dropWhile fun f => f.seq != ack).drop 1, replays := 0 } else l

/-- IDLE (R431, R434): ACK, RVC and RCNT of a flit that has arrived, an idle flit of its own or one of the message that the step before took in (log
entry 39): an acknowledgement, and permits returned; messages that waited for permits go out. -/
def execIdle (link ack : Nat) (permits : Nat × Nat) (own : Bool) (s : State) : Outcome :=
  next (fun s =>
    let s := if own then arrive link 4 1 s else s
    flushLink link (modLink link (fun l => (l.acked ack).regain permits.1 permits.2) s)) s

/-- IDLE_SEND (R433, R434): an idle flit at least every 150 ticks; like every flit it carries an acknowledgement and the permits of one channel. -/
def sendIdle (link : Nat) (s : State) : State :=
  match s.links[link]? with
  | none => s
  | some l =>
    if !l.up || decide (s.clock < l.sentIdle + 150) then s
    else
      modLink link (fun l => { (if link < 12 then l else l.bridged s.clock) with sentIdle := s.clock }) (s.send (.flit link 0x13 [] []))

/-- IDLE_SEND (R434). -/
def execIdleSend (link : Nat) (s : State) : Outcome := next (sendIdle link) s

/-- The peer asks for a replay after the flit of SEQ `last`: what was received intact is acknowledged, and the flits behind it go out again; the eighth
replay of one flit that fails takes the link down (R434). -/
def replayFlits (link last : Nat) (s : State) : State :=
  match s.links[link]? with
  | none => s
  | some l =>
    let l := l.acked last
    if l.up = false ∨ l.unacked = [] then s
    else if 8 ≤ l.replays then takeDown link s
    else { s with links := s.links.set link { l with replays := l.replays + 1 } }.send (.replay link l.unacked)

/-- A flit arrives that is not intact, or whose TYPE its link does not carry: it is discarded and the peer is asked for a replay; a flit that has failed
eight replays takes the link down (R432, R434). -/
def flitFails (link : Nat) (s : State) : State :=
  match s.links[link]? with
  | none => s
  | some l =>
    if l.up = false then s
    else if 8 ≤ l.failed then takeDown link s
    else { s with links := s.links.set link { l with failed := l.failed + 1 } }.send (.askReplay link l.ack)

/-- A message of the compute die on a port fails its CRC: it is replayed from the buffer; eight replays that fail take the port down (R441). -/
def messageFails (k tag : Nat) (s : State) : State :=
  match s.isais[k]?, (s.isais.getD k Isais.blank).buffer.find? fun m => m.1 == tag with
  | some p, some m =>
    match p.outstanding.find? fun o => o.tag == tag with
    | none => s
    | some o =>
      if 8 ≤ o.replays then takeDown (14 + k) s
      else
        let again (e : IsaisMsg) : IsaisMsg := if e = o then { e with replays := e.replays + 1 } else e
        { s with isais := s.isais.set k { p with outstanding := p.outstanding.map again } }.send (.isais k m.2.1 m.2.2)
  | _, _ => s

/-- CRC_FAILURE_REPLAY (R432, R434, R438, R441): with the bytes of a flit, one that arrives and fails; without, the request of the far end for a replay, on
a link after the flit of SEQ `last`, on an Isais port of the message of TAG `last`. -/
def execCrcFailureReplay (event : Nat × Nat × List (BitVec 8)) (s : State) : Outcome :=
  let (link, last, flit) := event
  next (fun s =>
    if 14 ≤ link then messageFails (link - 14) last s
    else if flit = [] then replayFlits link last s
    else if flitFits link flit then s else flitFails link s) s

/-- BRIDGE_MESSAGE (R436): an internal message crosses the bridge in a direction; its payload is internal. -/
def execBridgeMessage (dir : Nat) (payload : List (BitVec 8)) (s : State) : Outcome :=
  next (fun s => if dir < 2 then (crossBridge dir payload s).getD s else s) s

/-! ## Audits and recalibration -/

/-- The total of a link (R416). -/
def totalOf (s : State) (link : Nat) : Nat := s.glowtotal.getD link 0

/-- The directions that a link's recalibration takes in: both of the die bridge, whose two senders this device holds (R435, R436). -/
def recalLinks (link : Nat) : List Nat := if link = 12 ∨ link = 13 then [12, 13] else [link]

/-- A live recalibration starts (R435): the senders are held. -/
def beginRecal (link : Nat) (s : State) : State :=
  if link < 14 then
    (recalLinks link).foldl (fun s i => modLink i (fun l => if l.up && l.recal.isNone then { l with recal := some ⟨s.clock, false⟩ } else l) s) s
  else { s with isais := modAt s.isais (link - 14) fun p => if p.recal.isNone then { p with recal := some ⟨s.clock, false⟩ } else p }

/-- A recalibration ends once every flit sent, idle ones apart, is acknowledged (R435): permits at their totals, slots empty, the senders released. -/
def endRecal (link : Nat) (s : State) : State :=
  if link < 14 then
    match s.links[link]? with
    | none => s
    | some l =>
      if l.recal.isSome && l.unacked.all (fun f => f.type == 0x13) then
        flushLink link (modLink link (fun l => { l.trained s.clock with audit := none }) s)
      else s
  else { s with isais := modAt s.isais (link - 14) fun p =>
    if p.recal.isSome && p.outstanding.isEmpty then { p with recal := none, audit := none, held := [] } else p }

/-- Whether a link is under recalibration. -/
def recalOf (s : State) (link : Nat) : Option Recal :=
  if link < 14 then (s.links.getD link Link.blank).recal else (s.isais.getD (link - 14) Isais.blank).recal

/-- LIVE_RECALIBRATION (R435): a recalibration begins, or one under way ends when its flits have drained. -/
def execLiveRecalibration (link : Nat) (s : State) : Outcome :=
  next (fun s => if 22 ≤ link then s else if (recalOf s link).isSome then endRecal link s else beginRecal link s) s

/-- RECALIBRATION_TIMEOUT (R435): after 200 µs it is tried once more, then the link goes down. -/
def execRecalibrationTimeout (link : Nat) (s : State) : Outcome :=
  next (fun s =>
    match recalOf s link with
    | none => s
    | some r =>
      if s.clock < r.start + 300000 then s
      else if r.again then takeDown link s
      else
        let again : Option Recal := some ⟨s.clock, true⟩
        if link < 14 then modLink link (fun l => { l with recal := again }) s
        else { s with isais := modAt s.isais (link - 14) fun p => { p with recal := again } }) s

/-- A lost-permit trap to the control cores (R416): GLOWSTAT, a signal to the host, and a recalibration. -/
def failAudit (link : Nat) (s : State) : State :=
  let st := s.glowstat.toNat
  let events := min (bitsOf st 24 8 + 1) 255
  let st := (st ||| 2 ^ link) % 2 ^ 24 + events * 2 ^ 24
  beginRecal link ({ s with glowstat := BitVec.ofNat 64 st }.send (.msix 3))

/-- The sum of an audit compared with the link's total (R415, R416). -/
def checkAudit (link sum : Nat) (s : State) : State := if sum = totalOf s link then s else failAudit link s

/-- GLOWWORM_AUDIT (R415): the sender notes its permits and sends a marker, unless a recalibration is under way (R416). -/
def audit (link : Nat) (s : State) : State :=
  if link < 14 then
    match s.links[link]? with
    | none => s
    | some l =>
      if !l.up || l.recal.isSome || decide (s.clock < l.audited + 15000) then s
      else
        let s := modLink link (fun l => { l with audited := s.clock }) s
        if l.audit.isSome then s
        else (modLink link (fun l => { l with audit := some (l.permits.sum, 0) }) s).send (.flit link 0x10 [] [])
  else
    match s.isais[link - 14]? with
    | none => s
    | some p =>
      if p.recal.isSome || decide (s.clock < p.audited + 15000) then s
      else
        let mark (q : Isais) : Isais :=
          { q with audited := s.clock, audit := if q.audit.isSome then q.audit else some (2048 - q.outstanding.length, 0) }
        let t : State := { s with isais := modAt s.isais (link - 14) mark }
        if p.audit.isSome then t else t.send (.isais (link - 14) (isaisHead 0xA 0 0 0 0 0 []) [])

/-- GLOWWORM_AUDIT (R415). -/
def execGlowwormAudit (link : Nat) (s : State) : Outcome := next (audit link) s

/-- GOLLYS_AUDIT_MARKER (R415): the receiver returns the slots it has occupied. -/
def execGollysAuditMarker (link : Nat) (s : State) : Outcome :=
  next (fun s =>
    let s := arrive link 4 1 s
    s.send (.flit link 0x11 [(s.links.getD link Link.blank).slots.sum] [])) s

/-- GOLLYS_AUDIT_ECHO (R415): h, r and o are added up. -/
def execGollysAuditEcho (link occupied : Nat) (s : State) : Outcome :=
  next (fun s =>
    let s := arrive link 4 1 s
    match (s.links.getD link Link.blank).audit with
    | none => s
    | some (h, r) => checkAudit link (h + r + occupied) (modLink link (fun l => { l with audit := none }) s)) s

/-! ## Messages of peers -/

/-- Whether a request for n bytes of device memory is refused: the agent is fenced, or the bytes are not device memory (R361, R381). -/
def refusesPeer (s : State) (link addr n : Nat) : Bool := fenced s (2 + link) || decide (2 ^ 48 < addr + n) || n == 0

/-- GOLLYS_READ (R307, R356, R432): data from the home slice, or the poison indication (R419); a whole line is a guest copy. -/
def execGollysRead (link addr len tag : Nat) (s : State) : Outcome :=
  next (fun s =>
    let s := arrive link 0 1 s
    if refusesPeer s link addr len then answerAgent (2 + link) tag 3 [] s
    else if addr % 256 = 0 ∧ len = 256 then requestFill ⟨2 + link, addr, len, tag⟩ s
    else
      let (s, bs, bad) := homeRead (.peer link) addr len s
      answerAgent (2 + link) tag (if bad then 2 else 0) (if bad then [] else bs) s) s

/-- GOLLYS_WRITE (R307, R353, R432). -/
def execGollysWrite (link addr tag : Nat) (data : List (BitVec 8)) (s : State) : Outcome :=
  next (fun s =>
    let s := arrive link 0 (flitsOf 2 data) s
    if refusesPeer s link addr data.length then answerAgent (2 + link) tag 3 [] s
    else agentWrite (2 + link) 0 addr tag data s) s

/-- The operations of an atomic message: those of R196 in their order, then the reductions of R200 and R201 by their form (log entry 76). -/
def atomicFits (op addr : Nat) : Bool :=
  if op < 8 then addr % 4 == 0 else if op = 8 then addr % 4 == 0 else op == 10 && addr % 2 == 0 || op == 11 || op == 12

/-- GOLLYS_ATOMIC (R197, R307, R432): an atomic or reduction of a peer, performed at the home slice. -/
def execGollysAtomic (link op addr tag : Nat) (x y : BitVec 32) (s : State) : Outcome :=
  next (fun s =>
    let s := arrive link 0 1 s
    if refusesPeer s link addr 4 || !atomicFits op addr then answerAgent (2 + link) tag 3 [] s
    else agentWrite (2 + link) (op + 1) addr tag (leBytes 4 x.toNat ++ leBytes 4 y.toNat) s) s

/-- The line of peer memory that a request by TAG asked for (R432): its number within the peer. -/
def peerLine (link tag : Nat) : Nat := (2 + link) * 2 ^ 40 + tag

/-- A line arrives in its proxy slice (R351, R356): its data, or its words marked poisoned (R419). -/
def lineArrives (line : Nat) (poisoned : Bool) (data : List Byte) (s : State) : State :=
  let ws := (List.range 64).map fun i => line * 256 + 4 * i
  let s : State := { s with asked := s.asked.filter fun l => l != line, proxies := if s.proxies.contains line then s.proxies else line :: s.proxies }
  let s := if poisoned then { s with poison := (s.poison ++ ws).dedup }
    else if data = [] then s
    else { s.poke (line * 256) (data.take 256) with poison := s.poison.filter fun w => !ws.contains w }
  useL2 line false s

/-- The answer of a peer to an atomic or reduction under way there, or its acknowledgement of a write (R197, R293, R307). -/
def remoteReply (link tag status : Nat) (data : List Byte) (s : State) : State :=
  { s with remotes := (s.remotes.filter fun r => !(r.write && r.link == link && r.tag == tag)).map fun r =>
      if r.link = link ∧ r.tag = tag ∧ r.reply.isNone then { r with reply := some (status, BitVec.ofNat 32 (leNat (data.take 4))) } else r }

/-- GOLLYS_RESPONSE (R197, R361, R432): data or poison of a line that was asked for, where a refusal turns the accesses to it away; or the answer to an
atomic. -/
def execGollysResponse (link tag status : Nat) (data : List (BitVec 8)) (s : State) : Outcome :=
  next (fun s =>
    let s := arrive link 1 (flitsOf 2 data) s
    let line := peerLine link tag
    if remoteTag ≤ tag then remoteReply link tag status data s
    else if !s.asked.contains line then s
    else match status with
      | 0 => lineArrives line false data s
      | 2 => lineArrives line true data s
      | 3 => { s with asked := s.asked.filter (fun l => l != line), noLines := line :: s.noLines }
      | _ => s) s

/-- CXL_CACHE_RESPONSE (R428): a line of host memory arrives in its proxy slice, with data or an exclusive grant. -/
def execCxlCacheResponse (line : Nat) (exclusive : Bool) (data : List (BitVec 8)) (s : State) : Outcome :=
  next (fun s =>
    if regionOf (line * 256) = 1 ∧ s.asked.contains line = true ∧ (exclusive = true ∨ data ≠ []) then
      let s := lineArrives line false data s
      if exclusive then { s with exclusive := line :: s.exclusive.filter fun l => l != line } else s
    else s) s

end Sys2Proof.Machine
end

