-- ==== Sys2Proof/Machine/Base.lean ====
section
/-! DEFINITION. The Isais ports and the base dies (R437 to R443), the Weevil (R422, R423), and uncorrectable errors in arrays (R418 to
R421). -/

namespace Sys2Proof.Machine

/-! ## Ports and bursts -/

/-- A port changed. -/
def modPort (k : Nat) (f : Isais → Isais) (s : State) : State := { s with isais := modAt s.isais k f }

/-- The words of a burst, and those of them with poison marks (R437: POISON). -/
def burstWords (a : Nat) : List Nat := (List.range 16).map fun i => burstOf a + 4 * i
def burstMarks (s : State) (a : Nat) : Nat := ((burstWords a).zipIdx.map fun e => if s.poison.contains e.1 then 2 ^ e.2 else 0).sum

/-- Poison marks of a burst's words set and cleared under a mask of words to change. -/
def setMarks (a : Nat) (change marks : Nat) (s : State) : State :=
  (burstWords a).zipIdx.foldl (fun s e =>
    if testBit change e.2 then
      { s with poison := if testBit marks e.2 then (s.poison ++ [e.1]).dedup else s.poison.filter fun w => w != e.1 }
    else s) s

/-- A message enters the port, spending its TAG's permit, and stands in the replay buffer (R437, R439, R441); one whose TAG is outstanding cannot be
sent. -/
def takeTag (k tag : Nat) (head : BitVec 128) (beats : List Byte) (s : State) : Option State :=
  let p := s.port k
  if 8 ≤ k ∨ 2048 ≤ tag ∨ (p.outstanding.any fun m => m.tag == tag) = true ∨ 2048 ≤ p.outstanding.length ∨ p.recal.isSome then none
  else
    let kept := p.buffer ++ [(tag, head, beats)]
    some (modPort k (fun p => { p with outstanding := p.outstanding ++ [⟨tag, s.clock, 0⟩], buffer := kept.drop (kept.length - 64) }) s)

/-- A reply of the base die about a burst (R438). -/
def reply (k tag st addr marks : Nat) (beats : List Byte) (s : State) : State :=
  s.send (.isais k (isaisHead 0x9 (chOf addr) tag addr marks st beats) beats)

/-- A poison report of the base die (R438). -/
def report (k addr marks : Nat) (s : State) : State := s.send (.isais k (isaisHead 0x4 (chOf addr) 0 addr marks 0 []) [])

/-- A request performed by the base die, where its port can send it: OP, burst, POISON and the beats that follow. One whose LEN is wrong counts as a
CRC failure (R438). -/
def request (k op tag addr marks : Nat) (beats : List Byte) (fits : Bool) (f : State → State) (s : State) : State :=
  match takeTag k tag (isaisHead op (chOf addr) tag addr marks 0 beats) beats s with
  | some s => if fits then f s else messageFails k tag s
  | none => s

/-- Corrected events counted (R421). -/
def countCorrected (n : Nat) (s : State) : State :=
  let st := s.errstat.toNat
  { s with errstat := BitVec.ofNat 64 (min (st % 2 ^ 32 + n) (2 ^ 32 - 1) + st / 2 ^ 32 * 2 ^ 32) }

/-- Whether a burst is known to hold an error of a kind: one that its code corrects, or an uncorrectable one (R418, R423). -/
def burstError (s : State) (a : Nat) (correct : Bool) : Bool := s.raws.any fun r => r.burst == burstOf a && r.correct == correct

/-- A burst is found uncorrectable (R418, R423). -/
def spoilBurst (a : Nat) (s : State) : State :=
  { s with raws := ⟨burstOf a, s.bytes (burstOf a) 64, false⟩ :: s.raws.filter fun r => r.burst != burstOf a }

/-- ISAIS_READ (R418, R438, R441): the burst with its poison marks; an error that the code corrects is counted; an uncorrectable burst is marked whole and
reported as well; a channel that is absent answers poisoned data. -/
def execIsaisRead (stack tag addr : Nat) (s : State) : Outcome :=
  next (request stack 0x1 tag addr 0 [] true fun s =>
    if !channelHere s stack (chOf addr) then reply stack tag 3 addr 0xFFFF (List.replicate 64 0) s
    else if burstError s addr false then
      let s := setMarks addr 0xFFFF 0xFFFF s
      report stack addr 0xFFFF (reply stack tag 1 addr 0xFFFF (s.bytes (burstOf addr) 64) s)
    else
      let s := if burstError s addr true then countCorrected 1 s else s
      reply stack tag 0 addr (burstMarks s addr) (s.bytes (burstOf addr) 64) s) s

/-- The words of a burst that a byte mask covers whole. -/
def maskedWords (mask : BitVec 64) : Nat := ((List.range 16).map fun i => if (mask.toNat / 2 ^ (4 * i)) % 16 = 15 then 2 ^ i else 0).sum

/-- The words of a burst that a byte mask touches. -/
def touchedWords (mask : BitVec 64) : Nat := ((List.range 16).map fun i => if (mask.toNat / 2 ^ (4 * i)) % 16 = 0 then 0 else 2 ^ i).sum

/-- A write that the base die refuses (R441): the slice poisons the written words and logs the event. -/
def refusedWrite (k tag st addr : Nat) (mask : BitVec 64) (s : State) : State :=
  let first := ((burstWords addr).zipIdx.find? fun e => testBit (touchedWords mask) e.2).map (·.1)
  reply k tag st addr 0 [] (logError 0 0 (first.getD (burstOf addr)) (setMarks addr (touchedWords mask) 0xFFFF s))

/-- The masked bytes of a burst are written (R438). -/
def writeMasked (a : Nat) (mask : BitVec 64) (data : List Byte) (s : State) : State :=
  (List.range 64).foldl (fun s i => if mask.getLsbD i then s.poke (burstOf a + i) [data.getD i 0] else s) s

/-- MASKED_WRITE (R438, R440, R441): masked bytes are written; whole words take their marks, a word written in part keeps its own. -/
def execMaskedWrite (stack tag addr : Nat) (mask : BitVec 64) (data : List (BitVec 8)) (marks : BitVec 16) (s : State) : Outcome :=
  next (request stack 0x2 tag addr marks.toNat (leBytes 16 mask.toNat ++ data) (data.length == 64) fun s =>
    if !channelHere s stack (chOf addr) then refusedWrite stack tag 3 addr mask s
    else if rowRefused s stack addr then refusedWrite stack tag 2 addr mask s
    else
      let s := setMarks addr (maskedWords mask) marks.toNat (writeMasked addr mask data s)
      reply stack tag 0 addr 0 [] { s with raws := s.raws.filter fun r => r.burst != burstOf addr }) s

/-- The raw bits that the base die holds for a burst. -/
def storedRaw (s : State) (a : Nat) : List Byte :=
  match s.raws.find? fun r => r.burst == burstOf a with
  | some r => r.raw
  | none => Config.codeword (s.bytes (burstOf a) 64)

/-- Whether L2 holds a line dirty: its bytes there are newer than those of DRAM (R355). -/
def dirtyInL2 (s : State) (line : Nat) : Bool := s.l2.any fun e => e.line == line && e.dirty

/-- A compare-write performed (R423, R440, R452): where the stored raw bits still equal those expected, the data stands in the burst of DRAM. Else, or on
a row being spared, the compare fails and nothing is written; an absent channel has no burst (R441). Its STATUS. -/
def compareWrite (k addr : Nat) (data expected : List Byte) (s : State) : State × Nat :=
  if !channelHere s k (chOf addr) then (s, 3)
  else if storedRaw s addr = expected ∧ rowRefused s k addr = false then
    let s := { s with raws := s.raws.filter fun r => r.burst != burstOf addr }
    (if dirtyInL2 s (lineOf addr) then s else s.poke (burstOf addr) data, 0)
  else (s, 4)

/-- COMPARE_WRITE (R423, R438): of the compute die, under a TAG, which is answered; or of the Weevil beside the burst. -/
def execCompareWrite (stack : Nat) (tag : Option Nat) (addr : Nat) (beats : List (BitVec 8) × List (BitVec 8)) (s : State) : Outcome :=
  let (data, expected) := beats
  let fits := data.length == 64 && expected.length == 80
  next (fun s => match tag with
    | none => if fits && decide (stack < 8) then (compareWrite stack addr data expected s).1 else s
    | some t => request stack 0x3 t addr 0 (data ++ expected) fits (fun s =>
        match compareWrite stack addr data expected s with
        | (s, st) => reply stack t st addr 0 [] s) s) s

/-- POISON_REPORT (R418, R419, R438): the burst is uncorrectable and its words are marked; where one was not marked before, the error is logged with
the first such word. -/
def execPoisonReport (stack addr : Nat) (marks : BitVec 16) (s : State) : Outcome :=
  next (fun s => if 8 ≤ stack ∨ marks = 0 then s
    else
      let t := spoilBurst addr (setMarks addr marks.toNat marks.toNat s)
      match (burstWords addr).find? fun w => t.poison.contains w && !s.poison.contains w with
      | some w => logError 0 0 w t
      | none => t) s

/-- SCRUB_REPORT (R421, R438): the corrected count of a row; a KIND of 0 to 2 with nothing corrected is logged with the address that the header beat
names. -/
def execScrubReport (stack : Nat) (place : Nat × Nat) (corrected kind : Nat) (s : State) : Outcome :=
  next (fun s => if 8 ≤ stack then s
    else if corrected = 0 ∧ kind ≤ 2 then logError kind 0 place.1 s else countCorrected (bitsOf corrected 0 16) s) s

/-- CALIBRATION (R438, R439): a step of the compute die that carries no answer of its own is answered by an empty reply; one of the base die asks for none. -/
def execCalibration (stack : Nat) (step : Option Nat × Nat) (s : State) : Outcome :=
  next (fun s => match step.1 with
    | none => s
    | some t => request stack 0x6 t 0 0 (List.replicate (16 * step.2) 0) (decide (step.2 ≤ 4)) (reply stack t 0 0 0 []) s) s

/-- CAPABILITY_READ (R442). -/
def execCapabilityRead (stack tag : Nat) (s : State) : Outcome :=
  next (request stack 0x8 tag 0 0 [] true fun s => reply stack tag 0 0 0 (leBytes 16 (s.port stack).capability.toNat) s) s

/-! ## Capability entries -/

/-- The physical core behind each logical core of the package (R2): as the spare map of its die says, and without one the core of the same number. -/
def coreMap (s : State) : List Nat :=
  (List.range 2).flatMap fun die => (List.range Config.coresPerDie).map fun i => (s.spareMap.getD die []).getD i i

/-- The body that the machine gives a capability entry (R449), where it gives one: of the core map a byte for each logical core, of a stack the beat of
R442, of the firmware slots the VERSION of each, of the attestation READY and then the report (log entry 70). -/
def machineBody (s : State) (id stack : Nat) : Option (List Byte) :=
  if id = 2 then some ((coreMap s).map (BitVec.ofNat 8))
  else if id = 3 then s.isais[stack]?.map fun p => leBytes 16 p.capability.toNat
  else if id = 6 then some (leBytes 4 (look s.slots 0 0) ++ leBytes 4 (look s.slots 1 0))
  else if id = 7 then some (leBytes 8 (if s.attestation.ready then 1 else 0) ++ s.attestation.report)
  else none

/-- The capability entries with their bodies, each of the LEN that the configuration record gave it (R449); the n-th entry of a stack is that of stack n. -/
def capBodies (s : State) : Nat → List (Nat × Nat × Nat × List Byte) → List (Nat × Nat × Nat × List Byte)
  | _, [] => []
  | k, (off, id, ver, body) :: t =>
    let now := match machineBody s id k with
      | some b => (b ++ List.replicate body.length 0).take body.length
      | none => body
    (off, id, ver, now) :: capBodies s (if id = 3 then k + 1 else k) t

/-- The capability list of the device. -/
def capList (s : State) : List (Nat × Nat × Nat × List Byte) := capBodies s 0 s.caps

/-- After a live operation on s, VER of every entry whose body it has changed is one higher (R449); a report is no change of a body (R450). -/
def renewCaps (s t : State) : State :=
  let up (e : (Nat × Nat × Nat × List Byte) × List Byte × List Byte) : Nat × Nat × Nat × List Byte :=
    if e.1.2.1 ≠ 7 ∧ e.2.1 ≠ e.2.2 then (e.1.1, e.1.2.1, (e.1.2.2.1 + 1) % 256, e.1.2.2.2) else e.1
  let bodies (s : State) : List (List Byte) := (capList s).map (·.2.2.2)
  { t with caps := (t.caps.zip ((bodies s).zip (bodies t))).map up }

/-! ## Scripts -/

/-- The fields of a command beat (R443). -/
structure Command where
  cmd : Nat
  n   : Nat
  src : Nat
  dst : Nat
  ok  : Bool

/-- A command beat read: SRC and DST as byte addresses, and whether its reserved bits are 0. -/
def commandOf (c : BitVec 128) : Command :=
  let x := c.toNat
  ⟨bitsOf x 0 4, bitsOf x 4 14, bitsOf x 18 46 * 64, bitsOf x 64 46 * 64, bitsOf x 110 18 == 0⟩

/-- Whether a range of bursts lies in one 4 KiB region of a stack (R443). -/
def oneRegion (k a n : Nat) : Bool := a / 4096 == (a + 64 * n - 1) / 4096 && stackOf a == k && decide (a < 2 ^ 48)

/-- Whether a command keeps the rules of R443. -/
def commandOk (k : Nat) (fromControl : Bool) (c : Command) : Bool :=
  c.ok && decide (1 ≤ c.n) && decide (c.n ≤ 64) && (match c.cmd with
    | 1 => oneRegion k c.src c.n && oneRegion k c.dst c.n && !meets c.src (64 * c.n) c.dst (64 * c.n)
    | 2 => c.src == 0 && oneRegion k c.dst c.n
    | 3 => fromControl
    | _ => false)

/-- One burst of a COPY or ZERO (R443): the status that stops it, if any; an absent channel reads as poisoned and takes no write (R441). -/
def burstStep (k : Nat) (copy : Bool) (src dst : Nat) (s : State) : State × Nat :=
  if copy && burstError s src false then (s, 1)
  else if rowRefused s k dst || !channelHere s k (chOf dst) then (s, 2)
  else
    let data := if copy then s.bytes (burstOf src) 64 else List.replicate 64 0
    let m := if !copy then 0 else if channelHere s k (chOf src) then burstMarks s src else 0xFFFF
    let s := setMarks dst 0xFFFF m (s.poke (burstOf dst) data)
    ({ s with raws := s.raws.filter fun r => r.burst != burstOf dst }, 0)

/-- The bursts of a command in ascending address: how many completed, and the status. -/
def burstSteps (k : Nat) (copy : Bool) : Nat → Nat → Nat → Nat → State → State × Nat × Nat
  | 0, _, _, done, s => (s, done, 0)
  | n + 1, src, dst, done, s =>
    match burstStep k copy src dst s with
    | (s, 0) => burstSteps k copy n (src + 64) (dst + 64) (done + 1) s
    | (s, st) => (s, done, st)

/-- The rows of a channel that have been spared. -/
def sparedOf (p : Isais) (ch : Nat) : Nat := (p.spared.filter fun r => r / 2 ^ 32 == ch).length

/-- A row is spared (R442, R443): it is retired no longer, and RETIRED falls; SPARES falls where no channel of the stack has used more spares
(log entry 85). -/
def spareRow (k row : Nat) (s : State) : State :=
  modPort k (fun p =>
    if p.retired.contains row then
      let cap := p.capability.toNat
      let ch := row / 2 ^ 32
      let poorest := (List.range 32).all fun c => decide (sparedOf p c ≤ sparedOf p ch)
      let spares := if poorest then bitsOf cap 56 8 - 1 else bitsOf cap 56 8
      let left := bitsOf cap 64 16 - 1
      { p with
        retired := p.retired.filter fun r => r != row, spared := p.spared ++ [row]
        capability := BitVec.ofNat 128 (cap % 2 ^ 56 + spares * 2 ^ 56 + left * 2 ^ 64 + cap / 2 ^ 80 * 2 ^ 80) }
    else p) s

/-- A script runs (R443): how many commands completed, the bursts of the one that stopped, and the status. -/
def runScript (k : Nat) : Nat → List Command → State → State × Nat × Nat × Nat
  | done, [], s => (s, done, 0, 0)
  | done, c :: t, s =>
    if c.cmd = 3 then runScript k (done + 1) t (spareRow k (c.src / 64) s)
    else match burstSteps k (c.cmd == 1) c.n c.src c.dst 0 s with
      | (s, _, 0) => runScript k (done + 1) t s
      | (s, b, st) => (s, done, b, st)

/-- SCRIPT (R443). -/
def execScript (stack tag : Nat) (cmds : List (BitVec 128)) (fromControl : Bool) (s : State) : Outcome :=
  next (request stack 0x7 tag 0 0 (cmds.flatMap fun c => leBytes 16 c.toNat) (decide (1 ≤ cmds.length) && decide (cmds.length ≤ 64)) fun s =>
    let cs := cmds.map commandOf
    if bitsOf (s.port stack).capability.toNat 80 8 = 0 ∨ cs.all (commandOk stack fromControl) = false then
      reply stack tag 5 0 0 (leBytes 16 0) s
    else
      let (t, done, b, st) := runScript stack 0 cs s
      reply stack tag st 0 0 (leBytes 16 (done + b * 2 ^ 7)) (renewCaps s t)) s

/-! ## Replies and audits -/

/-- ISAIS_REPLY (R439): the TAG's permit returns, and counts for the audit; the replays of its message are over (R441). -/
def execIsaisReply (stack tag status : Nat) (s : State) : Outcome :=
  next (fun s =>
    if (s.port stack).outstanding.any (fun m => m.tag == tag) = true ∧ status ≤ 5 then modPort stack (Isais.answered tag) s else s) s

/-- ISAIS_AUDIT_MARKER (R439): the base die answers with the messages it holds and has not replied to. -/
def execIsaisAuditMarker (stack : Nat) (s : State) : Outcome :=
  next (fun s => if 8 ≤ stack then s else
    let beat := leBytes 16 ((s.port stack).held.length % 2 ^ 16)
    s.send (.isais stack (isaisHead 0xB 0 0 0 0 0 beat) beat)) s

/-- ISAIS_AUDIT_ECHO (R415, R439). -/
def execIsaisAuditEcho (stack occupied : Nat) (s : State) : Outcome :=
  next (fun s =>
    match (s.port stack).audit with
    | none => s
    | some (h, r) => checkAudit (14 + stack) (h + r + occupied) (modPort stack (fun p => { p with audit := none }) s)) s

/-- ISAIS_REQUEST_TIMEOUT (R441): a request unanswered after 10 µs is a device fault. -/
def execIsaisRequestTimeout (stack tag : Nat) (s : State) : Outcome :=
  next (fun s => if (s.port stack).outstanding.any (fun m => m.tag == tag && decide (m.sent + 15000 ≤ s.clock)) then freeze s else s) s

/-! ## The Weevil -/

/-- WEEVILCFG of a channel; PERIOD 24, EN 1 at reset (R422). -/
def weevilCfg (s : State) (ch : Nat) : DWord := look s.weevil ch 0x118

/-- WEEVIL_BURST (R422, R423): the patrol of a channel reads the next burst of the row that ROWPTR names, and after its last goes on to the next row,
from the last row to the first; it finds an uncorrectable error, a corrected one, or none. -/
def execWeevilBurst (channel : Nat) (corrected uncorrectable : Bool) (s : State) : Outcome :=
  next (fun s =>
    let c := (weevilCfg s channel).toNat
    if 256 ≤ channel ∨ testBit c 8 = false then s
    else
      let row := c / 2 ^ 32
      let i := look s.weevilAt channel 0
      let addr := Config.burstAt channel row i
      let last := decide (Config.burstsPerRow ≤ i + 1)
      let rowptr := if last then (row + 1) % Config.rowsPerChannel % 2 ^ 32 else row
      let s := { s with
        weevil := put s.weevil channel (BitVec.ofNat 64 (c % 2 ^ 32 + rowptr * 2 ^ 32)), weevilAt := put s.weevilAt channel (if last then 0 else i + 1) }
      let data := s.bytes (burstOf addr) 64
      if uncorrectable then logError 0 0 (burstOf addr) (report (channel / 32) addr 0xFFFF (setMarks addr 0xFFFF 0xFFFF (spoilBurst addr s)))
      else if corrected then
        let raw := Config.rawBits s.nfree data
        let s := { s with
          nfree := s.nfree + 1, raws := ⟨burstOf addr, raw, true⟩ :: s.raws.filter fun r => r.burst != burstOf addr }
        (countCorrected 1 s).send (.isais (channel / 32) (isaisHead 0x3 (channel % 32) 0 addr 0 0 (data ++ raw)) (data ++ raw))
      else s) s

/-! ## Errors in arrays -/

/-- An uncorrectable error in a word of the core's L1 (R349, R418): the copy is dropped, and dirty bytes poison the word at home. -/
def l1Error (a : Nat) (s : State) : State :=
  match (s.core s.coreNo).word a with
  | none => s
  | some w =>
    let s := s.modCore s.coreNo fun c => c.mapWord a fun w => { w with valid := false, dirty := 0 }
    if w.dirty = 0 then s else { s with poison := (s.poison ++ [wordOf a]).dedup }

/-- The core's copy of the group's dictionary is loaded again from the kernel's entry (R50). -/
def reloadTable (s : State) : State := match kernelOf s s.dieNo s.ctxNo s.grp.task.code with
  | some k => s.modG fun g => { g with dict := k.dict }
  | none => s

/-- An uncorrectable error in an array on the way of the issuing group (R418, R420): a word of L2 is refilled, or the words of one code of a
dirty line are poisoned; a word of L1 is dropped; a word of scratch or a unit of the operand buffer is poisoned; registers and accumulators end the
group, or discard its node (R417); a parcel of the instruction cache, a dictionary table, which the index 2^56 stands for and which is loaded again from the kernel's entry (R50), an entry of the TLBs or, numbered after them, of the walker's caches is
dropped. -/
def stateError (array index : Nat) (s : State) : State :=
  match array with
  | 1 =>
    let t := logError 0 1 index s
    if s.l2.any fun l => l.line == lineOf index && l.dirty then { t with poison := (t.poison ++ [index / 8 * 8, index / 8 * 8 + 4]).dedup } else t
  | 2 => l1Error index (logError 0 2 index s)
  | 3 => (logError 0 3 index s).modG fun g => { g with scratchPoison := (g.scratchPoison ++ [wordOf index]).dedup }
  | 4 => (logError 0 4 index s).modG fun g => { g with obufPoison := (g.obufPoison ++ [index]).dedup }
  | 5 => ended 5 index s
  | 6 => ended 6 index s
  | 7 =>
    if index = 2 ^ 56 then reloadTable (logError 0 7 index s)
    else (logError 0 7 index s).modCore s.coreNo fun c => { c with icache := c.icache.filter fun e => e.1 != index }
  | 8 =>
    let t := logError 0 8 index s
    if index < s.tlb.length then { t with tlb := s.tlb.eraseIdx index } else { t with combs := s.combs.eraseIdx (index - s.tlb.length) }
  | _ => s
where
  /-- The group ends, or its node is discarded. -/
  ended (array index : Nat) (s : State) : State :=
    let s := logError 2 array index s
    if s.grp.task.repl then { s with discards := s.discards ++ [(s.ctxNo, s.grp.task.launch)] } else stopGroup 3 s

/-- UNCORRECTABLE_STATE_ERROR (R418, R420): in the group of an identity. -/
def execUncorrectableStateError (uid array index : Nat) (s : State) : Outcome :=
  next (fun s => if array = 9 then freeze (logError 0 9 index s) else if s.groups.any (fun g => g.uid == uid) then onGroup uid (stateError array index) s else s) s

end Sys2Proof.Machine
end

