-- ==== Sys2Proof/Machine/Boot.lean ====
section
/-! DEFINITION. Boot and records (R444 to R446, R451), contexts (R448), the management window (R447), the host's submissions and
accesses (R428, R429), attestation (R450). -/

namespace Sys2Proof.Machine

/-! ## Records -/

/-- The VERSION of the running image (kind 1) or of the record of a kind applied last (R445). -/
def versionOf (s : State) (kind : Nat) : Nat := ((s.applied.filter fun o => o.kind == kind).getLast?.map (·.version)).getD 0

/-- The lowest VERSION that the running image accepts for a kind (R445). -/
def minVersion (s : State) (kind : Nat) : Nat := look s.minVersions kind 0

/-- VER of a capability entry once a configuration record lists it (R449): the record's where the entry is new, else one higher where its body changes;
the bodies that the machine gives follow the machine. -/
def versionAfter (s : State) (e : Nat × Nat × Nat × List Byte) : Nat :=
  match s.caps.find? fun o => o.1 == e.1 && o.2.1 == e.2.1 with
  | none => e.2.2.1
  | some o => if (machineBody s e.2.1 0).isSome ∨ o.2.2.2 = e.2.2.2 then o.2.2.1 else (o.2.2.1 + 1) % 256

/-- Values of a configuration record (R446): every field whose Reset is L; a link's GLOWTOTAL is the sum of its permit totals (R433, R436), a port's is
2,048 (R439). Permits in use stay until the link is trained (R435), and the beat that a base
die supplies (R442) stands once it is loaded (log entry 85). -/
def applyConfig (c : ConfigRecord) (s : State) : State :=
  let link (i : Nat) (l : Link) : Link := { l with totals := c.permits.getD i [0, 0, 0, 0], export_ := c.exports.getD i 0 }
  { s with
    glowtotal := (List.range 22).map fun i => if i < 14 then (c.permits.getD i []).sum else 2048
    links := s.links.zipIdx.map fun e => link e.2 e.1
    isais := s.isais.zipIdx.map fun e => if e.1.capability = 0 then { e.1 with capability := c.capability.getD e.2 0 } else e.1
    frameTable := c.frameTable, poolBase := c.poolBase, poolPerCore := c.poolPerCore, caphead := BitVec.ofNat 32 c.capHead
    caps := c.capList.map fun e => (e.1, e.2.1, versionAfter s e, e.2.2.2) }

/-- A row of a channel is retired (R441, R442): RETIRED rises. -/
def retireRow (channel row : Nat) (s : State) : State :=
  modPort (channel / 32) (fun p =>
    let key := channel % 32 * 2 ^ 32 + row % 2 ^ 32
    if p.retired.contains key || p.spared.contains key then p
    else
      let cap := p.capability.toNat
      { p with
        retired := p.retired ++ [key]
        capability := BitVec.ofNat 128 (cap % 2 ^ 64 + (bitsOf cap 64 16 + 1) % 2 ^ 16 * 2 ^ 64 + cap / 2 ^ 80 * 2 ^ 80) }) s

/-- Rows retired and moved to spares by SPARE scripts, as far as the stack has a command engine and spares (R443, R446, R451). -/
def repairRows (rows : List (Nat × Nat)) (s : State) : State :=
  rows.foldl (fun s r =>
    let s := retireRow r.1 r.2 s
    let k := r.1 / 32
    let cap := (s.port k).capability.toNat
    if bitsOf cap 80 8 = 0 ∨ bitsOf cap 56 8 = 0 then s else spareRow k (r.1 % 32 * 2 ^ 32 + r.2 % 2 ^ 32) s) s

/-- Links and lanes held out of service by a repair record (R446): the links go down, a link of which lanes are out runs at 4, the host port at 8. -/
def holdOut (links lanes : List Nat) (s : State) : State :=
  let s := (links.filter fun i => s.linkUp i && decide (i < 12)).foldl (fun s i => takeDown i s) { s with linksOut := links, lanesOut := lanes }
  let narrow (e : Link × Nat) : Link := if lanes.contains e.2 then { e.1 with lanes := 4 } else e.1
  { s with links := s.links.zipIdx.map narrow, hostlanes := if lanes.contains 22 then min s.hostlanes 8 else s.hostlanes }

/-- A verified record is applied (R446), and stands among those that run (R450). -/
def applyRecord (o : SignedObject) (s : State) : State :=
  let s := match o.body with
    | .image m _ => { s with minVersions := m }
    | .configuration c => applyConfig c s
    | .spareMap m n => { s with spareMap := [m, n] }
    | .repair rows links lanes => repairRows rows (holdOut links lanes s)
    | .identity key serial => { s with identity := key, serial := serial }
  { s with applied := (if o.kind = 1 then s.applied.filter fun a => a.kind != 1 else s.applied) ++ [o] }

/-- Whether a list is a spare map (R1, R2): a physical core of the 150 of a die behind each of its 144 logical cores, none twice. -/
def spareMapFits (m : List Nat) : Bool :=
  m.length == Config.coresPerDie && m.all (fun c => decide (c < Config.physicalPerDie)) && m.dedup.length == m.length

/-- Whether a body is of the KIND of its header, and the KIND is one of R445. A spare map that no die can have is none (log entry 70), and a
configuration gives the save pool at least 2 MiB for each core (R413, R446). -/
def kindFits (o : SignedObject) : Bool :=
  match o.body with
  | .image _ _ => o.kind == 1
  | .configuration c => o.kind == 2 && decide (2 ^ 21 ≤ c.poolPerCore)
  | .spareMap m n => o.kind == 3 && spareMapFits m && spareMapFits n
  | .repair _ _ _ => o.kind == 4
  | .identity _ _ => o.kind == 5

/-! ## Boot -/

/-- BOOTSTAT (R447). -/
def bootWord (step slot err : Nat) : Word := BitVec.ofNat 32 (step + slot * 8 + err * 16)

/-- STEP of BOOTSTAT. -/
def bootStep (s : State) : Nat := bitsOf s.bootstat.toNat 0 3

/-- A boot step fails (R444): ERR is reported, and boot starts again from step 2 after 10 s. -/
def bootFails (step slot err : Nat) (s : State) : State :=
  { s with bootstat := bootWord step slot err, retryAt := some (s.clock + 15000000000) }

/-- Links trained (R444 step 5), but for those that repair records hold out of service, and the host port at 8 lanes where lanes of it are held out
(R446). -/
def trainAll (s : State) : State :=
  { s with
    links := s.links.zipIdx.map fun e => if s.linksOut.contains e.2 then e.1 else e.1.started s.clock
    hostlanes := if s.lanesOut.contains 22 then 8 else 16 }

/-- Records placed in ascending VERSION within the order of their kinds (R452). -/
def placeRecord (o : SignedObject) : List SignedObject → List SignedObject
  | [] => [o]
  | p :: t => if o.kind < p.kind ∨ (o.kind = p.kind ∧ o.version < p.version) then o :: p :: t else p :: placeRecord o t

/-- The records of the frame table take their Reset value 0 (R11, R398). -/
def zeroFrames (s : State) : State :=
  let n := 8 * (packageCapacity s / 2 ^ 19)
  { s with stores := (((s.mem ++ s.stores).filter fun c => decide (s.frameTable ≤ c.1) && decide (c.1 < s.frameTable + n)).map fun c => (c.1, (0 : Byte))) ++ s.stores }

/-- The records that a manifest names, by KIND and VERSION, as far as the fetches have brought them (R444 step 4). -/
def named (manifest : List (Nat × Nat)) (objects : List SignedObject) : List SignedObject :=
  manifest.filterMap fun n => objects.find? fun o => o.kind == n.1 && o.version == n.2

/-- Steps 2 to 6 of the boot (R444). A record that the manifest names and that was not fetched fails step 4, and so does a manifest without a
configuration record, for no field whose Reset is L could be loaded (R11; log entry 84). The objects are those that the fetches bring, in their order: the
image of slot A first, or, where that fetch failed, slot B's after a record that stands before it. -/
def bootFrom2 (objects : List SignedObject) (s : State) : State :=
  let slot := match objects with
    | o :: _ => if o.kind = 1 then 0 else 1
    | [] => 0
  match objects.find? fun o => o.kind == 1 with
  | none => bootFails 1 0 1 s
  | some image =>
    let (min_, manifest) := match image.body with
      | .image m f => (m, f)
      | _ => ([], [])
    let records := (named manifest objects).foldl (fun l o => placeRecord o l) []
    if !Config.verifies image || !kindFits image then bootFails 2 slot 2 s
    else if decide (records.length < manifest.length) || !records.any (fun o => o.kind == 2) then bootFails 3 slot 1 s
    else if records.any fun o => !Config.verifies o || !kindFits o then bootFails 3 slot 2 s
    else if records.any fun o => o.version < look min_ o.kind 0 then bootFails 3 slot 3 s
    else if !Config.trains s.nfree then bootFails 4 slot 4 { s with nfree := s.nfree + 1 }
    else
      let s := zeroFrames ((image :: records).foldl (fun s o => applyRecord o s) { s with nfree := s.nfree + 1 })
      trainAll { s with bootstat := bootWord 6 slot 0, retryAt := none, slots := put s.slots slot image.version }

/-- The lines dirty in L2 are lost, and DRAM holds what it held before (R426). -/
def loseL2 (s : State) : State := (s.l2.filter fun e => e.dirty && !e.guest && regionOf (e.line * 256) == 0).foldl (fun s e => s.poke (e.line * 256) e.old) s

/-- The machine at the start of a boot (R444): every register at its Reset value; DRAM with its poison marks and raw bits, the choices made
so far and what has been sent stand. -/
def afterReset (t : State) : State :=
  let s := loseL2 t
  { State.reset with
    mem := s.mem, stores := s.stores, poison := s.poison, raws := s.raws
    nfree := s.nfree, nextUid := s.nextUid, out := s.out, inbox := s.inbox, bootstat := bootWord 1 0 0 }

/-- DEVICE_RESET (R444). -/
def execDeviceReset (objects : List SignedObject) (s : State) : Outcome := next (fun s => bootFrom2 objects (afterReset s)) s

/-- DEVCMD_RESET (R447). -/
def execDevcmdReset (objects : List SignedObject) (s : State) : Outcome := next (fun s => bootFrom2 objects (afterReset s)) s

/-- BOOT_RETRY (R444): 10 s after a step failed. -/
def execBootRetry (objects : List SignedObject) (s : State) : Outcome :=
  next (fun s => match s.retryAt with
    | some t => if t ≤ s.clock ∧ bootStep s < 6 then bootFrom2 objects { s with retryAt := none } else s
    | none => s) s

/-! ## Service -/

/-- Whether a record or image of a kind is accepted while running (R445, R451): verified, not below MINVER, and a configuration newer than what runs. -/
def acceptable (s : State) (kind : Nat) (o : SignedObject) : Bool :=
  o.kind == kind && kindFits o && Config.verifies o && decide (minVersion s kind ≤ o.version) && (kind != 2 || decide (versionOf s kind < o.version))

/-- Records of one kind that have arrived together (R452): those still in the inbox with a lower VERSION than one that lands, in ascending order, which
leave the inbox. -/
def arrivedWith (sel : Instr → Option SignedObject) (o : SignedObject) (s : State) : List SignedObject × State :=
  let lower (i : Instr) : Bool := match sel i with
    | some r => decide (r.version < o.version)
    | none => false
  (((s.inbox.filter lower).filterMap sel).foldl (fun l r => placeRecord r l) [], { s with inbox := s.inbox.filter fun i => !lower i })

/-- An image that is accepted goes to the inactive slot, and the four control cores begin to restart onto it (R1, R451). -/
def takeImage (image : SignedObject) (s : State) : State :=
  if acceptable s 1 image then
    let slot := 1 - bitsOf s.bootstat.toNat 3 1
    renewCaps s { s with slots := put s.slots slot image.version, restarting := some (4, image) }
  else s

/-- FIRMWARE_UPDATE (R451). -/
def execFirmwareUpdate (image : SignedObject) (s : State) : Outcome :=
  let sel (i : Instr) : Option SignedObject := match i with
    | .firmwareUpdate o => some o
    | _ => none
  next (fun s => let (l, s) := arrivedWith sel image s; (l ++ [image]).foldl (fun s o => takeImage o s) s) s

/-- The next control core restarts; after the last the new image runs and its slot is the active one (R451). -/
def restartNext (s : State) : State :=
  match s.restarting with
  | none => s
  | some (n, o) =>
    if 1 < n then { s with restarting := some (n - 1, o) }
    else
      let s := applyRecord o { s with restarting := none }
      { s with bootstat := bootWord (bootStep s) (1 - bitsOf s.bootstat.toNat 3 1) 0 }

/-- CONFIGURATION_RECORD (R451, R452): the fields are rewritten. -/
def execConfigurationRecord (record : SignedObject) (s : State) : Outcome :=
  let sel (i : Instr) : Option SignedObject := match i with
    | .configurationRecord o => some o
    | _ => none
  next (fun s =>
    let (l, s) := arrivedWith sel record s
    (l ++ [record]).foldl (fun s o => if acceptable s 2 o then applyRecord o s else s) s) s

/-- ROW_SPARING (R451, R452). -/
def execRowSparing (record : SignedObject) (s : State) : Outcome :=
  let sel (i : Instr) : Option SignedObject := match i with
    | .rowSparing o => some o
    | _ => none
  next (fun s =>
    let (l, s) := arrivedWith sel record s
    (l ++ [record]).foldl (fun s o => if acceptable s 4 o then renewCaps s (applyRecord o s) else s) s) s

/-- A core is swapped (R451): it admits nothing, its groups are saved, and once none is left the spare map applies and the core takes groups again; till
then the swap waits. -/
def swapCore (core : Nat) (record : SignedObject) (s : State) : State :=
  let waited := s.swaps.contains (core, record)
  let s := { s with swaps := s.swaps.filter fun e => e != (core, record) }
  if !acceptable s 3 record then (if waited then s.modCore core fun c => { c with open_ := true } else s)
  else
    let s := s.modCore core fun c => { c with open_ := false }
    let s := ((s.resident core).map (·.uid)).foldl (fun s u => onGroup u saveGroup (beginSave false u s)) s
    if s.resident core = [] then renewCaps s ((applyRecord record s).modCore core fun c => { c with open_ := true })
    else { s with swaps := s.swaps ++ [(core, record)] }

/-- SPARE_CORE_SWAP (R451, R452): of spare maps that arrive together for one core the last stands. -/
def execSpareCoreSwap (core : Nat) (record : SignedObject) (s : State) : Outcome :=
  let sel (i : Instr) : Option SignedObject := match i with
    | .spareCoreSwap c o => if c = core then some o else none
    | _ => none
  next (fun s => let (l, s) := arrivedWith sel record s; (l ++ [record]).foldl (fun s o => swapCore core o s) s) s

/-! ## Attestation -/

/-- ATTESTATION_NONCE (R450): a report starts; a nonce before READY replaces the first. -/
def execAttestationNonce (nonce : BitVec 256) (s : State) : Outcome :=
  next (fun s => { s with attestation := ⟨nonce, true, false, []⟩ }) s

/-- ATTESTATION_REPORT_READY (R450): the nonce, KIND, VERSION and digest of the running image and of every applied record, the serial number, and the
signature over them. -/
def execAttestationReportReady (s : State) : Outcome :=
  next (fun s =>
    if s.attestation.busy then
      let line (o : SignedObject) : List Byte := leBytes 4 o.kind ++ leBytes 4 o.version ++ Config.digest o
      let head := leBytes 32 s.attestation.nonce.toNat ++ s.applied.flatMap line ++ leBytes 8 s.serial
      let report := head ++ Config.signature s.identity s.nfree head
      { s with attestation := ⟨s.attestation.nonce, false, true, report⟩, nfree := s.nfree + 1 }
    else s) s

/-! ## Contexts -/

/-- A created context: its words at their Reset values (R448). -/
def freshContext : Context := { Context.blank with state := .live }

/-- CTXCTL_CREATE (R448). -/
def execCtxctlCreate (ctx : Nat) (s : State) : Outcome :=
  next (fun s => if ctx < 65536 ∧ (s.ctx ctx).state = .free then s.modCtx ctx fun _ => freshContext else s) s

/-- Step 1 of a teardown begins (R448): every running descriptor is cancelled. -/
def tearDown (ctx : Nat) (s : State) : State :=
  if (s.ctx ctx).state = .live then
    let s := s.modCtx ctx fun c => { c with state := .tearing }
    ((s.owned.filter fun o => o.ctx == ctx && o.running).map (·.desc)).foldl (fun s d => cancelTree ctx d 1 s) s
  else s

/-- CTXCTL_TEAR_DOWN (R448). -/
def execCtxctlTearDown (ctx : Nat) (s : State) : Outcome := next (tearDown ctx) s

/-- Whether every group of a context has stopped and every engine command has completed (R448 step 1). -/
def contextQuiet (s : State) (ctx : Nat) : Bool :=
  !(s.groups.any fun g => g.task.ctx == ctx) && !(s.fabrics.any fun f => f.ctx == ctx) && !(s.gathers.any fun g => g.ctx == ctx) &&
    !(migrationsOf s).any fun m => m.ctx == ctx

/-- The pages of a context: those that its tables map, and those that its cached translations still name. -/
def pagesOf (ctx : Nat) (s : State) : List (Nat × Nat) :=
  (((leavesOf ctx s).filter fun l => l.2.remote.isNone).map (fun l => (l.2.pa, l.2.size)) ++ (s.tlb.filter fun e => e.ctx == ctx).map TlbEntry.frames).dedup

/-- Whether the host or a peer maps a byte of a physical page: a CXL.mem range or a lease covers it, or one of them shares a line of it (R379, R390, R428). -/
def mappedOutside (s : State) (pa size : Nat) : Bool :=
  leased s pa size || (s.cxlRanges.any fun r => meets r.1 r.2 pa size) ||
    s.regions.any fun r => meets (r.region * 4096) 4096 pa size && outside r.vec != 0

/-- Whether the page of an entry's destination is still mapped by another context, by the host or by a peer (R379). -/
def heldElsewhere (s : State) (ctx : Nat) (e : Alias) : Bool :=
  let pages := ((mappings s).filter fun m => inRange m.2.2.pa m.2.2.size e.dst).map fun m => (m.2.2.pa, m.2.2.size)
  ((mappings s).any fun m => m.1 != ctx && inRange m.2.2.pa m.2.2.size e.dst) ||
    (s.tlb.any fun t => t.ctx != ctx && inRange t.pa t.size e.dst) ||
    ((pages ++ [(e.dst / 2 ^ 19 * 2 ^ 19, 2 ^ 19)]).any fun p => mappedOutside s p.1 p.2)

/-- Steps 2 to 4 of a teardown (R202, R245, R379, R448). -/
def closePages (ctx : Nat) (rs : List (Nat × Nat)) (s : State) : State :=
  let s := ((s.bands.map (·.line)).filter fun l => within rs (l * 256)).foldl (fun s l => roundLine l s) s
  let s := s.modCtx ctx fun c => { c with shadows := [] }
  let s := ((s.aliases.filter fun e => e.ctx == ctx).filter (heldElsewhere s ctx)).foldl (fun s e => materialise e s) s
  { s with aliases := s.aliases.filter fun e => e.ctx != ctx }

/-- Steps 2 to 6 of a teardown (R379, R394, R403, R448). -/
def endTearDown (ctx : Nat) (s : State) : State :=
  if (s.ctx ctx).state ≠ .tearing ∨ contextQuiet s ctx = false then s
  else
    let rs := pagesOf ctx s
    let s := closePages ctx rs s
    let uses (u : LeaseUse) : Bool := u.ctx == ctx
    let held := (leasesOnly uses s).map fun l => ((2 + l.1) * 2 ^ 48 + l.2.2 / 4 * 2 ^ 19, 2 ^ 19)
    let out := (rs ++ leasesNamed 1 ctx 0 s).dedup.filter fun r => leased s r.1 r.2
    if out ≠ [] then out.foldl (fun s r => recallIn r.1 r.2 s) s
    else match drainWithin (rs ++ held) s with
      | (s, true) => s
      | (s, false) =>
        let s := dropUses uses (dropEntries (s.tlb.filter fun e => e.ctx == ctx) s)
        let cut (d : Die) : Die := { d with kernels := d.kernels.filter fun k => k.ctx != ctx }
        let s := ({ s with combs := s.combs.filter fun c => c.ctx != ctx }.modDie 0 cut).modDie 1 cut
        settleUnmapped (s.modCtx ctx fun c => { c with state := .free })

/-- CONTEXT_TEARDOWN_DONE (R448). -/
def execContextTeardownDone (ctx : Nat) (s : State) : Outcome := next (endTearDown ctx) s

/-! ## The host -/

/-- RESULT of a host submission stands (R429). -/
def hostResult (code : Nat) (s : State) : State := { s with hostresult := code, hostbusy := none }.send (.msix 4)

/-- The die that homes a descriptor's first byte (R351, R429); die 0 where it cannot be translated. -/
def homeDie (ctx : Nat) (d : DWord) (s : State) : Nat :=
  match (translate (schedTlb 0) ctx .load d.toNat s).2 with
  | .ok pa _ => sliceOf pa / Config.slicesPerDie
  | _ => 0

/-- A host submission is tried (R429): at the first translation fault of an address a record of KIND 5 is written and awaited; at the second, or with no
fault queue, the code is 2. While the control cores restart it waits (R451). -/
def trySubmit (h : HostSubmit) (s : State) : State :=
  if s.restarting.isSome then { s with hostbusy := some h } else
  match submitDesc (homeDie h.ctx h.desc s) h.ctx true h.desc s with
  | (s, .code n) => hostResult n s
  | (s, .wait) => { s with hostbusy := some { h with waits := none } }
  | (s, .fault _ _ a) =>
    if h.seen.contains a ∨ (s.ctx h.ctx).fqbase = 0 then hostResult 2 s
    else
      let slot := (s.ctx h.ctx).fqprod
      match writeSingle h.ctx (BitVec.ofNat 64 a) 5 s with
      | (s, false) => { s with hostbusy := some { h with waits := some slot, seen := a :: h.seen } }
      | (s, true) => { s with hostbusy := some { h with waits := none } }

/-- HOSTSUB (R429): ignored while BUSY is 1. -/
def execHostsub (value : BitVec 64) (s : State) : Outcome :=
  next (fun s =>
    if s.hostbusy.isSome then s
    else
      let h : HostSubmit := ⟨BitVec.ofNat 64 (bitsOf value.toNat 6 50 * 64), s.hostctx, none, []⟩
      trySubmit h { s with hostbusy := some h }) s

/-- HOST_SUBMIT_RETRY (R429): a waiting submission goes on, after a served record for the second time. -/
def retrySubmit (s : State) : State :=
  match s.hostbusy with
  | none => s
  | some h => match h.waits with
    | none => trySubmit h s
    | some slot => if slotServed s h.ctx slot then trySubmit { h with waits := none } s else s

/-- HOST_SUBMIT_RETRY (R429). -/
def execHostSubmitRetry (s : State) : Outcome := next retrySubmit s

/-- The host's rejoin (R362, R429): ignored while its link is down. -/
def hostRejoins (s : State) : State := if s.hostlanes = 0 then s else { s with contstat := s.contstat &&& ~~~2 }

/-- HOSTSTAT_REJOIN (R429). -/
def execHoststatRejoin (s : State) : Outcome := next hostRejoins s

/-- The bytes that a host access names: a CAS brings two operands of that width. -/
def hostWidth (kind : Nat) (data : List Byte) : Nat := if kind = 4 then data.length / 2 else data.length

/-- A host access to device memory at the home slice (R307, R428): kind 0 reads as many bytes as data has, 1 writes, 2, 3 and 4 are
FetchAdd, Swap and CAS of 32 or 64 bits; a fenced host is refused (R361), and so is an access outside the CXL.mem ranges (log entry 46). The answer
carries the request's 14-bit tag (R427). -/
def hostAct (tag kind addr : Nat) (data : List Byte) (s : State) : State :=
  let n := data.length
  let mapped := s.cxlRanges.any fun r => r.1 ≤ addr && addr + hostWidth kind data ≤ r.1 + r.2
  if fenced s 1 ∨ n = 0 ∨ mapped = false then s.send (.host tag 3 [])
  else match kind with
    | 0 =>
      let (s, bs, bad) := homeRead .host addr n s
      s.send (.host tag (if bad then 2 else 0) (if bad then [] else bs))
    | 1 => agentWrite 1 0 addr tag data s
    | 2 => if n = 4 ∨ n = 8 then agentWrite 1 1 addr tag (data ++ List.replicate n 0) s else s.send (.host tag 3 [])
    | 3 => if n = 4 ∨ n = 8 then agentWrite 1 7 addr tag (data ++ List.replicate n 0) s else s.send (.host tag 3 [])
    | 4 => if n = 8 ∨ n = 16 then agentWrite 1 8 addr tag data s else s.send (.host tag 3 [])
    | _ => s.send (.host tag 3 [])

/-- HOST_ACCESS (R428): an address outside device memory is no address of the access. -/
def execHostAccess (head : Nat × Nat) (addr : Nat) (data : List (BitVec 8)) (s : State) : Outcome :=
  if 2 ^ 48 < addr + hostWidth head.2 data then .fault .noSuchAddress else next (hostAct (head.1 % 2 ^ 14) head.2 addr data) s

end Sys2Proof.Machine
end

