-- ==== Sys2Proof/Machine/System.lean ====
section
/-! DEFINITION. gets and sets: the special registers of R28 (R33 to R38, R266 to R268). -/

namespace Sys2Proof.Machine

/-! ## Reading -/

/-- %budget (R38, R267): what the job that contains the launch has left; all ones in a bulk-class job. -/
def budgetOf (s : State) : DWord :=
  match jobOf s s.ctxNo s.grp.task.launch with
  | some j => if j.latency then BitVec.ofNat 64 (((entryOf s j.ctx j.desc).map (·.budget)).getD 0) else ~~~0
  | none => ~~~0

/-- The value of a special register as a lane reads it (R28). -/
def specialValue (n : Nat) (s : State) (l : Fin 32) : DWord :=
  let w := s.w
  let nat (x : Nat) : DWord := BitVec.ofNat 64 x
  if 0x10 ≤ n ∧ n < 0x1C then (w.rdK (n - 0x10)).setWidth 64
  else if 0x1C ≤ n ∧ n < 0x20 then w.h[(Fin.ofNat 4 (n - 0x1C))]
  else match n with
    | 0x00 => nat l.val
    | 0x01 => nat w.idx
    | 0x02 => nat s.grp.slot
    | 0x03 => nat (s.coreNo % 12)
    | 0x04 => nat (s.coreNo % Config.coresPerDie / 12)
    | 0x05 => nat s.dieNo
    | 0x08 => s.grp.allot
    | 0x20 => (s.core s.coreNo).tagmap &&& s.grp.tags
    | 0x21 => nat w.fairness
    | 0x22 => nat (progressWord w)
    | 0x30 => nat (s.ctx s.ctxNo).quota
    | 0x31 => nat (aliasUsed s s.ctxNo)
    | 0x32 => nat (s.ctx s.ctxNo).ceiling
    | 0x40 => w.retcode[l].setWidth 64
    | 0x50 => w.trapcause.setWidth 64
    | 0x51 => w.trapaddr
    | 0x52 => w.trapmask.setWidth 64
    | 0x53 => w.trappc
    | 0x54 => w.trapent[l]
    | 0x60 => budgetOf s
    | 0x61 => nat s.clock
    | _ => 0

/-- The lane form of gets (R267): each enabled lane its own value. -/
def getsLane (d : Fin 128) (n : Nat) (x : Exec) (s : State) : State :=
  if specialWide n then s.modW fun w => w.wrVV d x.en (specialValue n s)
  else s.modW fun w => w.wrV d x.en fun l => loWord (specialValue n s l)

/-- The destination of a pending instruction that a special register names (R36, R57). -/
def specialReg (n : Nat) : List Reg := if n = 0x40 then [.retcode] else []

/-- gets of the lane set (R267). -/
def execGets (d : Fin 128) (n : Fin 512) (s : State) : Outcome :=
  issue { reads := specialReg n.val, writes := if specialWide n.val then vPair d else vReg d } (getsLane d n.val) s

/-- The group form of gets (R28, R267): a per-lane register yields the value of the lowest lane of the run. -/
def getsGroup (d : Fin 128) (n : Nat) (x : Exec) (s : State) : State :=
  let v := specialValue n s ((lowest x.run).getD 0)
  if specialWide n then s.wrSS d v else s.wrS d (loWord v)

/-- gets of the group set (R267). -/
def execGGets (d : Fin 128) (n : Fin 512) (s : State) : Outcome :=
  issue { reads := specialReg n.val, writes := if specialWide n.val then sPair d else sReg d, perLane := false } (getsGroup d n.val) s

/-! ## Writing -/

/-- %aliasquota as stored (R35). -/
def clampQuota (ceiling x : Nat) : Nat := if x = 0 then 1 else min x ceiling

/-- %aliasceiling as stored (R367). -/
def clampCeiling (x : Nat) : Nat := if x = 0 then 1 else min x 81920

/-- CEILING of a context written; the quota follows it down (R35). -/
def setCeiling (x : Nat) (c : Context) : Context := { c with ceiling := clampCeiling x, quota := min c.quota (clampCeiling x) }

/-- The writable bits of %trapcause (R37). -/
def trapCauseBits (x : DWord) : Word := loWord x &&& 0x1FFF

/-- A PC-table entry as stored: bit 0 of its PC and the reserved bit stay 0 (R8, R24). -/
def entryBits (x : DWord) : DWord := x &&& 0xF7FFFFFFFFFFFFFE

/-- A special register written by the lanes of a run (R268), each with its own value; a read-only one ignores it (R10). -/
def writeSpecial (n : Nat) (f : Fin 32 → DWord) (x : Exec) (s : State) : State :=
  let v := f ((lowest x.run).getD 0)
  if 0x10 ≤ n ∧ n < 0x1C then
    let k := n - 0x10
    s.modW fun w => if s.inHandler then w.wrK k (loWord v) else (w.wrK k (loWord v)).release k
  else if 0x1C ≤ n ∧ n < 0x20 then s.modW fun w => { w with h := w.h.set (Fin.ofNat 4 (n - 0x1C)) v }
  else match n with
    | 0x20 => s.modCore s.coreNo fun c => { c with tagmap := c.tagmap &&& ~~~(v &&& s.grp.tags) }
    | 0x21 => s.modW fun w => { w with fairness := clampFair (bitsOf v.toNat 0 11) }
    | 0x30 => s.modCtx s.ctxNo fun c => { c with quota := clampQuota c.ceiling (loWord v).toNat }
    | 0x32 => s.modCtx s.ctxNo (setCeiling (loWord v).toNat)
    | 0x50 => s.modW fun w => { w with trapcause := trapCauseBits v }
    | 0x52 => s.modW fun w => { w with trapmask := loWord v &&& w.handlerLanes }
    | 0x53 => s.modW fun w => { w with trappc := v }
    | 0x54 => s.modW fun w => { w with trapent := Lanes.ofFn fun l => if bit x.en l then entryBits (f l) else w.trapent[l] }
    | _ => s

/-- The registers whose writes need a running handler (R266). -/
def handlerSpecial (n : Nat) : Bool := n == 0x50 || n == 0x52 || n == 0x53 || n == 0x54

/-- The source of sets (R268): LSRC 1 names a lane register or pair. -/
def setsReads (n : Nat) (a : Fin 128) (lane : Bool) : List Reg :=
  match lane, specialWide n with
  | true, true => vPair a
  | true, false => vReg a
  | false, true => sPair a
  | false, false => sReg a

/-- The value that sets writes in a lane. -/
def setsValue (n : Nat) (a : Fin 128) (lane : Bool) (s : State) (l : Fin 32) : DWord :=
  match lane, specialWide n with
  | true, true => s.w.rdVV a l
  | true, false => (s.w.rdV a l).setWidth 64
  | false, true => s.rdSS a
  | false, false => (s.rdS a).setWidth 64

/-- sets (R268); %retcode is a field that it names, though the write is ignored (R10, R57). -/
def execSets (a : Fin 128) (n : Fin 512) (x : Fin 2) (s : State) : Outcome :=
  issue { reads := setsReads n.val a (x == 1), names := specialReg n.val, perLane := false, kind := .effect, privileged := n.val == 0x32
          handlerOnly := handlerSpecial n.val }
    (fun e s => writeSpecial n.val (setsValue n.val a (x == 1) s) e s) s

end Sys2Proof.Machine
end

