-- ==== Sys2Proof/Machine/Window.lean ====
section
/-! DEFINITION. The management window (R447): reads and writes of the registers in it, under the access codes of R10, and the two
internal events of a wave that no other file holds, a completion (R56) and a handler's entry (R407). -/

namespace Sys2Proof.Machine

/-! ## Registers as stored -/

/-- SCHEDCFG after a write (R331): BALTHR at least 1, RESV at most 144, FLOOR as it is. -/
def storedSchedcfg (old : DWord) (x : Nat) : DWord :=
  BitVec.ofNat 64 (max 1 (bitsOf x 0 8) + min 144 (bitsOf x 8 8) * 2 ^ 8 + bitsOf x 16 2 * 2 ^ 16 + bitsOf old.toNat 18 1 * 2 ^ 18 +
    bitsOf x 32 16 * 2 ^ 32)

/-- A log entry with VALID cleared where the write has a 1 there (R10, R364, R421). -/
def clearValid (n x : Nat) (r : Ring) : Ring :=
  if testBit x 63 then { r with slots := modAt r.slots n fun e => (e.1 &&& ~~~(BitVec.twoPow 64 63), e.2) } else r

/-- ERRSTAT after a write (R421): CORR, UNCORR and LOST. -/
def storedErrstat (x : Nat) : DWord := BitVec.ofNat 64 (x % 2 ^ 56)

/-- CONTSTAT after a write (R364): LOST, with FENCED as it is. -/
def storedContstat (old : Word) (x : Nat) : Word := BitVec.ofNat 32 (bitsOf old.toNat 0 14 + bitsOf x 16 8 * 2 ^ 16)

/-- GLOWSTAT after a write (R416): MISMATCH bits that the write has at 1 clear, EVENTS takes the write's value. -/
def storedGlowstat (old : DWord) (x : Nat) : DWord :=
  BitVec.ofNat 64 (((old &&& ~~~(BitVec.ofNat 64 x)).toNat % 2 ^ 22) + bitsOf x 24 8 * 2 ^ 24)

/-- WEEVILCFG after a write (R422): PERIOD at least 1, EN, ROWPTR as it is. -/
def storedWeevil (old : DWord) (x : Nat) : DWord :=
  BitVec.ofNat 64 (max 1 (bitsOf x 0 8) + bitsOf x 8 1 * 2 ^ 8 + bitsOf old.toNat 32 32 * 2 ^ 32)

/-- A context's fault queue starts afresh (R380, R388). -/
def restartQueue (c : Context) : Context := { c with fqprod := 0, fqcount := 0 }

/-- CTXALIAS after a write (R367). -/
def writeCtxalias (x : Nat) (c : Context) : Context :=
  setCeiling (bitsOf x 33 17) { c with hot := max 1 (bitsOf x 0 8), basedie := testBit x 8 }

/-- A privileged write of a word of a context block (R367, R380, R410); CTXCTL is written by its own commands (R448). DESIGN CHOICE (log entry 71): bit 0
of DEFHANDLER, which the manual only calls 2-byte aligned, is dropped. -/
def writeBlock (word x : Nat) (c : Context) : Context :=
  match word with
  | 0 => { c with root := BitVec.ofNat 64 x }
  | 1 => { c with comb := BitVec.ofNat 64 x }
  | 2 => restartQueue { c with fqbase := BitVec.ofNat 64 x }
  | 3 => restartQueue { c with fqsize := bitsOf x 0 4 }
  | 4 => writeCtxalias x c
  | 5 => { c with defhandler := BitVec.ofNat 56 (x / 2 * 2) }
  | _ => c

/-- The frame record after a privileged write (R398): REFS and SHARED; MIG and LEASES as they are. -/
def storedFrame (old x : Nat) : Nat := bitsOf x 0 17 + bitsOf old 17 13 * 2 ^ 17

/-! ## Writes -/

/-- HOSTSTAT (R429): CTX, and REJOIN sends the host's rejoin. -/
def writeHoststat (x : Nat) (s : State) : State :=
  let s := { s with hostctx := bitsOf x 0 16 }
  if testBit x 19 then hostRejoins s else s

/-- DEVCMD (R447): FREEZE first, then RESET, after which the boot waits for what its fetches bring (BOOT_RETRY). -/
def devcmd (x : Nat) (s : State) : State :=
  let s := if testBit x 1 then freeze s else s
  if testBit x 0 then { afterReset s with retryAt := some 0 } else s

/-- The base (word 0) or the length (word 1) of one of 16 CXL.mem ranges (R428; log entry 46). -/
def writeRange (n word x : Nat) (s : State) : State :=
  let all := s.cxlRanges ++ List.replicate (n + 1 - s.cxlRanges.length) (0, 0)
  { s with cxlRanges := modAt all n fun r => if word = 0 then (x, r.2) else (r.1, x) }

/-- A privileged write of a register at its window offset (R447), of 8 bytes, or of 2 for a GLOWTOTAL (R416). An offset that holds no register, and one whose fields are all RO, keep
everything as it is (R10). -/
def windowWrite (off : Nat) (v : DWord) (s : State) : State :=
  let x := v.toNat
  if off = 0x10 then devcmd x s
  else if off = 0x1008 then writeHoststat x s
  else if 0x2000 ≤ off ∧ off < 0x2100 ∧ off % 8 = 0 then writeRange ((off - 0x2000) / 16) ((off - 0x2000) % 16 / 8) x s
  else if off = 0x100000 ∨ off = 0x200000 then s.modDie (off / 0x100000 - 1) fun d => { d with schedcfg := storedSchedcfg d.schedcfg x }
  else if off = 0x100008 ∨ off = 0x200008 then writeCohcfg (off / 0x100000 - 1) (x % 2 ^ 32) s
  else if 0x300000 ≤ off ∧ off < 0x300100 ∧ off % 16 = 0 then { s with contlog := clearValid ((off - 0x300000) / 16) x s.contlog }
  else if off = 0x300100 then { s with contstat := storedContstat s.contstat x }
  else if off = 0x300108 then { s with errstat := storedErrstat x }
  else if off = 0x300110 then { s with glowstat := storedGlowstat s.glowstat x }
  else if 0x300200 ≤ off ∧ off < 0x300400 ∧ off % 16 = 0 then { s with errlog := clearValid ((off - 0x300200) / 16) x s.errlog }
  else if 0x300400 ≤ off ∧ off < 0x300400 + 2 * 22 ∧ off % 2 = 0 then
    { s with glowtotal := modAt s.glowtotal ((off - 0x300400) / 2) fun _ => bitsOf x 0 16 }
  else if 0x400000 ≤ off ∧ off < 0x400800 ∧ off % 8 = 0 then
    let ch := (off - 0x400000) / 8
    { s with weevil := put s.weevil ch (storedWeevil (weevilCfg s ch) x) }
  else if 0x1000000 ≤ off ∧ off < 0x1400000 ∧ off % 8 = 0 then
    s.modCtx ((off - 0x1000000) / 64) (writeBlock ((off - 0x1000000) % 64 / 8) x)
  else if 0x2400000 ≤ off ∧ off % 8 = 0 ∧ (off - 0x2400000) / 8 * 2 ^ 19 < packageCapacity s then
    let pa := (off - 0x2400000) / 8 * 2 ^ 19
    setFrame pa (storedFrame (frameRec s pa) x) s
  else s

/-- REGISTER_WRITE (R10): an unprivileged write leaves a field of code P as it is; of the registers here only CTX and REJOIN of
HOSTSTAT and the W1C bits have none (R416, R421, R429). -/
def registerWrite (privileged : Bool) (off : Nat) (v : DWord) (s : State) : State :=
  let x := v.toNat
  if privileged then windowWrite off v s
  else if off = 0x1008 then writeHoststat x s
  else if 0x300000 ≤ off ∧ off < 0x300100 ∧ off % 16 = 0 then { s with contlog := clearValid ((off - 0x300000) / 16) x s.contlog }
  else if off = 0x300110 then { s with glowstat := s.glowstat &&& ~~~(v &&& 0x3FFFFF) }
  else if 0x300200 ≤ off ∧ off < 0x300400 ∧ off % 16 = 0 then { s with errlog := clearValid ((off - 0x300200) / 16) x s.errlog }
  else s

/-- REGISTER_WRITE (R10). -/
def execRegisterWrite (privileged : Bool) (offset : Nat) (value : BitVec 64) (s : State) : Outcome :=
  next (registerWrite privileged offset value) s

/-! ## Reads -/

/-- A word of a context block (R367, R380, R410, R448). -/
def readBlock (word : Nat) (c : Context) : DWord :=
  let state : Nat := match c.state with
    | .free => 0
    | .live => 1
    | .tearing => 2
  match word with
  | 0 => c.root
  | 1 => c.comb
  | 2 => c.fqbase
  | 3 => BitVec.ofNat 64 (c.fqsize % 16 + c.fqprod % 2 ^ 32 * 2 ^ 32)
  | 4 => BitVec.ofNat 64 (c.hot + (if c.basedie then 256 else 0) + c.quota * 2 ^ 16 + c.ceiling * 2 ^ 33)
  | 5 => BitVec.ofNat 64 (c.defhandler.toNat + if c.defhandler = 0 then 2 ^ 63 else 0)
  | 6 => BitVec.ofNat 64 (state * 4)
  | _ => 0

/-- A word of a Scarab entry in the layout of R365; a free one reads VALID 0. -/
def readScarab (word : Nat) (e : Option Alias) : DWord :=
  match e with
  | none => 0
  | some e => match word with
    | 0 => BitVec.ofNat 64 (1 + (if e.busy then 2 else 0) + e.dst % 256 * 2 ^ 8 + e.len * 2 ^ 16 + e.ctx * 2 ^ 32 + min e.reads 255 * 2 ^ 48)
    | 1 => BitVec.ofNat 64 (e.dst / 256 % 2 ^ 44)
    | 2 => BitVec.ofNat 64 (e.src % 2 ^ 52)
    | _ => 0

/-- The header of a capability entry (R449), and the bytes of its body. -/
def capBytes (c : Nat × Nat × Nat × List Byte) (after : Nat) : List Byte :=
  leBytes 2 c.2.1 ++ leBytes 2 (c.2.2.1 % 256) ++ leBytes 4 c.2.2.2.length ++ leBytes 4 after ++ leBytes 4 0 ++ c.2.2.2

/-- The capability list as the window holds it: the entries by offset, each naming the next (R449). -/
def capWindow : List (Nat × Nat × Nat × List Byte) → Nat → DWord
  | [], _ => 0
  | c :: t, off =>
    let after := (t.head?.map (·.1)).getD 0
    let bs := capBytes c after
    if c.1 ≤ off ∧ off < c.1 + bs.length then BitVec.ofNat 64 (leNat ((bs.drop (off - c.1)).take 8)) else capWindow t off

/-- What 8 bytes at a window offset read as (R447); write-only fields and reserved bits read 0 (R10). -/
def windowRead (off : Nat) (s : State) : DWord :=
  if off = 0 then s.bootstat.setWidth 64
  else if off = 8 then s.caphead.setWidth 64
  else if 0x2000 ≤ off ∧ off < 0x2100 ∧ off % 8 = 0 then
    let r := s.cxlRanges.getD ((off - 0x2000) / 16) (0, 0)
    BitVec.ofNat 64 (if off % 16 = 0 then r.1 else r.2)
  else if off = 0x1008 then BitVec.ofNat 64 (s.hostctx + s.hostresult * 2 ^ 16 + if s.hostbusy.isSome then 2 ^ 18 else 0)
  else if 0x10000 ≤ off ∧ off < 0x100000 then capWindow (capList s) off
  else if off = 0x100000 ∨ off = 0x200000 then (s.die (off / 0x100000 - 1)).schedcfg
  else if off = 0x100008 ∨ off = 0x200008 then (s.die (off / 0x100000 - 1)).cohcfg.setWidth 64
  else if 0x300000 ≤ off ∧ off < 0x300100 then
    let e := s.contlog.slots.getD ((off - 0x300000) / 16) (0, 0)
    if off % 16 = 0 then e.1 else if off % 16 = 8 then e.2 else 0
  else if off = 0x300100 then s.contstat.setWidth 64
  else if off = 0x300108 then s.errstat
  else if off = 0x300110 then s.glowstat
  else if 0x300200 ≤ off ∧ off < 0x300400 then
    let e := s.errlog.slots.getD ((off - 0x300200) / 16) (0, 0)
    if off % 16 = 0 then e.1 else if off % 16 = 8 then e.2 else 0
  else if 0x300400 ≤ off ∧ off < 0x300400 + 2 * 22 then
    BitVec.ofNat 64 (leNat (((List.range 4).flatMap fun i => leBytes 2 (s.glowtotal.getD ((off - 0x300400) / 2 + i) 0))))
  else if 0x400000 ≤ off ∧ off < 0x400800 then weevilCfg s ((off - 0x400000) / 8)
  else if 0x1000000 ≤ off ∧ off < 0x1400000 then readBlock ((off - 0x1000000) % 64 / 8) (s.ctx ((off - 0x1000000) / 64))
  else if 0x2000000 ≤ off ∧ off < 0x2400000 then
    let i := (off - 0x2000000) / 32
    readScarab ((off - 0x2000000) % 32 / 8) (s.aliases.find? fun e => sliceOf e.dst == i / 256 && e.slot == i % 256)
  else if 0x2400000 ≤ off ∧ (off - 0x2400000) / 8 * 2 ^ 19 < packageCapacity s then BitVec.ofNat 64 (frameRec s ((off - 0x2400000) / 8 * 2 ^ 19))
  else 0

/-! ## Read-out -/

/-- Group-set registers, lane registers, cells and side registers of a group as 32-bit words (R12, R20). -/
def registerWords (g : Group) : List Word := g.s.toList ++ g.all.flatMap fun w => w.v.toList.flatMap (·.toList)
def tileWords (g : Group) : List Word :=
  g.all.flatMap fun w => w.tiles.toList.flatMap fun t => t.rows.toList.flatMap fun r => r.cells.toList ++ [r.max, r.sum]

/-- What the control cores of a frozen device read out of an array of R418, on the way of the issuing group (R426): the raw data of its index-th unit
with its check bits, and its poison mark. The tables behind the codes 8 and 9 are read as the fields that the state holds. -/
def readArray (array index : Nat) (s : State) : List Byte × List Byte × Bool :=
  let data : List Byte × Bool := match array with
    | 0 => (storedRaw s index, burstMarks s index != 0)
    | 1 => (s.bytes (index / 8 * 8) 8, s.poison.any fun w => w / 8 == index / 8)
    | 2 => (match (s.core s.coreNo).word index with
        | some w => leBytes 4 w.val.toNat
        | none => [], false)
    | 3 => (s.grp.scratch.bytes (wordOf index) 4, s.grp.scratchPoison.contains (wordOf index))
    | 4 => (s.grp.obuf.bytes (1024 * index) 1024, s.grp.obufPoison.contains index)
    | 5 => (leBytes 4 ((registerWords s.grp).getD index 0).toNat, false)
    | 6 => (leBytes 4 ((tileWords s.grp).getD index 0).toNat, false)
    | 7 => (leBytes 2 (look (s.core s.coreNo).icache index 0).toNat, false)
    | _ => ([], false)
  (data.1, Config.checkBits array data.1, data.2)

/-! ## Events of a wave -/

/-- The pending instructions of a wave that wait only for their own time. -/
def timed (w : Wave) : List Pending := w.pending.filter fun p => p.on == .time

/-- LONG_LATENCY_COMPLETION (R56): of the i-th such instruction of the issuing wave. -/
def execLongLatencyCompletion (i : Nat) (s : State) : Outcome :=
  next (fun s => match (timed s.w)[i]? with
    | some p => completePending p s
    | none => s) s

/-- Whether the first queued sub-wave may enter its handler (R387, R388, R407): no handler runs, nothing is pending for its lanes, its run-ahead
has ended and its records are written. -/
def entryDue (w : Wave) : Bool :=
  w.handler.isNone && w.batch.isEmpty && !w.aheadDue && match w.subs with
    | [] => false
    | b :: _ => !w.pending.any fun p => p.touches b.lanes

/-- HANDLER_ENTRY (R407): of the issuing wave. -/
def execHandlerEntry (s : State) : Outcome := next (fun s => if entryDue s.w then enterHandler s else s) s

end Sys2Proof.Machine
end

