-- ==== Sys2Proof/Machine/Dispatch.lean ====
section
/-! DEFINITION. The meaning of every instruction: one arm per constructor, one call of its meaning. -/

namespace Sys2Proof.Machine

def exec (i : Instr) (s : State) : Host.Outcome State Fault Refusal :=
  match i with
  | .dictionaryCode src imm l => Sys2Proof.Machine.execDictionaryCode src imm l s
  | .addB32 d a b => Sys2Proof.Machine.execAddB32 d a b s
  | .addSatI32 d a b => Sys2Proof.Machine.execAddSatI32 d a b s
  | .addSatN32 d a b => Sys2Proof.Machine.execAddSatN32 d a b s
  | .subB32 d a b => Sys2Proof.Machine.execSubB32 d a b s
  | .subSatI32 d a b => Sys2Proof.Machine.execSubSatI32 d a b s
  | .subSatN32 d a b => Sys2Proof.Machine.execSubSatN32 d a b s
  | .mulLoB32 d a b => Sys2Proof.Machine.execMulLoB32 d a b s
  | .mulHiI32 d a b => Sys2Proof.Machine.execMulHiI32 d a b s
  | .mulHiN32 d a b => Sys2Proof.Machine.execMulHiN32 d a b s
  | .madB32 d a b => Sys2Proof.Machine.execMadB32 d a b s
  | .minI32 d a b => Sys2Proof.Machine.execMinI32 d a b s
  | .minN32 d a b => Sys2Proof.Machine.execMinN32 d a b s
  | .maxI32 d a b => Sys2Proof.Machine.execMaxI32 d a b s
  | .maxN32 d a b => Sys2Proof.Machine.execMaxN32 d a b s
  | .addB64 d a b => Sys2Proof.Machine.execAddB64 d a b s
  | .subB64 d a b => Sys2Proof.Machine.execSubB64 d a b s
  | .addi d a imm => Sys2Proof.Machine.execAddi d a imm s
  | .muli d a imm => Sys2Proof.Machine.execMuli d a imm s
  | .andi d a imm => Sys2Proof.Machine.execAndi d a imm s
  | .ori d a imm => Sys2Proof.Machine.execOri d a imm s
  | .xori d a imm => Sys2Proof.Machine.execXori d a imm s
  | .shli d a imm => Sys2Proof.Machine.execShli d a imm s
  | .shri d a imm => Sys2Proof.Machine.execShri d a imm s
  | .sari d a imm => Sys2Proof.Machine.execSari d a imm s
  | .andB32 d a b => Sys2Proof.Machine.execAndB32 d a b s
  | .orB32 d a b => Sys2Proof.Machine.execOrB32 d a b s
  | .xorB32 d a b => Sys2Proof.Machine.execXorB32 d a b s
  | .andnB32 d a b => Sys2Proof.Machine.execAndnB32 d a b s
  | .shlB32 d a b => Sys2Proof.Machine.execShlB32 d a b s
  | .shrN32 d a b => Sys2Proof.Machine.execShrN32 d a b s
  | .sarI32 d a b => Sys2Proof.Machine.execSarI32 d a b s
  | .rotB32 d a b => Sys2Proof.Machine.execRotB32 d a b s
  | .popcB32 d a => Sys2Proof.Machine.execPopcB32 d a s
  | .clzB32 d a => Sys2Proof.Machine.execClzB32 d a s
  | .ctzB32 d a => Sys2Proof.Machine.execCtzB32 d a s
  | .brevB32 d a => Sys2Proof.Machine.execBrevB32 d a s
  | .bfeN32 d a b => Sys2Proof.Machine.execBfeN32 d a b s
  | .bfeI32 d a b => Sys2Proof.Machine.execBfeI32 d a b s
  | .bfiB32 d a b => Sys2Proof.Machine.execBfiB32 d a b s
  | .permB8 d a b => Sys2Proof.Machine.execPermB8 d a b s
  | .lutN4 d a b => Sys2Proof.Machine.execLutN4 d a b s
  | .movB32 d a => Sys2Proof.Machine.execMovB32 d a s
  | .movB64 d a => Sys2Proof.Machine.execMovB64 d a s
  | .movs d a => Sys2Proof.Machine.execMovs d a s
  | .cmpEqB32 d a b => Sys2Proof.Machine.execCmpEqB32 d a b s
  | .cmpEqF32 d a b => Sys2Proof.Machine.execCmpEqF32 d a b s
  | .cmpNeB32 d a b => Sys2Proof.Machine.execCmpNeB32 d a b s
  | .cmpNeF32 d a b => Sys2Proof.Machine.execCmpNeF32 d a b s
  | .cmpLtI32 d a b => Sys2Proof.Machine.execCmpLtI32 d a b s
  | .cmpLtN32 d a b => Sys2Proof.Machine.execCmpLtN32 d a b s
  | .cmpLtF32 d a b => Sys2Proof.Machine.execCmpLtF32 d a b s
  | .cmpLeI32 d a b => Sys2Proof.Machine.execCmpLeI32 d a b s
  | .cmpLeN32 d a b => Sys2Proof.Machine.execCmpLeN32 d a b s
  | .cmpLeF32 d a b => Sys2Proof.Machine.execCmpLeF32 d a b s
  | .sel d a b p => Sys2Proof.Machine.execSel d a b p s
  | .xlaneFrom d a b => Sys2Proof.Machine.execXlaneFrom d a b s
  | .xlaneBack d a b => Sys2Proof.Machine.execXlaneBack d a b s
  | .xlaneFwd d a b => Sys2Proof.Machine.execXlaneFwd d a b s
  | .xlaneSwap d a b => Sys2Proof.Machine.execXlaneSwap d a b s
  | .lshB32 d a b => Sys2Proof.Machine.execLshB32 d a b s
  | .lshB8 d a b => Sys2Proof.Machine.execLshB8 d a b s
  | .bcast d a l => Sys2Proof.Machine.execBcast d a l s
  | .wtestEvery d a => Sys2Proof.Machine.execWtestEvery d a s
  | .wtestSome d a => Sys2Proof.Machine.execWtestSome d a s
  | .wtestAgree d a => Sys2Proof.Machine.execWtestAgree d a s
  | .ballot d a => Sys2Proof.Machine.execBallot d a s
  | .faddF32 d a b r => Sys2Proof.Machine.execFaddF32 d a b r s
  | .fsubF32 d a b r => Sys2Proof.Machine.execFsubF32 d a b r s
  | .fmulF32 d a b r => Sys2Proof.Machine.execFmulF32 d a b r s
  | .ffmaF32 d a b r => Sys2Proof.Machine.execFfmaF32 d a b r s
  | .fminF32 d a b => Sys2Proof.Machine.execFminF32 d a b s
  | .fminNumF32 d a b => Sys2Proof.Machine.execFminNumF32 d a b s
  | .fmaxF32 d a b => Sys2Proof.Machine.execFmaxF32 d a b s
  | .fmaxNumF32 d a b => Sys2Proof.Machine.execFmaxNumF32 d a b s
  | .fabsF32 d a => Sys2Proof.Machine.execFabsF32 d a s
  | .fnegF32 d a => Sys2Proof.Machine.execFnegF32 d a s
  | .fcopysignF32 d a b => Sys2Proof.Machine.execFcopysignF32 d a b s
  | .frcpF32 d a l => Sys2Proof.Machine.execFrcpF32 d a l s
  | .frsqF32 d a l => Sys2Proof.Machine.execFrsqF32 d a l s
  | .fsqrtF32 d a r l => Sys2Proof.Machine.execFsqrtF32 d a r l s
  | .fexp2F32 d a l => Sys2Proof.Machine.execFexp2F32 d a l s
  | .flog2F32 d a l => Sys2Proof.Machine.execFlog2F32 d a l s
  | .fsinF32 d a l => Sys2Proof.Machine.execFsinF32 d a l s
  | .fcosF32 d a l => Sys2Proof.Machine.execFcosF32 d a l s
  | .cvtf d a y x r => Sys2Proof.Machine.execCvtf d a y x r s
  | .cvti d a y x r => Sys2Proof.Machine.execCvti d a y x r s
  | .sbpackSb3 d a => Sys2Proof.Machine.execSbpackSb3 d a s
  | .sbpackSb5 d a => Sys2Proof.Machine.execSbpackSb5 d a s
  | .sbpackSb8 d a => Sys2Proof.Machine.execSbpackSb8 d a s
  | .sbunpSb3 d a => Sys2Proof.Machine.execSbunpSb3 d a s
  | .sbunpSb5 d a => Sys2Proof.Machine.execSbunpSb5 d a s
  | .sbunpSb8 d a => Sys2Proof.Machine.execSbunpSb8 d a s
  | .ckAccB32 h a => Sys2Proof.Machine.execCkAccB32 h a s
  | .ckAccB64 h a => Sys2Proof.Machine.execCkAccB64 h a s
  | .ldN8 d a b l => Sys2Proof.Machine.execLdN8 d a b l s
  | .ldI8 d a b l => Sys2Proof.Machine.execLdI8 d a b l s
  | .ldN16 d a b l => Sys2Proof.Machine.execLdN16 d a b l s
  | .ldB32 d a b l => Sys2Proof.Machine.execLdB32 d a b l s
  | .ldB64 d a b l => Sys2Proof.Machine.execLdB64 d a b l s
  | .ldRoB32 d a b l => Sys2Proof.Machine.execLdRoB32 d a b l s
  | .ldRoB64 d a b l => Sys2Proof.Machine.execLdRoB64 d a b l s
  | .stB8 src a b => Sys2Proof.Machine.execStB8 src a b s
  | .stB16 src a b => Sys2Proof.Machine.execStB16 src a b s
  | .stB32 src a b => Sys2Proof.Machine.execStB32 src a b s
  | .stB64 src a b => Sys2Proof.Machine.execStB64 src a b s
  | .stNtB32 src a b => Sys2Proof.Machine.execStNtB32 src a b s
  | .stNtB64 src a b => Sys2Proof.Machine.execStNtB64 src a b s
  | .tst src a b => Sys2Proof.Machine.execTst src a b s
  | .retract p a b l => Sys2Proof.Machine.execRetract p a b l s
  | .ldsN8 d a b l => Sys2Proof.Machine.execLdsN8 d a b l s
  | .ldsN16 d a b l => Sys2Proof.Machine.execLdsN16 d a b l s
  | .ldsB32 d a b l => Sys2Proof.Machine.execLdsB32 d a b l s
  | .ldsB64 d a b l => Sys2Proof.Machine.execLdsB64 d a b l s
  | .stsB8 src a b => Sys2Proof.Machine.execStsB8 src a b s
  | .stsB16 src a b => Sys2Proof.Machine.execStsB16 src a b s
  | .stsB32 src a b => Sys2Proof.Machine.execStsB32 src a b s
  | .stsB64 src a b => Sys2Proof.Machine.execStsB64 src a b s
  | .atomAdd d a b o l => Sys2Proof.Machine.execAtomAdd d a b o l s
  | .atomMin d a b o l => Sys2Proof.Machine.execAtomMin d a b o l s
  | .atomMax d a b o l => Sys2Proof.Machine.execAtomMax d a b o l s
  | .atomAnd d a b o l => Sys2Proof.Machine.execAtomAnd d a b o l s
  | .atomOr d a b o l => Sys2Proof.Machine.execAtomOr d a b o l s
  | .atomXor d a b o l => Sys2Proof.Machine.execAtomXor d a b o l s
  | .atomXchg d a b o l => Sys2Proof.Machine.execAtomXchg d a b o l s
  | .atomCas d a b o l => Sys2Proof.Machine.execAtomCas d a b o l s
  | .settle a b => Sys2Proof.Machine.execSettle a b s
  | .redF32 src a b => Sys2Proof.Machine.execRedF32 src a b s
  | .redBf16 src a b => Sys2Proof.Machine.execRedBf16 src a b s
  | .redE4m3 src a b => Sys2Proof.Machine.execRedE4m3 src a b s
  | .redE5m2 src a b => Sys2Proof.Machine.execRedE5m2 src a b s
  | .combLd d a b l => Sys2Proof.Machine.execCombLd d a b l s
  | .combSt src a b => Sys2Proof.Machine.execCombSt src a b s
  | .epiSt f t a b => Sys2Proof.Machine.execEpiSt f t a b s
  | .mma t x y src l => Sys2Proof.Machine.execMma t x y src l s
  | .mmaZ t x y src l => Sys2Proof.Machine.execMmaZ t x y src l s
  | .accZero t src => Sys2Proof.Machine.execAccZero t src s
  | .accMov d a src => Sys2Proof.Machine.execAccMov d a src s
  | .accRd d t c => Sys2Proof.Machine.execAccRd d t c s
  | .accWr t a c => Sys2Proof.Machine.execAccWr t a c s
  | .gets d n => Sys2Proof.Machine.execGets d n s
  | .qpush src q => Sys2Proof.Machine.execQpush src q s
  | .qpop d q l => Sys2Proof.Machine.execQpop d q l s
  | .gAddB32 d a b => Sys2Proof.Machine.execGAddB32 d a b s
  | .gAddSatI32 d a b => Sys2Proof.Machine.execGAddSatI32 d a b s
  | .gAddSatN32 d a b => Sys2Proof.Machine.execGAddSatN32 d a b s
  | .gSubB32 d a b => Sys2Proof.Machine.execGSubB32 d a b s
  | .gSubSatI32 d a b => Sys2Proof.Machine.execGSubSatI32 d a b s
  | .gSubSatN32 d a b => Sys2Proof.Machine.execGSubSatN32 d a b s
  | .gMulLoB32 d a b => Sys2Proof.Machine.execGMulLoB32 d a b s
  | .gMulHiI32 d a b => Sys2Proof.Machine.execGMulHiI32 d a b s
  | .gMulHiN32 d a b => Sys2Proof.Machine.execGMulHiN32 d a b s
  | .gMadB32 d a b => Sys2Proof.Machine.execGMadB32 d a b s
  | .gMinI32 d a b => Sys2Proof.Machine.execGMinI32 d a b s
  | .gMinN32 d a b => Sys2Proof.Machine.execGMinN32 d a b s
  | .gMaxI32 d a b => Sys2Proof.Machine.execGMaxI32 d a b s
  | .gMaxN32 d a b => Sys2Proof.Machine.execGMaxN32 d a b s
  | .gAddB64 d a b => Sys2Proof.Machine.execGAddB64 d a b s
  | .gSubB64 d a b => Sys2Proof.Machine.execGSubB64 d a b s
  | .gAddi d a imm => Sys2Proof.Machine.execGAddi d a imm s
  | .gMuli d a imm => Sys2Proof.Machine.execGMuli d a imm s
  | .gAndi d a imm => Sys2Proof.Machine.execGAndi d a imm s
  | .gOri d a imm => Sys2Proof.Machine.execGOri d a imm s
  | .gXori d a imm => Sys2Proof.Machine.execGXori d a imm s
  | .gShli d a imm => Sys2Proof.Machine.execGShli d a imm s
  | .gShri d a imm => Sys2Proof.Machine.execGShri d a imm s
  | .gSari d a imm => Sys2Proof.Machine.execGSari d a imm s
  | .gAndB32 d a b => Sys2Proof.Machine.execGAndB32 d a b s
  | .gOrB32 d a b => Sys2Proof.Machine.execGOrB32 d a b s
  | .gXorB32 d a b => Sys2Proof.Machine.execGXorB32 d a b s
  | .gAndnB32 d a b => Sys2Proof.Machine.execGAndnB32 d a b s
  | .gShlB32 d a b => Sys2Proof.Machine.execGShlB32 d a b s
  | .gShrN32 d a b => Sys2Proof.Machine.execGShrN32 d a b s
  | .gSarI32 d a b => Sys2Proof.Machine.execGSarI32 d a b s
  | .gRotB32 d a b => Sys2Proof.Machine.execGRotB32 d a b s
  | .gPopcB32 d a => Sys2Proof.Machine.execGPopcB32 d a s
  | .gClzB32 d a => Sys2Proof.Machine.execGClzB32 d a s
  | .gCtzB32 d a => Sys2Proof.Machine.execGCtzB32 d a s
  | .gBrevB32 d a => Sys2Proof.Machine.execGBrevB32 d a s
  | .gBfeN32 d a b => Sys2Proof.Machine.execGBfeN32 d a b s
  | .gBfeI32 d a b => Sys2Proof.Machine.execGBfeI32 d a b s
  | .gBfiB32 d a b => Sys2Proof.Machine.execGBfiB32 d a b s
  | .gMovB32 d a => Sys2Proof.Machine.execGMovB32 d a s
  | .gMovB64 d a => Sys2Proof.Machine.execGMovB64 d a s
  | .lcLo d imm => Sys2Proof.Machine.execLcLo d imm s
  | .lcHi d imm => Sys2Proof.Machine.execLcHi d imm s
  | .gCmpEqB32 d a b => Sys2Proof.Machine.execGCmpEqB32 d a b s
  | .gCmpEqF32 d a b => Sys2Proof.Machine.execGCmpEqF32 d a b s
  | .gCmpNeB32 d a b => Sys2Proof.Machine.execGCmpNeB32 d a b s
  | .gCmpNeF32 d a b => Sys2Proof.Machine.execGCmpNeF32 d a b s
  | .gCmpLtI32 d a b => Sys2Proof.Machine.execGCmpLtI32 d a b s
  | .gCmpLtN32 d a b => Sys2Proof.Machine.execGCmpLtN32 d a b s
  | .gCmpLtF32 d a b => Sys2Proof.Machine.execGCmpLtF32 d a b s
  | .gCmpLeI32 d a b => Sys2Proof.Machine.execGCmpLeI32 d a b s
  | .gCmpLeN32 d a b => Sys2Proof.Machine.execGCmpLeN32 d a b s
  | .gCmpLeF32 d a b => Sys2Proof.Machine.execGCmpLeF32 d a b s
  | .gFaddF32 d a b r => Sys2Proof.Machine.execGFaddF32 d a b r s
  | .gFsubF32 d a b r => Sys2Proof.Machine.execGFsubF32 d a b r s
  | .gFmulF32 d a b r => Sys2Proof.Machine.execGFmulF32 d a b r s
  | .gFfmaF32 d a b r => Sys2Proof.Machine.execGFfmaF32 d a b r s
  | .br f => Sys2Proof.Machine.execBr f s
  | .call f => Sys2Proof.Machine.execCall f s
  | .jmp a => Sys2Proof.Machine.execJmp a s
  | .ret a => Sys2Proof.Machine.execRet a s
  | .guard p n => Sys2Proof.Machine.execGuard p n s
  | .guardN p n => Sys2Proof.Machine.execGuardN p n s
  | .exit => Sys2Proof.Machine.execExit s
  | .yield => Sys2Proof.Machine.execYield s
  | .join k => Sys2Proof.Machine.execJoin k s
  | .leave k => Sys2Proof.Machine.execLeave k s
  | .wait k => Sys2Proof.Machine.execWait k s
  | .barG => Sys2Proof.Machine.execBarG s
  | .barC => Sys2Proof.Machine.execBarC s
  | .kmov a d => Sys2Proof.Machine.execKmov a d s
  | .trap c => Sys2Proof.Machine.execTrap c s
  | .rett => Sys2Proof.Machine.execRett s
  | .nop => Sys2Proof.Machine.execNop s
  | .sleep a => Sys2Proof.Machine.execSleep a s
  | .gGets d n => Sys2Proof.Machine.execGGets d n s
  | .sets src n x => Sys2Proof.Machine.execSets src n x s
  | .acquire => Sys2Proof.Machine.execAcquire s
  | .acquireExplicit a => Sys2Proof.Machine.execAcquireExplicit a s
  | .spawn r n => Sys2Proof.Machine.execSpawn r n s
  | .joindec r => Sys2Proof.Machine.execJoindec r s
  | .cancel d => Sys2Proof.Machine.execCancel d s
  | .submit d p => Sys2Proof.Machine.execSubmit d p s
  | .qbind p q => Sys2Proof.Machine.execQbind p q s
  | .fenceAcq => Sys2Proof.Machine.execFenceAcq s
  | .fenceRel => Sys2Proof.Machine.execFenceRel s
  | .fenceFull => Sys2Proof.Machine.execFenceFull s
  | .drainNt => Sys2Proof.Machine.execDrainNt s
  | .wbRange a b => Sys2Proof.Machine.execWbRange a b s
  | .invRange a b => Sys2Proof.Machine.execInvRange a b s
  | .ldgB32 d a imm => Sys2Proof.Machine.execLdgB32 d a imm s
  | .ldgB64 d a imm => Sys2Proof.Machine.execLdgB64 d a imm s
  | .stgB32 d a imm => Sys2Proof.Machine.execStgB32 d a imm s
  | .stgB64 d a imm => Sys2Proof.Machine.execStgB64 d a imm s
  | .cpSc a b => Sys2Proof.Machine.execCpSc a b s
  | .waitAny a => Sys2Proof.Machine.execWaitAny a s
  | .waitAll a => Sys2Proof.Machine.execWaitAll a s
  | .ffrTag d a => Sys2Proof.Machine.execFfrTag d a s
  | .ffrTagHeld d a => Sys2Proof.Machine.execFfrTagHeld d a s
  | .prefetch a => Sys2Proof.Machine.execPrefetch a s
  | .prefetchL2 a => Sys2Proof.Machine.execPrefetchL2 a s
  | .ldsgB32 d a imm => Sys2Proof.Machine.execLdsgB32 d a imm s
  | .stsgB32 d a imm => Sys2Proof.Machine.execStsgB32 d a imm s
  | .rdlane d a l k => Sys2Proof.Machine.execRdlane d a l k s
  | .cpy d src l => Sys2Proof.Machine.execCpy d src l s
  | .relayout d src t => Sys2Proof.Machine.execRelayout d src t s
  | .pub b => Sys2Proof.Machine.execPub b s
  | .pubOpen b l => Sys2Proof.Machine.execPubOpen b l s
  | .pubDrop b => Sys2Proof.Machine.execPubDrop b s
  | .pubClose b => Sys2Proof.Machine.execPubClose b s
  | .wrlane d a l => Sys2Proof.Machine.execWrlane d a l s
  | .votec d p k => Sys2Proof.Machine.execVotec d p k s
  | .ckChk m b a => Sys2Proof.Machine.execCkChk m b a s
  | .obres a n => Sys2Proof.Machine.execObres a n s
  | .obfill a b n => Sys2Proof.Machine.execObfill a b n s
  | .obfillX a b n => Sys2Proof.Machine.execObfillX a b n s
  | .cmergeSoft r o t l => Sys2Proof.Machine.execCmergeSoft r o t l s
  | .cmergeSum r o t l => Sys2Proof.Machine.execCmergeSum r o t l s
  | .cmergeIsum r o t l => Sys2Proof.Machine.execCmergeIsum r o t l s
  | .attnQk h t q n l => Sys2Proof.Machine.execAttnQk h t q n l s
  | .attnPv h o p n l => Sys2Proof.Machine.execAttnPv h o p n l s
  | .combSum h t q n l => Sys2Proof.Machine.execCombSum h t q n l s
  | .topk d k t l => Sys2Proof.Machine.execTopk d k t l s
  | .topkC d k t l => Sys2Proof.Machine.execTopkC d k t l s
  | .gatherComb h m q => Sys2Proof.Machine.execGatherComb h m q s
  | .obrel m => Sys2Proof.Machine.execObrel m s
  | .fabStr c q => Sys2Proof.Machine.execFabStr c q s
  | .fabA2a c q => Sys2Proof.Machine.execFabA2a c q s
  | .fabRing c q => Sys2Proof.Machine.execFabRing c q s
  | .qstat d q => Sys2Proof.Machine.execQstat d q s
  | .tlbinv v src => Sys2Proof.Machine.execTlbinv v src s
  | .atomgAdd d a imm => Sys2Proof.Machine.execAtomgAdd d a imm s
  | .atomgCas d a imm => Sys2Proof.Machine.execAtomgCas d a imm s
  | .cmpiEq d a imm => Sys2Proof.Machine.execCmpiEq d a imm s
  | .cmpiLt d a imm => Sys2Proof.Machine.execCmpiLt d a imm s
  | .selz d a b => Sys2Proof.Machine.execSelz d a b s
  | .popk d k => Sys2Proof.Machine.execPopk d k s
  | .settleAll => Sys2Proof.Machine.execSettleAll s
  | .migrate v p d => Sys2Proof.Machine.execMigrate v p d s
  | .icinv => Sys2Proof.Machine.execIcinv s
  | .combInv h src => Sys2Proof.Machine.execCombInv h src s
  | .bkpt => Sys2Proof.Machine.execBkpt s
  | .halt => Sys2Proof.Machine.execHalt s
  | .longLatencyCompletion idx => Sys2Proof.Machine.execLongLatencyCompletion idx s
  | .handlerEntry => Sys2Proof.Machine.execHandlerEntry s
  | .groupEnd => Sys2Proof.Machine.execGroupEnd s
  | .groupAdmission core => Sys2Proof.Machine.execGroupAdmission core s
  | .distributorRefill die => Sys2Proof.Machine.execDistributorRefill die s
  | .stealRequest die => Sys2Proof.Machine.execStealRequest die s
  | .stealAnswer die => Sys2Proof.Machine.execStealAnswer die s
  | .queueBalancing die => Sys2Proof.Machine.execQueueBalancing die s
  | .acquireGrant core => Sys2Proof.Machine.execAcquireGrant core s
  | .acquireDeadlockSave core => Sys2Proof.Machine.execAcquireDeadlockSave core s
  | .latencyTakeBack die => Sys2Proof.Machine.execLatencyTakeBack die s
  | .drainTimeout uid => Sys2Proof.Machine.execDrainTimeout uid s
  | .groupSave uid => Sys2Proof.Machine.execGroupSave uid s
  | .groupRestore core idx => Sys2Proof.Machine.execGroupRestore core idx s
  | .budgetExhausted die idx => Sys2Proof.Machine.execBudgetExhausted die idx s
  | .deadlineExpiry die idx => Sys2Proof.Machine.execDeadlineExpiry die idx s
  | .floorLost die => Sys2Proof.Machine.execFloorLost die s
  | .floorRegained die => Sys2Proof.Machine.execFloorRegained die s
  | .midgeStart uid => Sys2Proof.Machine.execMidgeStart uid s
  | .midgeEnd uid => Sys2Proof.Machine.execMidgeEnd uid s
  | .sleepExpiry => Sys2Proof.Machine.execSleepExpiry s
  | .haltResume uid => Sys2Proof.Machine.execHaltResume uid s
  | .haltedGroupCancel uid => Sys2Proof.Machine.execHaltedGroupCancel uid s
  | .copyCompletion idx => Sys2Proof.Machine.execCopyCompletion idx s
  | .epilogueRowStore idx => Sys2Proof.Machine.execEpilogueRowStore idx s
  | .gatherCommand idx => Sys2Proof.Machine.execGatherCommand idx s
  | .fabricCommandCompletion idx status => Sys2Proof.Machine.execFabricCommandCompletion idx status s
  | .missFillArrival core idx => Sys2Proof.Machine.execMissFillArrival core idx s
  | .ownershipRevocation core word => Sys2Proof.Machine.execOwnershipRevocation core word s
  | .l2Replacement line => Sys2Proof.Machine.execL2Replacement line s
  | .guestFill agent line => Sys2Proof.Machine.execGuestFill agent line s
  | .directoryFanOut agent addr data => Sys2Proof.Machine.execDirectoryFanOut agent addr data s
  | .invalidation link line => Sys2Proof.Machine.execInvalidation link line s
  | .invalidationAnswer agent line present => Sys2Proof.Machine.execInvalidationAnswer agent line present s
  | .invtoExpiry agent line => Sys2Proof.Machine.execInvtoExpiry agent line s
  | .rejoin agent => Sys2Proof.Machine.execRejoin agent s
  | .sourceProbe line => Sys2Proof.Machine.execSourceProbe line s
  | .baseDieMaterialise idx => Sys2Proof.Machine.execBaseDieMaterialise idx s
  | .faultSlotFreed ctx => Sys2Proof.Machine.execFaultSlotFreed ctx s
  | .engineWalkRetry idx => Sys2Proof.Machine.execEngineWalkRetry idx s
  | .leaseRequest link window => Sys2Proof.Machine.execLeaseRequest link window s
  | .leaseAnswer link window frame writable nc refused => Sys2Proof.Machine.execLeaseAnswer link window frame writable nc refused s
  | .recall link frame => Sys2Proof.Machine.execRecall link frame s
  | .recallAcknowledgement link frame => Sys2Proof.Machine.execRecallAcknowledgement link frame s
  | .leaseRelease link frame => Sys2Proof.Machine.execLeaseRelease link frame s
  | .migrationCopyDone idx code => Sys2Proof.Machine.execMigrationCopyDone idx code s
  | .gollysRead link addr len tag => Sys2Proof.Machine.execGollysRead link addr len tag s
  | .gollysWrite link addr tag data => Sys2Proof.Machine.execGollysWrite link addr tag data s
  | .gollysAtomic link op addr tag x y => Sys2Proof.Machine.execGollysAtomic link op addr tag x y s
  | .gollysResponse link tag status data => Sys2Proof.Machine.execGollysResponse link tag status data s
  | .fabricData link dst msg op data => Sys2Proof.Machine.execFabricData link dst msg op data s
  | .fabricAcknowledgement link msg => Sys2Proof.Machine.execFabricAcknowledgement link msg s
  | .gollysAuditMarker link => Sys2Proof.Machine.execGollysAuditMarker link s
  | .gollysAuditEcho link occupied => Sys2Proof.Machine.execGollysAuditEcho link occupied s
  | .idle link ack permits own => Sys2Proof.Machine.execIdle link ack permits own s
  | .idleSend link => Sys2Proof.Machine.execIdleSend link s
  | .bridgeMessage dir payload => Sys2Proof.Machine.execBridgeMessage dir payload s
  | .crcFailureReplay event => Sys2Proof.Machine.execCrcFailureReplay event s
  | .linkDown link => Sys2Proof.Machine.execLinkDown link s
  | .glowwormAudit link => Sys2Proof.Machine.execGlowwormAudit link s
  | .liveRecalibration link => Sys2Proof.Machine.execLiveRecalibration link s
  | .recalibrationTimeout link => Sys2Proof.Machine.execRecalibrationTimeout link s
  | .isaisRead stack tag addr => Sys2Proof.Machine.execIsaisRead stack tag addr s
  | .maskedWrite stack tag addr mask data marks => Sys2Proof.Machine.execMaskedWrite stack tag addr mask data marks s
  | .compareWrite stack tag addr beats => Sys2Proof.Machine.execCompareWrite stack tag addr beats s
  | .poisonReport stack addr marks => Sys2Proof.Machine.execPoisonReport stack addr marks s
  | .scrubReport stack place corrected kind => Sys2Proof.Machine.execScrubReport stack place corrected kind s
  | .calibration stack step => Sys2Proof.Machine.execCalibration stack step s
  | .script stack tag cmds fromControl => Sys2Proof.Machine.execScript stack tag cmds fromControl s
  | .capabilityRead stack tag => Sys2Proof.Machine.execCapabilityRead stack tag s
  | .isaisReply stack tag status => Sys2Proof.Machine.execIsaisReply stack tag status s
  | .isaisAuditMarker stack => Sys2Proof.Machine.execIsaisAuditMarker stack s
  | .isaisAuditEcho stack occupied => Sys2Proof.Machine.execIsaisAuditEcho stack occupied s
  | .isaisRequestTimeout stack tag => Sys2Proof.Machine.execIsaisRequestTimeout stack tag s
  | .weevilBurst channel corrected uncorrectable => Sys2Proof.Machine.execWeevilBurst channel corrected uncorrectable s
  | .uncorrectableStateError uid array index => Sys2Proof.Machine.execUncorrectableStateError uid array index s
  | .deviceFault kind index => Sys2Proof.Machine.execDeviceFault kind index s
  | .freezeL => Sys2Proof.Machine.execFreezeL s
  | .deviceReset objects => Sys2Proof.Machine.execDeviceReset objects s
  | .bootRetry objects => Sys2Proof.Machine.execBootRetry objects s
  | .devcmdReset objects => Sys2Proof.Machine.execDevcmdReset objects s
  | .devcmdFreeze => Sys2Proof.Machine.execDevcmdFreeze s
  | .hostsub value => Sys2Proof.Machine.execHostsub value s
  | .hostSubmitRetry => Sys2Proof.Machine.execHostSubmitRetry s
  | .hoststatRejoin => Sys2Proof.Machine.execHoststatRejoin s
  | .hostAccess head addr data => Sys2Proof.Machine.execHostAccess head addr data s
  | .ctxctlCreate ctx => Sys2Proof.Machine.execCtxctlCreate ctx s
  | .ctxctlTearDown ctx => Sys2Proof.Machine.execCtxctlTearDown ctx s
  | .contextTeardownDone ctx => Sys2Proof.Machine.execContextTeardownDone ctx s
  | .cohcfgWrite die value => Sys2Proof.Machine.execCohcfgWrite die value s
  | .attestationNonce nonce => Sys2Proof.Machine.execAttestationNonce nonce s
  | .attestationReportReady => Sys2Proof.Machine.execAttestationReportReady s
  | .registerWrite privileged offset value => Sys2Proof.Machine.execRegisterWrite privileged offset value s
  | .firmwareUpdate image => Sys2Proof.Machine.execFirmwareUpdate image s
  | .spareCoreSwap core record => Sys2Proof.Machine.execSpareCoreSwap core record s
  | .rowSparing record => Sys2Proof.Machine.execRowSparing record s
  | .configurationRecord record => Sys2Proof.Machine.execConfigurationRecord record s
  | .linkUp link => Sys2Proof.Machine.execLinkUp link s
  | .laneFailure link => Sys2Proof.Machine.execLaneFailure link s
  | .takeBackRequest uid => Sys2Proof.Machine.execTakeBackRequest uid s
  | .cxlCacheResponse line exclusive data => Sys2Proof.Machine.execCxlCacheResponse line exclusive data s

end Sys2Proof.Machine
end

