-- ==== Sys2Proof/Machine/Issue.lean ====
section
/-! DEFINITION. The issue unit: which run of a wave issues (R134, R411), the fetch of its instruction (R44, R46, R47), and how a
dictionary code becomes an instruction (R51). -/

namespace Sys2Proof.Machine

/-! ## The choice of the run (R134) -/

/-- The lanes of R at a PC, of the handler's class or of the other (R26, R134). -/
def classAt (w : Wave) (r : Mask) (pc : BitVec 56) (handler : Bool) : Mask :=
  r &&& maskOf fun l => w.pc[l] == pc && bit w.handlerLanes l == handler

/-- The lowest PC among the lanes of a mask, as the lane that has it. -/
def lowestPc (w : Wave) (m : Mask) : Option (Fin 32) :=
  (lanesOf m).foldl (fun b l => match b with
    | none => some l
    | some j => if w.pc[l].toNat < w.pc[j].toNat then some l else some j) none

/-- The lane of the next rotation issue: the lowest of O above the pointer, else the lowest of O. -/
def rotationLane (o : Mask) (pointer : Fin 32) : Option (Fin 32) :=
  match (lanesOf o).find? fun l => decide (pointer < l) with
  | some l => some l
  | none => lowest o

/-- The head run: the lanes at the lowest PC, of the handler's class if one of its lanes stands there. -/
def headRun (w : Wave) (r : Mask) (pc : BitVec 56) : Mask :=
  if classAt w r pc true ≠ 0 then classAt w r pc true else classAt w r pc false

/-- Whether all lanes of R share one PC and one class. -/
def converged (w : Wave) (r : Mask) : Bool := match lowest r with
  | none => true
  | some l => r &&& ~~~(classAt w r w.pc[l] (bit w.handlerLanes l)) == 0

/-- The run of the next issue with the wave's issue state after the choice (R134); none when no lane is ready. A rotation issue serves the
lanes outside the head run, those of the other class at its PC among them, so that the bound of R135 holds (log entry 52). -/
def chooseRun (w : Wave) : Option (Wave × Issue) :=
  let r := w.ready
  let old := w
  let w := if r &&& ~~~w.yieldMask = 0 then { w with yieldMask := 0 } else w
  match lowestPc w (r &&& ~~~w.yieldMask) with
  | none => none
  | some h =>
    let hpc := w.pc[h]
    let done (run : Mask) (pc : BitVec 56) (w : Wave) : Option (Wave × Issue) :=
      let y := w.yieldMask &&& ~~~run
      some ({ w with yieldMask := y },
        { Issue.of run pc 4 none with count := old.count, rotation := old.rotation, cleared := old.yieldMask &&& ~~~y })
    if converged w r then done r hpc { w with count := 0 }
    else
      let o := r &&& ~~~(headRun w r hpc)
      match if w.promise ∧ w.fairness ≤ w.count then rotationLane o w.rotation else none with
      | some j => done (classAt w r w.pc[j] (bit w.handlerLanes j)) w.pc[j] { w with rotation := j, count := 0 }
      | none => done (headRun w r hpc) hpc { w with count := if w.promise then min (w.count + 1) 1024 else w.count }

/-- The issue of the wave: a run that was chosen and waits (R134), a replay that a rett owes (R411), or a new choice. -/
def nextIssue (w : Wave) : Option (Wave × Issue) :=
  let fresh (w : Wave) : Option (Wave × Issue) := match w.replay with
    | some r => some ({ w with replay := none }, Issue.of r.lanes r.pc 4 (some r.enabled))
    | none => chooseRun w
  match w.chosen with
  | some c =>
    let run := c.run &&& w.ready
    let w := { w with chosen := none }
    if c.replay.isSome ∨ run ≠ 0 then some (w, { c with run := run }) else fresh w
  | none => fresh w

/-- Whether a wave has something to issue: nothing holds it, its group goes on, and no run-ahead is due. A save waits for a replay. -/
def issuable (g : Group) (w : Wave) : Bool :=
  g.live && g.stop.isNone && (g.saving.isNone || w.replaying) && w.hold.isNone && !w.aheadDue && w.mode != .ahead &&
    !(w.mode == .midge && decide (4096 ≤ w.issues)) && (w.ready != 0 || w.chosen.isSome || w.replay.isSome)

/-! ## Fetch -/

/-- What a fetch brings: a 32-bit word, a one-parcel code, an instruction-fetch fault at a parcel with the KIND of its record, or a wait. -/
inductive Fetched where
  | word (w : Nat)
  | code (p : Nat)
  | fault (addr : DWord) (kind : Nat)
  | wait
  deriving DecidableEq, Repr

/-- A parcel that a fetch brings, the KIND of its fault's record, or a wait. -/
inductive Parcel where
  | got (p : Nat)
  | fault (kind : Nat)
  | wait
  deriving DecidableEq, Repr

/-- One parcel at a virtual address (R44, R46). -/
def fetchAt (pc : BitVec 56) (s : State) : State × Parcel :=
  match translate (.core s.coreNo) s.ctxNo .fetch pc.toNat s with
  | (s, .fault _ k _) => (s, .fault k)
  | (s, .wait) => (s, .wait)
  | (s, .ok pa _) =>
    if !lineHeld s pa then (askLine pa s, .wait)
    else
      let (s, p) := fetchParcel s.coreNo pa s
      (s, .got p)

/-- The instruction at the PC of the run (R44, R46): its first parcel, and for a 32-bit word the second, which holds its low half. DESIGN CHOICE (log entry
95): the second parcel of a word at the last address lies at 0. -/
def fetchInstr (s : State) : State × Fetched :=
  match fetchAt s.iss.pc s with
  | (s, .wait) => (s, .wait)
  | (s, .fault k) => (s, .fault s.here k)
  | (s, .got p) =>
    if !longParcel p then (s, .code p)
    else match fetchAt (s.iss.pc + 2) s with
      | (s, .wait) => (s, .wait)
      | (s, .fault k) => (s, .fault ((s.iss.pc + 2).setWidth 64) k)
      | (s, .got q) => (s, .word (p * 65536 + q))

/-- An instruction-fetch fault (R46): the record of KIND 3, or 5 of a refused lease (R387, R390), and the lanes of the run park. A replay with no lane to park
takes it as R69 lays down. -/
def fetchFault (addr : DWord) (kind : Nat) (s : State) : State :=
  let s := oweRecords (if kind = 99 then [] else [⟨addr, 0x01, kind⟩]) s
  if s.iss.run = 0 then decodeFault 0x01 addr s else park s.iss.run (againRecord s ⟨s.iss.run, 0, s.w⟩ 0x01 addr) s

/-- Whether the group's kernel failed to load, for a run outside a handler (R50, R276). -/
def dictFailed (s : State) : Bool := s.grp.failed && (s.iss.run &&& s.w.handlerLanes) == 0

/-- The dictionary-load fault at the group's first instruction; once its handler has returned, which the trap records of its lanes tell, the kernel is read
again and, if that succeeds, the instruction is tried again (R50). -/
def dictFault (s : State) : State :=
  if !(lanesOf s.iss.run).any fun l => causeCode s.w.recs[l].cause == 0x02 then decodeFault 0x02 s.here s
  else match reloadKernel s with
    | (s, true) => stall s
    | (s, false) => if s.grp.failed then decodeFault 0x02 s.here s else stall s

/-- The end of an issue: a replay that is done evaluates the release of every mask (R411 step 4). -/
def endIssue (s : State) : State :=
  if s.iss.replay.isSome ∧ s.w.chosen.isNone then s.modW Wave.releaseAll else s

end Sys2Proof.Machine
end

