-- ==== Sys2Proof/Machine/Ahead.lean ====
section
/-! DEFINITION. A decoded instruction run in the step that fetched it, a dictionary code with its word (R51), and the run-ahead of a sub-wave
that a translation fault has parked (R387). -/

namespace Sys2Proof.Machine

/-- An instruction executes; the word that a dictionary code stands for executes in the same step (R51). -/
noncomputable def runInstr (i : Instr) (s : State) : Outcome :=
  match exec i s with
  | .next t =>
    match t.latch with
    | none => .next t
    | some w =>
      let t : State := { t with latch := none, iss := { t.iss with len := 2 } }
      match decodeWord w.toNat with
      | .ok j => exec j t
      | .error _ => next (fun s => decodeFault 0x03 s.here s) t
  | .fault f => .fault f
  | .refused r => .refused r

/-- The instruction that a fetched code or word stands for, with its length. -/
noncomputable def fetchedInstr (s : State) : Fetched → Option (Instr × Nat)
  | .word w => match decodeWord w with
    | .ok i => some (i, 4)
    | .error _ => none
  | .code p => match decodeCode p with
    | .dictionaryCode set i k => match s.grp.dict[i.val]? with
      | none => none
      | some e => match codeWord set.val k.val e.toNat with
        | .error _ => none
        | .ok w => match decodeWord w with
          | .ok i => some (i, 2)
          | .error _ => none
    | _ => none
  | .fault _ _ => none
  | .wait => none

/-- Whether an instruction ends a run-ahead: wait, a barrier, exit, trap, rett, a qpop, or a branch whose condition or target is unknown
(R387). -/
def endsAhead (i : Instr) (s : State) : Bool :=
  let known (rs : List Reg) : Bool := !(rs.any fun r => s.w.unknown.contains r) && !guardUnknown controlSig ⟨0, s.iss.run, s.w⟩ s
  match i with
  | .wait _ => true
  | .barG => true
  | .barC => true
  | .exit => true
  | .trap _ => true
  | .rett => true
  | .qpop _ _ _ => true
  | .br _ => !known []
  | .call _ => !known []
  | .jmp a => !known (sPair a)
  | .ret a => !known (vPair a)
  | _ => false

/-- The run-ahead: up to 256 instructions, up to 16 pages. A run that cannot be fetched or decoded goes no further. -/
noncomputable def aheadLoop : Nat → State → State
  | 0, s => s
  | fuel + 1, s =>
    if 16 ≤ s.w.batch.length then s
    else match chooseRun s.w with
      | none => s
      | some (w, iss) =>
        let (s, f) := fetchInstr { (s.modW fun _ => w) with iss := iss }
        match fetchedInstr s f with
        | none => aheadLoop fuel (s.modW fun w => w.setState s.iss.run .inactive)
        | some (i, len) =>
          let s : State := { s with iss := { s.iss with len := len } }
          if endsAhead i s then s
          else match exec i s with
            | .next t => aheadLoop fuel (t.modW fun w => { w with chosen := none })
            | .fault _ => s
            | .refused _ => s

/-- The sub-wave that runs ahead: the last parked one with a lane whose cause is a page not present. -/
def aheadSub (w : Wave) : Option SubWave :=
  w.subs.reverse.find? fun b => (lanesOf b.lanes).any fun l => causeCode w.recs[l].cause == 0x14 && causeRestart w.recs[l].cause

/-- The wave as the run-ahead starts: the lanes of the sub-wave at their entries, a private copy of the group registers, and the
destinations of what is still pending unknown. -/
def aheadWave (b : SubWave) (s : State) : Wave :=
  let w := s.w
  { w with
    mode := .ahead, own := some s.gregs, chosen := none, replay := none, hold := none, pending := [], subs := [], handler := none
    unknown := (w.pending.filter fun p => p.touches b.lanes).flatMap (·.dests)
    st := Lanes.ofFn fun l => if bit b.lanes l then .ready else .inactive
    pc := Lanes.ofFn fun l => if bit b.lanes l then entryPc w.recs[l].entry else w.pc[l]
    guard := Lanes.ofFn fun l => if bit b.lanes l then w.recs[l].guard else w.guard[l] }

/-- The faulting instruction, translated once more, so that its destinations are unknown. -/
noncomputable def aheadFirst (b : SubWave) (s : State) : State :=
  match lowest b.lanes with
  | none => s
  | some l =>
    let pc := entryPc s.w.recs[l].pc
    let (s, f) := fetchInstr { s with iss := Issue.of b.lanes pc 4 (some b.lanes) }
    match fetchedInstr s f with
    | none => s
    | some (i, len) => match exec i { s with iss := { s.iss with len := len } } with
      | .next t => t
      | .fault _ => s
      | .refused _ => s

/-- The pages that a wave owes, those of its last batch apart: the batch that a run-ahead fills (R387). -/
def lastBatch (l : List BatchPage) : List BatchPage × List BatchPage :=
  let tail := (l.filter fun b => !b.single).reverse
  let new := ((tail.takeWhile fun b => !b.first) ++ (tail.find? (·.first)).toList).reverse
  (l.filter fun b => b.single || !new.contains b, new)

/-- The run-ahead of the issuing wave (R387): from it stay only the pages of the batch. -/
noncomputable def runAhead (s : State) : State :=
  match aheadSub s.w with
  | none => s.modW fun w => { w with aheadDue := false }
  | some b =>
    let (owed, new) := lastBatch s.w.batch
    let t := aheadLoop 256 (aheadFirst b (s.modW fun _ => { aheadWave b s with batch := new }))
    s.modW fun w => { w with aheadDue := false, batch := owed ++ t.w.batch }

/-- Whether the run-ahead of a wave may start or is moot: its sub-wave has parked, or nothing pending can park one. -/
def aheadReady (w : Wave) : Bool :=
  w.aheadDue && ((aheadSub w).isSome || !w.pending.any fun p => p.faults.any fun f => f.cause == 0x14)

end Sys2Proof.Machine
end

