-- ==== Sys2Proof/Machine/Due.lean ====
section
/-! DEFINITION. What the machine does of its own accord: the events that are due, those that may happen now or later, and the issue of an
instruction by a wave. The manual fixes no latency (R38): an event of the second kind and the issues of the waves stand in any order. -/

namespace Sys2Proof.Machine

/-- What a step does: an event of the opcode table, a run-ahead (R387), the reconvergence-deadlock trap (R144), the performing of a
non-temporal store (R175), an access of a saved group that stays pending in its image (R412), or an issue. -/
inductive Deed where
  | event (i : Instr)
  | ahead
  | deadlock
  | stores
  | far
  | issue
  deriving DecidableEq, Repr

/-- A deed with the group and the wave it concerns; 0 for none. -/
structure Action where
  group : Nat
  wave  : Nat
  deed  : Deed
  deriving DecidableEq, Repr

/-- The state with a group and a wave in focus. -/
def focusOn (a : Action) (s : State) : State := (s.focus a.group).modG fun g => g.focus a.wave

/-! ## Events that are due -/

/-- Due events of a wave. -/
noncomputable def dueOfWave (s : State) (g : Group) (w : Wave) : List Action :=
  let mk (d : Deed) : Action := ⟨g.uid, w.uid, d⟩
  (if entryDue w then [mk (.event .handlerEntry)] else []) ++
  (if aheadReady w then [mk .ahead] else []) ++
  (if w.batch ≠ [] ∧ !w.aheadDue then [mk (.event (.faultSlotFreed g.task.ctx))] else []) ++
  (if w.deadlocked then [mk .deadlock] else []) ++
  (match w.hold with
    | some (.sleep t) => if t ≤ s.clock then [mk (.event .sleepExpiry)] else []
    | _ => []) ++
  (if w.mode = .midge ∧ (w.ended ∨ 4096 ≤ w.issues) then [mk (.event (.midgeEnd g.uid))] else [])

/-- Due events of a group. -/
noncomputable def dueOfGroup (s : State) (g : Group) : List Action :=
  let mk (i : Instr) : Action := ⟨g.uid, g.wave.uid, .event i⟩
  g.all.flatMap (dueOfWave s g) ++
  (if g.all.all fun w => w.mode == .midge || w.ended then [mk .groupEnd] else []) ++
  (match g.drainBy with
    | some (t, _) => if t ≤ s.clock then [mk (.drainTimeout g.uid)] else []
    | none => []) ++
  (if g.saving.isSome then [mk (.groupSave g.uid)] else []) ++
  (if g.acquire.isSome then [mk (.acquireGrant g.core), mk (.acquireDeadlockSave g.core)] else []) ++
  (if g.midges ≠ 0 then [mk (.midgeEnd g.uid)] else [])

/-- An event that concerns no wave. -/
def plainEvent (i : Instr) : Action := ⟨0, 0, .event i⟩

/-- Due events of a die (R327 to R329, R335, R338, R413). -/
noncomputable def dueOfDie (s : State) (die : Nat) : List Action :=
  let d := s.die die
  let queued := d.ready.toList.flatten
  let cores := (s.cores.filter fun c => dieOf c.1 == die && c.2.local_ != []).map (·.1)
  (if queued = [] then cores else dieCores die).map (fun c => plainEvent (.groupAdmission c)) ++
  (if queued ≠ [] then [plainEvent (.distributorRefill die)] else []) ++
  (if queued = [] ∧ d.stealAfter ≤ s.clock then [plainEvent (.stealRequest die)] else []) ++
  (if (s.die (1 - die)).stealing then [plainEvent (.stealAnswer die)] else []) ++
  (if cores ≠ [] ∧ d.balanced + 3000 ≤ s.clock then [plainEvent (.queueBalancing die)] else []) ++
  (d.jobs.zipIdx.flatMap fun j => if j.1.budget = 0 then [plainEvent (.budgetExhausted die j.2)]
    else if j.1.deadline ≤ s.clock then [plainEvent (.deadlineExpiry die j.2)] else []) ++
  (d.saved.zipIdx.flatMap fun v => (dieCores die).map fun c => plainEvent (.groupRestore c v.2))

/-- Due events of the links, the host, the contexts and cores that are swapped (R361, R389, R415, R429, R433 to R435, R441, R448, R451). -/
noncomputable def dueElsewhere (s : State) : List Action :=
  ((s.waits.zipIdx.filter fun e => slotServed s e.1.ctx e.1.slot).map fun e => plainEvent (.engineWalkRetry e.2)) ++
  (if s.hostbusy.isSome then [plainEvent .hostSubmitRetry] else []) ++
  ((s.ctxs.filter fun c => c.2.state == .tearing).map fun c => plainEvent (.contextTeardownDone c.1)) ++
  ((s.fanOuts.filter (·.begun)).flatMap fun f =>
    ((List.range 14).filter fun a => f.agents.getLsbD a).map fun a => plainEvent (.invtoExpiry a f.line)) ++
  (s.swaps.map fun e => plainEvent (.spareCoreSwap e.1 e.2)) ++
  (s.links.zipIdx.flatMap fun e =>
    (if e.1.up ∧ e.1.sentIdle + 150 ≤ s.clock then [plainEvent (.idleSend e.2)] else []) ++
    (if e.1.up ∧ e.1.heard + 3000 ≤ s.clock then [plainEvent (.linkDown e.2)] else []) ++
    (if e.1.up ∧ e.1.audited + 15000 ≤ s.clock then [plainEvent (.glowwormAudit e.2)] else []) ++
    (match e.1.recal with
      | some r => [plainEvent (.liveRecalibration e.2)] ++ if r.start + 300000 ≤ s.clock then [plainEvent (.recalibrationTimeout e.2)] else []
      | none => [])) ++
  (s.isais.zipIdx.flatMap fun e =>
    (if e.1.audited + 15000 ≤ s.clock then [plainEvent (.glowwormAudit (14 + e.2))] else []) ++
    (match e.1.recal with
      | some r => [plainEvent (.liveRecalibration (14 + e.2))] ++
          if r.start + 300000 ≤ s.clock then [plainEvent (.recalibrationTimeout (14 + e.2))] else []
      | none => []) ++
    (e.1.outstanding.filter fun m => m.sent + 15000 ≤ s.clock).map fun m => plainEvent (.isaisRequestTimeout e.2 m.tag))

/-- What may be due, the queues of the dies apart; a take-back comes before the grant of a held acquire (R345). -/
noncomputable def candidates (s : State) : List Action :=
  ([0, 1].filter fun die => (s.die die).ready[0] != []).map (fun die => plainEvent (.latencyTakeBack die)) ++
    s.groups.flatMap (dueOfGroup s) ++ dueElsewhere s

/-! ## Events that may happen -/

/-- Events of a wave that may happen now or later (R56, R175). -/
noncomputable def openOfWave (g : Group) (w : Wave) : List Action :=
  ((timed w).zipIdx.map fun e => ⟨g.uid, w.uid, .event (.longLatencyCompletion e.2)⟩) ++ (if w.nt ≠ [] then [⟨g.uid, w.uid, .stores⟩] else [])

/-- Events of a group that may happen now or later (R180, R225, R343). -/
noncomputable def openOfGroup (g : Group) : List Action :=
  let mk (i : Instr) : Action := ⟨g.uid, g.wave.uid, .event i⟩
  g.all.flatMap (openOfWave g) ++
  (g.copies.zipIdx.map fun e => mk (.copyCompletion e.2)) ++
  (g.epilogues.zipIdx.map fun e => mk (.epilogueRowStore e.2)) ++
  (if (stalledWave g).isSome then [mk (.midgeStart g.uid)] else [])

/-- Everything that may happen now or later (R257, R259, R350, R395, R450). -/
noncomputable def openEvents (s : State) : List Action :=
  s.groups.flatMap openOfGroup ++
  (s.gathers.zipIdx.map fun e => plainEvent (.gatherCommand e.2)) ++
  (s.fabrics.zipIdx.map fun e => plainEvent (.fabricCommandCompletion e.2 0)) ++
  (s.cores.flatMap fun c => c.2.misses.zipIdx.map fun m => plainEvent (.missFillArrival c.1 m.2)) ++
  ((s.die0.migrations ++ s.die1.migrations).zipIdx.flatMap fun m => if m.1.copying then [plainEvent (.migrationCopyDone m.2 0)] else []) ++
  (if s.attestation.busy then [plainEvent .attestationReportReady] else [])

/-! ## Issues -/

/-- Whether the next instruction of the wave in focus is a group-set one (R466): bit 30 of its word, or SET of its dictionary code. -/
def nextIsGroup (s : State) : Bool :=
  match nextIssue s.w with
  | none => false
  | some (w, iss) => match (fetchInstr { (s.modW fun _ => w) with iss := iss }).2 with
    | .word w => testBit w 30
    | .code p => match decodeCode p with
      | .dictionaryCode set _ _ => set.val == 1
      | _ => false
    | .fault _ _ => false
    | .wait => false

/-- The waves that can issue, the one in focus last; stalled says whether the run was chosen before and waits. -/
def issues (stalled : Bool) (s : State) : List Action :=
  (s.rest ++ [s.grp]).flatMap fun g =>
    ((g.waves ++ [g.wave]).filter fun w => issuable g w && w.chosen.isSome == stalled).map fun w => ⟨g.uid, w.uid, .issue⟩

/-- An instruction at the PC of the chosen run: fetched, decoded and executed, or its decode fault taken (R46, R50, R58, R66 to R68). -/
noncomputable def issueAt (s : State) : Outcome :=
  if mustWait {} s then next stall s
  else match fetchInstr s with
    | (s, .wait) => next stall s
    | (s, .fault addr k) => next (fetchFault addr k) s
    | (s, .code p) =>
      if dictFailed s then next dictFault s
      else runInstr (decodeCode p) { s with iss := { s.iss with len := 2 } }
    | (s, .word w) =>
      if dictFailed s then next dictFault s
      else match decodeWord w with
        | .ok i => runInstr i { s with iss := { s.iss with len := 4 } }
        | .error _ => next (fun s => decodeFault 0x03 s.here s) s

/-- An issue takes its identity when its run is chosen, and keeps it while the run waits (R407). -/
def identify (iss : Issue) (s : State) : State := if iss.id = 0 then { s.fresh with iss := { iss with id := s.nextUid } } else { s with iss := iss }

/-- The group pipe has served the wave in focus (R466). -/
def servePipe (c slot : Nat) (s : State) : State := s.modCore c fun k => { k with pipe := slot }

/-- The wave in focus issues: its run is chosen, and the issue ends (R134, R411). -/
noncomputable def issueWave (s : State) : Outcome :=
  match nextIssue s.w with
  | none => .next s
  | some (w, iss) =>
    match issueAt (identify iss (s.modW fun _ => { w with issues := w.issues + 1 })) with
    | .next t =>
      let t := endIssue t
      .next (if nextIsGroup s && t.w.chosen.isNone then servePipe s.coreNo s.w.slot t else t)
    | .fault f => .fault f
    | .refused r => .refused r

/-- A run that stays pending in the image of a saved group goes on, and once it has its result completes; the result or the fault goes into the image (R412). -/
noncomputable def farIssue (v : Saved) (wave : Nat) (s : State) : Outcome :=
  match issueWave { s with grp := v.group.focus wave, rest := s.grp :: s.rest } with
  | .next t =>
    let t := if t.w.chosen.isNone then completeAll t.w.pending.length t else t
    let g := (t.modW fun w => { w with issues := (v.group.focus wave).wave.issues }).grp
    let put (d : Die) : Die := { d with saved := d.saved.map fun u => if u = v then { u with group := g } else u }
    let t := match t.rest with
      | h :: r => { t with grp := h, rest := r }
      | [] => t
    .next (refreshImage wave ((t.modDie 0 put).modDie 1 put))
  | .fault f => .fault f
  | .refused r => .refused r

/-- The saved group of an identity goes on with the run of a wave. -/
noncomputable def farAct (a : Action) (s : State) : Outcome :=
  match (s.die0.saved ++ s.die1.saved).find? fun v => v.group.uid == a.group with
  | some v => farIssue v a.wave s
  | none => .next s

/-- The runs that stay pending in the images of saved groups. -/
noncomputable def farRuns (s : State) : List Action :=
  (s.die0.saved ++ s.die1.saved).flatMap fun v => (v.group.all.filter fun w => w.chosen.isSome).map fun w => ⟨v.group.uid, w.uid, .far⟩

/-- The oldest non-temporal store of the issuing wave performs, once nothing makes it wait (R175, R353, R395). -/
def performOldest (s : State) : State :=
  match s.w.nt with
  | [] => s
  | n :: t => match blockedAt (wordsOf n.addr n.data.length) s with
    | (s, true) => s
    | (s, false) => (performNt s.w.uid s.coreNo n s).modW fun w => { w with nt := t }

/-- A deed done. -/
noncomputable def act (a : Action) (s : State) : Outcome :=
  let s := focusOn a s
  match a.deed with
  | .event i => exec i s
  | .ahead => next runAhead s
  | .deadlock => next deadlockTrap s
  | .stores => next performOldest s
  | .far => farAct a s
  | .issue => issueWave s

/-- Whether a deed changes anything but the counters of identities and choices and what L2 holds. -/
noncomputable def fires (s : State) (a : Action) : Bool :=
  match act a s with
  | .next t => decide ({ t with nfree := s.nfree, nextUid := s.nextUid, l2 := s.l2 } ≠ focusOn a s)
  | .fault _ => false
  | .refused _ => false

/-- The deed that is due, the queues of the dies apart. -/
noncomputable def due (s : State) : Option Action := (candidates s).find? (fires s)

/-- Whether an issue's turn has come: of the waves of a core whose group-set runs can issue, the group pipe takes the one whose slot comes next after
that of the wave it served last (R466). A lane-set issue waits for nobody. -/
noncomputable def turnAt (s : State) (l : List Action) (a : Action) : Bool :=
  let t := focusOn a s
  let core := t.coreNo
  let rank (u : State) : Nat := (u.w.slot + 63 - (s.core core).pipe) % 64
  let goes (b : Action) : Bool := match issueWave (focusOn b s) with
    | .next u => u.w.chosen.isNone
    | .fault _ => true
    | .refused _ => true
  let mates := l.filter fun b => b != a && b.deed == .issue && (s.groups.find? fun g => g.uid == b.group).any fun g => g.core == core
  a.deed != .issue || mates == [] || !nextIsGroup t || mates.all fun b =>
    let u := focusOn b s
    !nextIsGroup u || decide (rank t < rank u) || !goes b

/-- The deeds of which one happens when no such deed is due: what the queues of the dies do, which stand in a serial order that the
manual leaves open (R330); with none of these, the issues of waves that do not wait, open events, and the issues of waves that wait. -/
noncomputable def options (s : State) : List Action :=
  match (dueOfDie s 0 ++ dueOfDie s 1).filter (fires s) with
  | [] =>
    let l := issues false s ++ issues true s
    (issues false s).filter (turnAt s l) ++ (openEvents s ++ farRuns s).filter (fires s) ++ (issues true s).filter (turnAt s l)
  | a :: t => a :: t

/-- The deed of a step, and the state with the choice made. -/
noncomputable def nextDeed (s : State) : Option Action :=
  match due s with
  | some a => some a
  | none => (options s)[s.choice (options s).length]?

/-- The counter of choices after the deed is chosen. -/
noncomputable def chosen (s : State) : State := if (due s).isSome then s else s.chose (options s).length

/-- Whether the compute dies run. -/
def running (s : State) : Bool := bootStep s == 6 && !s.frozen

/-- What waits for another agent or for a page is tried again: writes of the scheduler, recalls, migrations, lease requests, fills, writes behind
fan-outs, and the fabric. -/
def retryHeld (s : State) : State :=
  pumpFabric (pumpFans (retryFills (answerWaits (advanceMigrations (answerRecalls (retryPokes s))))))

/-- The errors of bursts whose line is dirty in L2 are gone: the burst is written anew (R423, R440; log entry 41). -/
def settleDram (s : State) : State := if s.raws = [] then s else { s with raws := s.raws.filter fun r => !dirtyInL2 s (lineOf r.burst) }

/-- Time passes (R5, R38, R337): an arithmetic clock never runs faster than the reference clock. Nodes discarded by an error are re-queued (R417), and
what was held is tried again. -/
def timePasses (s : State) : State :=
  let cycles (core : Nat) : Nat := min (Config.cycles s.nfree core) (1 + Config.ticks s.nfree)
  let s := settleDram s
  let s := if running s then chargeJobs cycles (countCorrected (Config.corrected s.nfree) (restartNext (retryHeld (settleDiscards s)))) else s
  { s with clock := s.clock + 1 + Config.ticks s.nfree, nfree := s.nfree + 1 }

/-! ## Input -/

/-- Whether an input acts while the compute dies are in reset or frozen (R426, R444): the control cores, the window and the base dies run. -/
def offDie (i : Instr) : Bool :=
  match i with
  | .deviceReset _ => true
  | .bootRetry _ => true
  | .devcmdReset _ => true
  | .devcmdFreeze => true
  | .freezeL => true
  | .deviceFault _ _ => true
  | .registerWrite _ _ _ => true
  | .cohcfgWrite _ _ => true
  | .attestationNonce _ => true
  | .attestationReportReady => true
  | .compareWrite _ tag _ _ => tag.isNone
  | .weevilBurst _ _ _ => true
  | _ => false

/-- The end of a step. -/
def thenTime (o : Outcome) : Outcome :=
  match o with
  | .next t => next timePasses t
  | .fault f => .fault f
  | .refused r => .refused r

end Sys2Proof.Machine
end

