-- ==== Sys2Proof/Machine/Step.lean ====
section
/-! DEFINITION. One step of the machine, and the placing of an instruction where the next step fetches it. -/

namespace Sys2Proof.Machine

/-- One step: the first waiting input lands, or what is due happens, or a wave issues, or an open event happens, or time passes. While the
compute dies are in reset or frozen only the inputs of R426 and R444 act. -/
noncomputable def step (s : State) : Host.Outcome State Fault Refusal :=
  match s.inbox with
  | i :: t =>
    if running s || offDie i then thenTime (exec i { s with inbox := t }) else thenTime (.next { s with inbox := t })
  | [] =>
    if running s then
      match nextDeed s with
      | some a => thenTime (act a (chosen s))
      | none => thenTime (.next s)
    else thenTime (.next s)

/-- The virtual and physical address of the placed instruction. -/
def placeAt : Nat := 0x1000

/-- A level-0 table, a level-1 table and a leaf of 1 GiB at virtual and physical address 0, writable and executable (R383). -/
def placedTables : List (Nat × List Byte) := [(0x100000, leBytes 8 0x110001), (0x110000, leBytes 8 0xF)]

/-- The kernel of the placed group: it declares the whole of a core (R30, R276). -/
def placedKernel : Kernel where
  id := 1
  ctx := 0
  code := 0x1000
  dictAddr := 0
  dictLen := 0
  sliceOff := 0
  declared := 0x3004084080
  dict := []
  failed := false
  pins := [0x200000]
  avg := none

/-- The record of the placed group. -/
def placedRecord : Record := { Record.blank with addr := 0x200100, launch := 0x200000, code := 0x1000, lastLanes := 32 }

/-- The placed group: privileged, one wave of 32 ready lanes at the instruction, every resource granted. -/
def placedGroup : Group :=
  { Group.blank with
    live := true, uid := 1, task := placedRecord, handler := 0x2000, sys := true
    allot := 0x3084084080, tags := ~~~0, kernel := 1
    wave := { Wave.blank with
      uid := 2
      pc := Lanes.all 0x1000
      st := Lanes.all .ready } }

/-- The capability beat of a 48 GiB stack that presents every channel (R3, R442). -/
def everyChannel : BitVec 128 := BitVec.ofNat 128 (0xFFFFFFFF * 2 ^ 24 + 48 * 2 ^ 12 + 16 * 2 ^ 8 + 1)

/-- The state with an instruction of nbits bits, numbered as the opcode table numbers them, stored where the next step fetches: the boot is
over, context 0 is live with the tables above, the group stands on core 0 at the instruction, and nothing else waits. -/
def State.withFetchWord (s : State) (nbits w : Nat) : State :=
  let lay (m : Mem) (e : Nat × List Byte) : Mem := m.writes e.1 e.2
  { s with
    grp := placedGroup, rest := [], iss := Issue.of 0 0 4 none, latch := none, stores := []
    mem := (placedTables ++ [(placeAt, tableBytes nbits w)]).foldl lay s.mem
    cores := [(0, { Core.blank with tagmap := ~~~0 })]
    die0 := { Die.blank with kernels := [placedKernel], stealAfter := s.clock + 3000 }, die1 := { Die.blank with stealAfter := s.clock + 3000 }
    ctxs := [(0, { Context.blank with state := .live, root := 0x100000 })]
    provs := [], bands := [], aliases := [], regions := [], fanOuts := [], owned := [], merges := [], discards := [], pokes := [], tlb := [], waits := []
    gathers := [], fabrics := [], inbox := [], swaps := [], hostbusy := none, attestation := { s.attestation with busy := false }
    links := s.links.map fun l => { l with up := false, recal := none }
    isais := s.isais.map fun p => { p with audited := s.clock, recal := none, outstanding := [], capability := everyChannel, retired := [] }
    bootstat := bootWord 6 0 0, retryAt := none, frozen := false, nextUid := max s.nextUid 3 }

end Sys2Proof.Machine
end

