-- ==== Sys2Proof/Safety.lean ====
section
/-! DEFINITION. What claims about the machine are stated in: the conditions under which an instruction executes normally, the state it starts
from once the PCs have advanced, and the invariants of a run. -/

namespace Sys2Proof.Machine

/-! ## An instruction that executes -/

/-- A run of an ordinary wave issues for the first time: it is not empty, nothing is pending for its lanes (R57 to R59), and no bytes of an
earlier step wait to be laid into memory. -/
abbrev CanIssue (s : State) : Prop :=
  s.w.mode = .normal ∧ s.iss.run ≠ 0 ∧ s.iss.replay = none ∧ s.stores = [] ∧ ∀ p ∈ s.w.pending, p.lanes &&& s.iss.run = 0

/-- Registers within the wave's allotment (R14). -/
abbrev Within (rs : List Reg) (s : State) : Prop := ∀ r ∈ rs, beyond s.grp.allot r = false

/-- No lane of the run is in a trap handler of the wave. -/
abbrev Outside (s : State) : Prop := s.iss.run &&& s.w.handlerLanes = 0

/-- The lanes that an instruction of the lane set acts on: those of the run, less those that an open guard window disables (R62). -/
def laneSet (s : State) : Mask :=
  s.iss.run &&& maskOf fun l => s.w.guard[l].count == 0 || (s.w.rdP s.w.guard[l].pred.val l != s.w.guard[l].neg)

/-- The lanes that an instruction acts on: a guard window reaches the per-lane instructions alone (R45, R62). -/
def enabled (perLane : Bool) (s : State) : Mask := if perLane then laneSet s else s.iss.run

/-- The wave once the PCs of the run stand after the instruction and, for a per-lane instruction, the run's guard windows have counted it
(R26, R62). -/
def pastWave (perLane : Bool) (s : State) : Wave :=
  { s.w with
    pc := Lanes.ofFn fun l => if bit s.iss.run l then s.w.pc[l] + BitVec.ofNat 56 s.iss.len else s.w.pc[l]
    guard := if perLane then Lanes.ofFn fun l =>
        if bit s.iss.run l then { s.w.guard[l] with count := s.w.guard[l].count - 1 } else s.w.guard[l]
      else s.w.guard }

/-- The state after an instruction that has no effect but to be passed. -/
def past (perLane : Bool) (s : State) : State := s.modW fun _ => pastWave perLane s

/-- The masks and the wave before, as a meaning's effect takes them. -/
def execOf (perLane : Bool) (s : State) : Exec := ⟨enabled perLane s, s.iss.run, s.w⟩

/-! ## Invariants -/

/-- Memory is in its canonical form and no store of a step waits. -/
abbrev MemOk (s : State) : Prop := Mem.wf s.mem = true ∧ s.stores = []

end Sys2Proof.Machine
end

