-- ==== Sys2Proof/Certificates/Slice0/Obligations.lean ====
section
/-! DEFINITION. The statements for the provers, each a proposition of its own; a statement of several parts is the conjunction of propositions defined
beside it. The namespace Claims holds what they are stated in, written from the manual beside the machine's own definitions. -/

namespace Sys2Proof.Claims
open Sys2Proof Sys2Proof.Machine

/-- A form of two sources with the value that the manual gives its destination; of one; of one with an immediate. -/
abbrev Two := (Fin 128 → Fin 128 → Fin 128 → Instr) × (Word → Word → Word)
abbrev One := (Fin 128 → Fin 128 → Instr) × (Word → Word)
abbrev Imm := (Fin 128 → Fin 128 → BitVec 9 → Instr) × (Word → Word → Word)
/-- A form that reads its destination as well: old destination, a, b. -/
abbrev Three := (Fin 128 → Fin 128 → Fin 128 → Instr) × (Word → Word → Word → Word)

/-- In every enabled lane the destination takes the value of the lane's own sources; nothing else changes but the PCs and guard windows. -/
def LaneTwo (t : List Two) : Prop := ∀ e ∈ t, ∀ d a b s, CanIssue s → Within [.v a.val, .v b.val, .v d.val] s →
  exec (e.1 d a b) s = .next ((past true s).modW fun w => w.wrV d (laneSet s) fun l => e.2 (s.w.rdV a l) (s.w.rdV b l))
def LaneOne (t : List One) : Prop := ∀ e ∈ t, ∀ d a s, CanIssue s → Within [.v a.val, .v d.val] s →
  exec (e.1 d a) s = .next ((past true s).modW fun w => w.wrV d (laneSet s) fun l => e.2 (s.w.rdV a l))
def LaneImm (t : List Imm) : Prop := ∀ e ∈ t, ∀ d a i s, CanIssue s → Within [.v a.val, .v d.val] s →
  exec (e.1 d a i) s = .next ((past true s).modW fun w => w.wrV d (laneSet s) fun l => e.2 (s.w.rdV a l) (i.signExtend 32))
def LaneThree (t : List Three) : Prop := ∀ e ∈ t, ∀ d a b s, CanIssue s → Within [.v a.val, .v b.val, .v d.val] s →
  exec (e.1 d a b) s = .next ((past true s).modW fun w => w.wrV d (laneSet s) fun l => e.2 (s.w.rdV d l) (s.w.rdV a l) (s.w.rdV b l))

/-- The group register takes the value, once for the run; nothing else changes but the PCs. -/
def GroupTwo (t : List Two) : Prop := ∀ e ∈ t, ∀ d a b s, CanIssue s →
  exec (e.1 d a b) s = .next ((past false s).wrS d (e.2 (s.rdS a) (s.rdS b)))
def GroupOne (t : List One) : Prop := ∀ e ∈ t, ∀ d a s, CanIssue s →
  exec (e.1 d a) s = .next ((past false s).wrS d (e.2 (s.rdS a)))
def GroupImm (t : List Imm) : Prop := ∀ e ∈ t, ∀ d a i s, CanIssue s →
  exec (e.1 d a i) s = .next ((past false s).wrS d (e.2 (s.rdS a) (i.signExtend 32)))
def GroupThree (t : List Three) : Prop := ∀ e ∈ t, ∀ d a b s, CanIssue s →
  exec (e.1 d a b) s = .next ((past false s).wrS d (e.2 (s.rdS d) (s.rdS a) (s.rdS b)))

/-- Bits 63:32 of a product. -/
def upper (x : DWord) : Word := (x >>> 32).setWidth 32

/-- The arithmetic of R103. -/
def arithTable (add addI addN sub subI subN mul mulI mulN minI minN maxI maxN : Fin 128 → Fin 128 → Fin 128 → Instr) : List Two :=
  [(add, fun a b => a + b),
   (addI, fun a b => BitVec.ofInt 32 (max (-2 ^ 31) (min (a.toInt + b.toInt) (2 ^ 31 - 1)))),
   (addN, fun a b => BitVec.ofNat 32 (min (a.toNat + b.toNat) (2 ^ 32 - 1))),
   (sub, fun a b => a - b),
   (subI, fun a b => BitVec.ofInt 32 (max (-2 ^ 31) (min (a.toInt - b.toInt) (2 ^ 31 - 1)))),
   (subN, fun a b => BitVec.ofNat 32 (a.toNat - b.toNat)),
   (mul, fun a b => a * b),
   (mulI, fun a b => upper (a.signExtend 64 * b.signExtend 64)),
   (mulN, fun a b => upper (a.setWidth 64 * b.setWidth 64)),
   (minI, fun a b => if a.sle b then a else b),
   (minN, fun a b => if a ≤ b then a else b),
   (maxI, fun a b => if b.sle a then a else b),
   (maxN, fun a b => if b ≤ a then a else b)]

/-- The count of a shift: bits 7:0. -/
def count (b : Word) : Nat := (b.setWidth 8).toNat

/-- The logical and shift family of R105. -/
def logicTable (and or xor andn shl shr sar rot : Fin 128 → Fin 128 → Fin 128 → Instr) : List Two :=
  [(and, fun a b => a &&& b),
   (or, fun a b => a ||| b),
   (xor, fun a b => a ^^^ b),
   (andn, fun a b => a &&& ~~~b),
   (shl, fun a b => if 32 ≤ count b then 0 else a <<< count b),
   (shr, fun a b => if 32 ≤ count b then 0 else a >>> count b),
   (sar, fun a b => a.sshiftRight (min (count b) 31)),
   (rot, fun a b => a.rotateLeft (count b % 32))]

/-- The immediate forms of R104; a shift count of a well-formed shift lies below 32. -/
def immTable (add mul and or xor : Fin 128 → Fin 128 → BitVec 9 → Instr) : List Imm :=
  [(add, fun a i => a + i), (mul, fun a i => a * i), (and, fun a i => a &&& i), (or, fun a i => a ||| i), (xor, fun a i => a ^^^ i)]
def shiftTable : List ((Fin 128 → Fin 128 → BitVec 9 → Instr) × (Fin 128 → Fin 128 → BitVec 9 → Instr) × (Word → Nat → Word)) :=
  [(.shli, .gShli, fun a n => a <<< n), (.shri, .gShri, fun a n => a >>> n), (.sari, .gSari, fun a n => a.sshiftRight n)]

/-- The bit counts of R106. -/
def bitTable (popc clz ctz brev : Fin 128 → Fin 128 → Instr) : List One :=
  [(popc, fun a => BitVec.ofNat 32 ((List.range 32).countP fun i => a.getLsbD i)),
   (clz, fun a => BitVec.ofNat 32 ((List.range 32).takeWhile fun i => !a.getLsbD (31 - i)).length),
   (ctz, fun a => BitVec.ofNat 32 ((List.range 32).takeWhile fun i => !a.getLsbD i).length),
   (brev, fun a => a.reverse)]

/-- Position, top and width of the field of R107. -/
def pos (b : Word) : Nat := (b.setWidth 5).toNat
def top (b : Word) : Nat := min (pos b + min ((b >>> 8).setWidth 6).toNat 32) 32
def width (b : Word) : Nat := top b - pos b

/-- The field extracts of R107 and the insert of R108. -/
def fieldTable (n i : Fin 128 → Fin 128 → Fin 128 → Instr) : List Two :=
  [(n, fun a b => ((a >>> pos b).setWidth (width b)).setWidth 32),
   (i, fun a b => ((a >>> pos b).setWidth (width b)).signExtend 32)]
def insertField (d a b : Word) : Word :=
  maskOf fun i => if pos b ≤ i.val ∧ i.val < top b then a.getLsbD (i.val - pos b) else d.getLsbD i.val

/-- The relations of R111 on words. -/
def wordRelations (eq ne ltI ltN leI leN : Fin 128 → Fin 128 → Fin 128 → Instr) :
    List ((Fin 128 → Fin 128 → Fin 128 → Instr) × (Word → Word → Bool)) :=
  [(eq, fun a b => decide (a = b)), (ne, fun a b => decide (a ≠ b)), (ltI, fun a b => a.slt b), (ltN, fun a b => a.ult b),
   (leI, fun a b => a.sle b), (leN, fun a b => a.ule b)]

/-- An FP32 word that is a NaN, and the place of another in numeric order, both zeros at 0 (R75, R111). -/
def isNaN (x : Word) : Bool := decide (0x7F800000 < (x &&& 0x7FFFFFFF))
def place (x : Word) : Int := if x.msb then -((x &&& 0x7FFFFFFF).toNat : Int) else (x.toNat : Int)
def floatRelations (eq ne lt le : Fin 128 → Fin 128 → Fin 128 → Instr) :
    List ((Fin 128 → Fin 128 → Fin 128 → Instr) × (Word → Word → Bool)) :=
  [(eq, fun a b => !isNaN a && !isNaN b && decide (place a = place b)),
   (ne, fun a b => isNaN a || isNaN b || decide (place a ≠ place b)),
   (lt, fun a b => !isNaN a && !isNaN b && decide (place a < place b)),
   (le, fun a b => !isNaN a && !isNaN b && decide (place a ≤ place b))]
def laneRelations := wordRelations .cmpEqB32 .cmpNeB32 .cmpLtI32 .cmpLtN32 .cmpLeI32 .cmpLeN32 ++
  floatRelations .cmpEqF32 .cmpNeF32 .cmpLtF32 .cmpLeF32
def groupRelations := wordRelations .gCmpEqB32 .gCmpNeB32 .gCmpLtI32 .gCmpLtN32 .gCmpLeI32 .gCmpLeN32 ++
  floatRelations .gCmpEqF32 .gCmpNeF32 .gCmpLtF32 .gCmpLeF32

/-- Byte i of a word, and the word of four bytes. -/
def byte (x : Word) (i : Nat) : BitVec 8 := (x >>> (8 * i)).setWidth 8
def ofBytes (f : Nat → BitVec 8) : Word := f 3 ++ f 2 ++ f 1 ++ f 0

/-- perm.b8 (R115). -/
def permute (sel a b : Word) : Word := ofBytes fun j =>
  let c := byte sel j
  let src := byte (if c.getLsbD 2 then b else a) (c.setWidth 2).toNat
  if c.getLsbD 7 then 0 else if c.getLsbD 6 then (if src.getLsbD 7 then 255 else 0) else src

end Sys2Proof.Claims

section
open Sys2Proof Sys2Proof.Machine Sys2Proof.Claims

/-- R103: the arithmetic family, per enabled lane in the lane set and once in the group set. -/
def Sys2Proof.Claims.IntegerArithmetic : Prop :=
  LaneTwo (arithTable .addB32 .addSatI32 .addSatN32 .subB32 .subSatI32 .subSatN32 .mulLoB32 .mulHiI32 .mulHiN32 .minI32 .minN32 .maxI32 .maxN32) ∧
  GroupTwo (arithTable .gAddB32 .gAddSatI32 .gAddSatN32 .gSubB32 .gSubSatI32 .gSubSatN32 .gMulLoB32 .gMulHiI32 .gMulHiN32 .gMinI32 .gMinN32
    .gMaxI32 .gMaxN32) ∧
  LaneThree [(.madB32, fun d a b => d + a * b)] ∧ GroupThree [(.gMadB32, fun d a b => d + a * b)]

/-- R105 and the immediate forms of R104: logic and shifts in both sets. -/
def Sys2Proof.Claims.LogicShiftsAndImmediates : Prop :=
  LaneTwo (logicTable .andB32 .orB32 .xorB32 .andnB32 .shlB32 .shrN32 .sarI32 .rotB32) ∧
  GroupTwo (logicTable .gAndB32 .gOrB32 .gXorB32 .gAndnB32 .gShlB32 .gShrN32 .gSarI32 .gRotB32) ∧
  LaneImm (immTable .addi .muli .andi .ori .xori) ∧ GroupImm (immTable .gAddi .gMuli .gAndi .gOri .gXori) ∧
  (∀ e ∈ shiftTable, ∀ d a i, i.toNat < 32 →
    (∀ s, CanIssue s → Within [.v a.val, .v d.val] s →
      exec (e.1 d a i) s = .next ((past true s).modW fun w => w.wrV d (laneSet s) fun l => e.2.2 (s.w.rdV a l) i.toNat)) ∧
    ∀ s, CanIssue s → exec (e.2.1 d a i) s = .next ((past false s).wrS d (e.2.2 (s.rdS a) i.toNat))) ∧
  ∀ e ∈ shiftTable, ∀ d a i, 32 ≤ i.toNat → (e.1 d a i).check ≠ none ∧ (e.2.1 d a i).check ≠ none

/-- R106, R107 and R108: bit counts, field extracts and the field insert in both sets. -/
def Sys2Proof.Claims.BitCountsAndFields : Prop :=
  LaneOne (bitTable .popcB32 .clzB32 .ctzB32 .brevB32) ∧ GroupOne (bitTable .gPopcB32 .gClzB32 .gCtzB32 .gBrevB32) ∧
  LaneTwo (fieldTable .bfeN32 .bfeI32) ∧ GroupTwo (fieldTable .gBfeN32 .gBfeI32) ∧
  LaneThree [(.bfiB32, insertField)] ∧ GroupThree [(.gBfiB32, insertField)]

/-- R109, R110 and R117: sums of pairs, constants and moves. The higher register of a lane pair is within the allotment as well. -/
def Sys2Proof.Claims.PairsConstantsAndMoves : Prop :=
  (∀ e ∈ [((.addB64, .gAddB64, (· + ·)) : (Fin 128 → Fin 128 → Fin 128 → Instr) × (Fin 128 → Fin 128 → Fin 128 → Instr) × (DWord → DWord → DWord)),
      (.subB64, .gSubB64, (· - ·))], ∀ d a b s, CanIssue s →
    (Within [.v a.val, .v (a.val + 1), .v b.val, .v (b.val + 1), .v d.val, .v (d.val + 1)] s →
      exec (e.1 d a b) s = .next ((past true s).modW fun w => w.wrVV d (laneSet s) fun l => e.2.2 (s.w.rdVV a l) (s.w.rdVV b l))) ∧
    exec (e.2.1 d a b) s = .next ((past false s).wrSS d (e.2.2 (s.rdSS a) (s.rdSS b)))) ∧
  (∀ d i s, CanIssue s →
    exec (.lcLo d i) s = .next ((past false s).wrS d ((s.rdS d).extractLsb' 16 16 ++ i)) ∧
    exec (.lcHi d i) s = .next ((past false s).wrS d (i ++ (s.rdS d).extractLsb' 0 16))) ∧
  LaneOne [(.movB32, id)] ∧ GroupOne [(.gMovB32, id)] ∧
  ∀ d a s, CanIssue s →
    (Within [.v a.val, .v (a.val + 1), .v d.val, .v (d.val + 1)] s →
      exec (.movB64 d a) s = .next ((past true s).modW fun w => w.wrVV d (laneSet s) fun l => s.w.rdVV a l)) ∧
    exec (.gMovB64 d a) s = .next ((past false s).wrSS d (s.rdSS a)) ∧
    (Within [.v d.val] s → exec (.movs d a) s = .next ((past true s).modW fun w => w.wrV d (laneSet s) fun _ => s.rdS a))

/-- R111 and R112: compares. A lane compare writes the predicate bits of the enabled lanes, a group compare the word 1 or 0. -/
def Sys2Proof.Claims.Compares : Prop :=
  (∀ e ∈ laneRelations, ∀ d a b s, CanIssue s → Within [.v a.val, .v b.val] s → d.val < 7 →
    exec (e.1 d a b) s = .next ((past true s).modW fun w => w.wrP d.val (laneSet s) fun l => e.2 (s.w.rdV a l) (s.w.rdV b l))) ∧
  (∀ e ∈ groupRelations, ∀ d a b s, CanIssue s →
    exec (e.1 d a b) s = .next ((past false s).wrS d (if e.2 (s.rdS a) (s.rdS b) then 1 else 0))) ∧
  ∀ d a i s, CanIssue s →
    exec (.cmpiEq d a i) s = .next ((past false s).wrS d (if s.rdS a = i.signExtend 32 then 1 else 0)) ∧
    exec (.cmpiLt d a i) s = .next ((past false s).wrS d (if (s.rdS a).slt (i.signExtend 32) then 1 else 0))

/-- R113 to R116: selects, the byte permute and the nibble lookup. -/
def Sys2Proof.Claims.SelectsAndLookups : Prop :=
  (∀ d a b p s, CanIssue s → Within [.v a.val, .v b.val, .v d.val] s →
    exec (.sel d a b p) s = .next ((past true s).modW fun w => w.wrV d (laneSet s) fun l =>
      if s.w.rdP p.val l then s.w.rdV a l else s.w.rdV b l)) ∧
  GroupThree [(.selz, fun d a b => if b = 0 then a else d)] ∧ LaneThree [(.permB8, permute)] ∧
  ∀ d a b s, CanIssue s → a.val % 4 = 0 → Within [.v a.val, .v (a.val + 1), .v (a.val + 2), .v (a.val + 3), .v b.val, .v d.val] s →
    exec (.lutN4 d a b) s = .next ((past true s).modW fun w => w.wrV d (laneSet s) fun l => ofBytes fun j =>
      let t := ((byte (s.w.rdV b l) j).setWidth 4).toNat
      byte (s.w.rdV (Fin.ofNat 128 (a.val + t / 4)) l) (t % 4))

end

namespace Sys2Proof.Claims
open Sys2Proof Sys2Proof.Machine

/-- No instruction pending for a lane that a test holds for has the register as a destination (R118, R119). -/
def Settled (r : Reg) (f : Fin 32 → Prop) (s : State) : Prop := ∀ p ∈ s.w.pending, r ∈ p.dests → ∀ l, f l → bit p.lanes l = false

/-- The accesses of an instruction: whether it is a load of global memory or writes what it accesses, and their space: 1 global, 2 scratch, 3 comb. -/
structure Accesses where
  load   : Bool
  stores : Bool
  space  : Nat

/-- What a long-latency instruction whose lanes all succeed leaves (R56, R60): with lookahead 0 its results stand; else it is pending
with its results still to be written. -/
def deliveredAs (a : Accesses) (look : Nat) (dests : List Reg) (ws : List RegWrite) (en : Mask) (ordered : Bool) (s after : State) : State :=
  if look = 0 then applyAll after ws
  else (after.modW fun w => { w with pending := w.pending ++ [
    { id := after.nextUid, issue := s.iss.id, pc := s.iss.pc.setWidth 64, lanes := s.iss.run, enabled := en, issued := Lanes.all 0, look := look,
      dests := dests, writes := ws, faults := [], ordered := ordered, load := a.load, reach := [], space := a.space, stores := a.stores,
      restart := true, on := .time }] }).fresh

/-- The same for an instruction that accesses no memory. -/
def delivered (look : Nat) (dests : List Reg) (ws : List RegWrite) (en : Mask) (ordered : Bool) (s after : State) : State :=
  deliveredAs ⟨false, false, 0⟩ look dests ws en ordered s after

/-- A lane register as another lane reads it: 0 in an inactive lane (R119). -/
def seen (w : Wave) (a : Fin 128) (l : Fin 32) : Word := if w.st[l] = .inactive then 0 else w.rdV a l

/-- The source lane of R120, from the reader's own word. -/
def sourceFrom (_ : Fin 32) (b : Word) : Option (Fin 32) := some ⟨(b.setWidth 5).toNat, (b.setWidth 5).isLt⟩
def sourceBack (l : Fin 32) (b : Word) : Option (Fin 32) :=
  let δ : Fin 32 := ⟨(b.setWidth 5).toNat, (b.setWidth 5).isLt⟩
  if δ ≤ l ∨ b.getLsbD 5 then some (l - δ) else none
def sourceFwd (l : Fin 32) (b : Word) : Option (Fin 32) :=
  let δ : Fin 32 := ⟨(b.setWidth 5).toNat, (b.setWidth 5).isLt⟩
  if l.val + δ.val ≤ 31 ∨ b.getLsbD 5 then some (l + δ) else none
def sourceSwap (l : Fin 32) (b : Word) : Option (Fin 32) := some (Fin.ofNat 32 (l.val ^^^ (b.setWidth 5).toNat))
def xlaneTable : List ((Fin 128 → Fin 128 → Fin 128 → Instr) × (Fin 32 → Word → Option (Fin 32))) :=
  [(.xlaneFrom, sourceFrom), (.xlaneBack, sourceBack), (.xlaneFwd, sourceFwd), (.xlaneSwap, sourceSwap)]

/-- A value by R150 in a rounding mode: the exact result rounded once to FP32. -/
def floatTwo (r : Fin 4) (add sub mul : Fin 128 → Fin 128 → Fin 128 → Fin 4 → Instr) : List Two :=
  [(fun d a b => add d a b r, fun a b => toF32 (modeOf r) (addNum (modeOf r) (f32 a) (f32 b))),
   (fun d a b => sub d a b r, fun a b => toF32 (modeOf r) (addNum (modeOf r) (f32 a) (negNum (f32 b)))),
   (fun d a b => mul d a b r, fun a b => toF32 (modeOf r) (mulNum (f32 a) (f32 b)))]
def floatThree (r : Fin 4) (fma : Fin 128 → Fin 128 → Fin 128 → Fin 4 → Instr) : List Three :=
  [(fun d a b => fma d a b r, fun d a b => toF32 (modeOf r) (addNum (modeOf r) (mulNum (f32 a) (f32 b)) (f32 d)))]

/-- The order of R151: -0 below +0. -/
def below (a b : Word) : Bool := decide (place a < place b) || (decide (place a = place b) && a.msb && !b.msb)
def minMaxTable : List Two :=
  [(.fminF32, fun a b => if isNaN a ∨ isNaN b then 0x7FC00000 else if below b a then b else a),
   (.fmaxF32, fun a b => if isNaN a ∨ isNaN b then 0x7FC00000 else if below a b then b else a),
   (.fminNumF32, fun a b => if isNaN a ∧ isNaN b then 0x7FC00000 else if isNaN a then b else if isNaN b then a else if below b a then b else a),
   (.fmaxNumF32, fun a b => if isNaN a ∧ isNaN b then 0x7FC00000 else if isNaN a then b else if isNaN b then a else if below a b then b else a)]

/-- The functions of R154. -/
def rootTable (r : Fin 4) : List ((Fin 128 → Fin 128 → Fin 16 → Instr) × (Word → Word)) :=
  [(.frcpF32, frcpOp), (.frsqF32, frsqOp), (fun d a l => .fsqrtF32 d a r l, fsqrtOp (modeOf r)), (.fexp2F32, fexp2Op), (.flog2F32, flog2Op),
   (.fsinF32, fsinOp), (.fcosF32, fcosOp)]

/-- The two blocks of sbpack as one number (R159), and the words of the lowest lanes as one number (R160). -/
def packed (k : Nat) (w : Wave) (a : Fin 128) : Nat :=
  sbEncode k ((List.range 16).map fun i => (seen w a (Fin.ofNat 32 i)).toNat) +
    2 ^ (8 * sbBytes k) * sbEncode k ((List.range 16).map fun i => (seen w a (Fin.ofNat 32 (16 + i))).toNat)
def streamOf (w : Wave) (a : Fin 128) : Nat → Nat
  | 0 => 0
  | n + 1 => streamOf w a n + (seen w a (Fin.ofNat 32 n)).toNat * 2 ^ (32 * n)

end Sys2Proof.Claims

section
open Sys2Proof Sys2Proof.Machine Sys2Proof.Claims

/-- R118, R122 and R146: moves between the register sets and the read of another lane. -/
def Sys2Proof.Claims.MovesBetweenSets : Prop :=
  (∀ d a l k s, CanIssue s → Within [.v a.val] s → Settled (.v a.val) (· = l) s →
    exec (.rdlane d a l k) s = .next (delivered k.val [.s d.val] [.s d (seen s.w a l)] s.iss.run false s (past false s))) ∧
  (∀ d a l s, CanIssue s → Within [.v d.val] s → Settled (.v d.val) (· = l) s →
    exec (.wrlane d a l) s = .next (if s.w.st[l] = .inactive then past false s
      else (past false s).modW fun w => w.wrV d (BitVec.twoPow 32 l.val) fun _ => s.rdS a)) ∧
  (∀ d p k s, CanIssue s → exec (.votec d p k) s = .next (delivered k.val [.s d.val]
    [.s d (BitVec.ofNat 32 (laneList.countP fun l => bit s.iss.run l && s.w.rdP p.val l))] s.iss.run false s (past false s))) ∧
  (∀ d a l s, CanIssue s → l.val < 32 → Within [.v a.val, .v d.val] s → Settled (.v a.val) (fun j => j.val = l.val) s →
    exec (.bcast d a l) s = .next ((past true s).modW fun w => w.wrV d (laneSet s) fun _ => seen s.w a (Fin.ofNat 32 l.val))) ∧
  ∀ d (k : Fin 12) s, CanIssue s → exec (.popk d (k.castLE (by decide))) s =
    .next ((past false s).wrS d (BitVec.ofNat 32 (laneList.countP (bit s.w.k[k]))))

/-- R119 to R121: each enabled lane takes the word of the lane it names, or 0; lsh shifts a row by a word or by a byte. -/
def Obligations.ExchangeBetweenLanes : Prop :=
  (∀ e ∈ xlaneTable, ∀ d a b s, CanIssue s → Within [.v a.val, .v b.val, .v d.val] s →
    Settled (.v a.val) (fun j => ∃ l, bit (laneSet s) l = true ∧ e.2 l (s.w.rdV b l) = some j) s →
    exec (e.1 d a b) s = .next ((past true s).modW fun w => w.wrV d (laneSet s) fun l =>
      match e.2 l (s.w.rdV b l) with
      | some j => seen s.w a j
      | none => 0)) ∧
  ∀ d a b s, CanIssue s → Within [.v a.val, .v b.val, .v d.val] s →
    Settled (.v a.val) (fun j => ∃ l, bit (laneSet s) l = true ∧ l.val = j.val + 1) s →
    Settled (.v b.val) (fun j => bit (laneSet s) 0 = true ∧ j = 31) s →
    let before (l : Fin 32) : Word := if l = 0 then seen s.w b 31 else seen s.w a (l - 1)
    exec (.lshB32 d a b) s = .next ((past true s).modW fun w => w.wrV d (laneSet s) before) ∧
    exec (.lshB8 d a b) s = .next ((past true s).modW fun w => w.wrV d (laneSet s) fun l =>
      (s.w.rdV a l).extractLsb' 0 24 ++ (before l).extractLsb' 24 8)

/-- R123 and R124: tests of a predicate over the enabled lanes, and the ballot word. -/
def Sys2Proof.Claims.PredicateTests : Prop :=
  ∀ d a s, CanIssue s →
    let one (l : Fin 32) : Prop := bit (laneSet s) l = true ∧ s.w.rdP a.val l = true
    let zero (l : Fin 32) : Prop := bit (laneSet s) l = true ∧ s.w.rdP a.val l = false
    (d.val < 7 → exec (.wtestEvery d a) s = .next ((past true s).modW fun w => w.wrP d.val (laneSet s) fun _ => decide (¬ ∃ l, zero l)) ∧
      exec (.wtestSome d a) s = .next ((past true s).modW fun w => w.wrP d.val (laneSet s) fun _ => decide (∃ l, one l)) ∧
      exec (.wtestAgree d a) s = .next ((past true s).modW fun w => w.wrP d.val (laneSet s) fun _ =>
        decide (¬ ((∃ l, zero l) ∧ ∃ l, one l)))) ∧
    (Within [.v d.val] s → exec (.ballot d a) s =
      .next ((past true s).modW fun w => w.wrV d (laneSet s) fun _ => maskOf fun l => decide (one l)))

/-- R150, R151 and R152: the sums and products of FP32 rounded once, the minima and maxima, and the sign operations. -/
def Sys2Proof.Claims.FloatArithmetic : Prop :=
  (∀ r, LaneTwo (floatTwo r .faddF32 .fsubF32 .fmulF32) ∧ GroupTwo (floatTwo r .gFaddF32 .gFsubF32 .gFmulF32) ∧
    LaneThree (floatThree r .ffmaF32) ∧ GroupThree (floatThree r .gFfmaF32)) ∧
  LaneTwo minMaxTable ∧ LaneTwo [(.fcopysignF32, fun a b => b.extractLsb' 31 1 ++ a.extractLsb' 0 31)] ∧
  LaneOne [(.fabsF32, fun a => (a.extractLsb' 0 31).setWidth 32), (.fnegF32, fun a => ~~~(a.extractLsb' 31 1) ++ a.extractLsb' 0 31)]

/-- R88, R89 and R150: a NaN operand, the difference of infinities and zero times infinity give 0x7FC00000, and an exact sum of opposite
zeros is +0 but for rounding down, where it is -0. -/
def Sys2Proof.Claims.FloatSpecialResults : Prop :=
  ∀ m (a b c : Word),
    ((isNaN a ∨ isNaN b) → fadd m a b = 0x7FC00000 ∧ fsub m a b = 0x7FC00000 ∧ fmul m a b = 0x7FC00000 ∧ ffma m a b c = 0x7FC00000) ∧
    (isNaN c → ffma m a b c = 0x7FC00000) ∧
    (isNaN (fadd m a b) = true → fadd m a b = 0x7FC00000) ∧ (isNaN (fmul m a b) = true → fmul m a b = 0x7FC00000) ∧
    fsub m 0x7F800000 0x7F800000 = 0x7FC00000 ∧ fmul m 0x7F800000 0 = 0x7FC00000 ∧ ffma m 0 0xFF800000 c = 0x7FC00000 ∧
    fadd m 0 0x80000000 = (if m = .down then 0x80000000 else 0) ∧ fadd m 0x80000000 0x80000000 = 0x80000000

/-- R153 and R154: the long-latency functions complete with their value, at once with lookahead 0 and pending otherwise; the inputs that
R154 names have the results that it names. -/
def Sys2Proof.Claims.RootsAndApproximations : Prop :=
  (∀ r, ∀ e ∈ rootTable r, ∀ d a k s, CanIssue s → Within [.v a.val, .v d.val] s → laneSet s ≠ 0 →
    exec (e.1 d a k) s = .next (delivered k.val [.v d.val] [.v d (laneSet s) (Lanes.ofFn fun l => e.2 (s.w.rdV a l))] (laneSet s) false s
      (past true s))) ∧
  (∀ r, ∀ e ∈ rootTable r, ∀ x, isNaN x = true → e.2 x = 0x7FC00000) ∧
  (frcpOp 0 = 0x7F800000 ∧ frcpOp 0x80000000 = 0xFF800000 ∧ frcpOp 0x7F800000 = 0 ∧ frcpOp 0xFF800000 = 0x80000000) ∧
  (frsqOp 0 = 0x7F800000 ∧ frsqOp 0x80000000 = 0xFF800000 ∧ frsqOp 0x7F800000 = 0) ∧
  (∀ m, fsqrtOp m 0x80000000 = 0x80000000 ∧ fsqrtOp m 0x7F800000 = 0x7F800000) ∧
  (∀ x : Word, 0x80000000 < x → isNaN x = false → frsqOp x = 0x7FC00000 ∧ (∀ m, fsqrtOp m x = 0x7FC00000) ∧ flog2Op x = 0x7FC00000) ∧
  (fexp2Op 0 = 0x3F800000 ∧ fexp2Op 0x80000000 = 0x3F800000 ∧ fexp2Op 0x7F800000 = 0x7F800000 ∧ fexp2Op 0xFF800000 = 0) ∧
  (flog2Op 0 = 0xFF800000 ∧ flog2Op 0x80000000 = 0xFF800000 ∧ flog2Op 0x7F800000 = 0x7F800000 ∧ flog2Op 0x3F800000 = 0) ∧
  (∀ x : Word, x &&& 0x7FFFFFFF ≤ 0x39800000 → fsinOp x = x ∧ fcosOp x = 0x3F800000) ∧
  ∀ x : Word, x &&& 0x7FFFFFFF = 0x7F800000 → fsinOp x = 0x7FC00000 ∧ fcosOp x = 0x7FC00000

/-- R157 and R158: a conversion writes each destination element of each enabled lane as the conversion of its source element, and no other
register. -/
def Sys2Proof.Claims.Conversions : Prop :=
  ∀ e ∈ [(Instr.cvtf : Fin 128 → Fin 128 → Fin 8 → Fin 8 → Fin 4 → Instr), Instr.cvti], ∀ d a y x r s, CanIssue s → (e d a y x r).check = none →
    let n := cvtCount y.val x.val
    let nd := n * fmtWidth y.val / 32
    Within (vSpan a (n * fmtWidth x.val / 32) ++ vSpan d nd) s →
    ∃ t, exec (e d a y x r) s = .next t ∧ t = (past true s).modW (fun w => { w with v := t.w.v }) ∧
      (∀ l, bit (laneSet s) l = true → ∀ i < n,
        element t.w d (fmtWidth y.val) i l = convert x.val y.val (modeOf r) (element s.w a (fmtWidth x.val) i l)) ∧
      ∀ l (c : Fin 128), (bit (laneSet s) l = false ∨ c.val < d.val ∨ d.val + nd ≤ c.val) → t.w.rdV c l = s.w.rdV c l

/-- R159 and R160: sbpack spreads two encoded blocks over the lanes, sbunp decodes the stream that the lowest lanes hold. -/
def Sys2Proof.Claims.SharedExponentBlocks : Prop :=
  (∀ e ∈ [((.sbpackSb3, 2) : (Fin 128 → Fin 128 → Instr) × Nat), (.sbpackSb5, 4), (.sbpackSb8, 7)], ∀ d a s, CanIssue s →
    Within [.v a.val, .v d.val] s → Settled (.v a.val) (fun _ => True) s →
    exec (e.1 d a) s = .next ((past true s).modW fun w => w.wrV d (laneSet s) fun l =>
      if 4 * l.val < 2 * sbBytes e.2 then BitVec.ofNat 32 (packed e.2 s.w a / 2 ^ (32 * l.val)) else 0)) ∧
  ∀ e ∈ [((.sbunpSb3, 2) : (Fin 128 → Fin 128 → Instr) × Nat), (.sbunpSb5, 4), (.sbunpSb8, 7)], ∀ d a s, CanIssue s →
    Within [.v a.val, .v d.val] s → Settled (.v a.val) (fun j => 4 * j.val < 2 * sbBytes e.2) s →
    exec (e.1 d a) s = .next ((past true s).modW fun w => w.wrV d (laneSet s) fun l =>
      let bits := 8 * sbBytes e.2
      let block := streamOf s.w a ((2 * sbBytes e.2 + 3) / 4) / 2 ^ (bits * (l.val / 16)) % 2 ^ bits
      toF32 .nearest (sbValue e.2 block (l.val % 16)))

/-- R161 and R164: ck.acc folds the words of the enabled lanes in ascending order; ck.chk has no effect where the compared parts are equal,
and else parks the run after it with cause 0x30 and the difference in its trap record. -/
def Sys2Proof.Claims.Checksums : Prop :=
  (∀ (h : Fin 4) a s, CanIssue s → laneSet s ≠ 0 →
    let fold (x : DWord) (w : Word) : DWord := ((x.extractLsb' 32 32).rotateLeft 1 ^^^ w) ++ (x.extractLsb' 0 32 + w)
    let en := laneList.filter fun l => bit (laneSet s) l
    (Within [.v a.val] s → exec (.ckAccB32 (h.castLE (by decide)) a) s = .next ((past true s).modW fun w =>
      { w with h := w.h.set h.val (en.foldl (fun x l => fold x (s.w.rdV a l)) s.w.h[h]) })) ∧
    (Within [.v a.val, .v (a.val + 1)] s → exec (.ckAccB64 (h.castLE (by decide)) a) s = .next ((past true s).modW fun w =>
      { w with h := w.h.set h.val (en.foldl (fun x l => fold (fold x (s.w.rdV a l)) (s.w.rdV (odd a) l)) s.w.h[h]) }))) ∧
  ∀ (m : Fin 3) (b a : Fin 4) s, CanIssue s →
    let diff := s.w.h[a] ^^^ s.w.h[b]
    let part : DWord := match m with
      | 0 => ~~~0
      | 1 => 0xFFFFFFFF
      | 2 => 0xFFFFFFFF00000000
    let i := Instr.ckChk (m.castLE (by decide)) b (a.castLE (by decide))
    (diff &&& part = 0 → exec i s = .next (past false s)) ∧
    (diff &&& part ≠ 0 → s.iss.run &&& s.w.handlerLanes = 0 → exec i s = .next (park s.iss.run (fun l =>
      { cause := 0x30, addr := diff, pc := s.iss.pc.setWidth 64, entry := ((past false s).w.pc[l]).setWidth 64, guard := s.w.guard[l],
        guardAt := s.w.guard[l], enabled := true, passed := true }) (past false s)))

end

namespace Sys2Proof.Claims
open Sys2Proof Sys2Proof.Machine

/-- The address of the instruction under way. -/
def at_ (s : State) : DWord := s.iss.pc.setWidth 64

/-- The lanes of a mask park with RESTART and WINDOW 0 at the instruction under way: their entries and %trappc hold its address, their
guard windows stand as before it (R62, R407, R465); passed says whether the windows of what was pending have counted the instruction. -/
def faultsAt (passed : Bool) (m : Mask) (cause : Word) (addr : Fin 32 → DWord) (en : Mask) (s after : State) : State :=
  park m (fun l => { cause := cause, addr := addr l, pc := at_ s, entry := at_ s, guard := s.w.guard[l], guardAt := s.w.guard[l],
                     enabled := bit en l, passed := passed }) after

/-- The enabled lanes of the run go to a target. -/
def goTo (t : Fin 32 → DWord) (m : Mask) (w : Wave) : Wave := { w with pc := Lanes.ofFn fun l => if bit m l then (t l).setWidth 56 else w.pc[l] }

/-- Release of a mask (R142). -/
def released (k : Fin 12) (w : Wave) : Wave :=
  let waiters := maskOf fun l => decide (w.st[l] = .waiting (k.castLE (by decide)))
  if waiters ≠ 0 ∧ w.k[k] &&& ~~~waiters = 0 then
    { w with st := Lanes.ofFn fun l => if bit waiters l then .ready else w.st[l], yieldMask := w.yieldMask &&& ~~~waiters }
  else w

/-- Release evaluated for the twelve masks in turn. -/
def allReleased (w : Wave) : Wave := (List.finRange 12).foldl (fun w k => released k w) w

/-- A mask register written whole, with the lanes that are ready, waiting or parked (R138). -/
def maskSet (k : Fin 12) (x : Mask) (w : Wave) : Wave :=
  { w with k := w.k.set k.val (x &&& maskOf fun l => decide (w.st[l] ≠ .exited ∧ w.st[l] ≠ .inactive)) }

/-- A mask register as an operand field names it. -/
def kField (k : Fin 12) : Fin 16 := k.castLE (by decide)

/-- No group stands at a barrier, and no epilogue row of the issuing group waits. -/
def NoBarrier (s : State) : Prop :=
  s.grp.barG = [] ∧ s.grp.barC = [] ∧ s.grp.arrivedC = false ∧ s.grp.epilogues = [] ∧ ∀ g ∈ s.rest, g.atBarC = false

/-- The issuing group is the only one of its launch that a cluster barrier can concern. -/
def Alone (s : State) : Prop :=
  s.grp.live = true ∧ s.grp.task.clus = false ∧ s.grp.arrivedC = false ∧ (∀ g ∈ s.rest, g.uid ≠ s.grp.uid) ∧
    ∀ v ∈ s.die0.saved ++ s.die1.saved, v.group.uid ≠ s.grp.uid

end Sys2Proof.Claims

section
open Sys2Proof Sys2Proof.Machine Sys2Proof.Claims

/-- R128 to R131 with R54: branches, calls, jumps and returns go to their targets in the enabled lanes; a target above 56 bits, or an odd one
of jmp or ret, is an address fault. -/
def Sys2Proof.Claims.BranchesCallsAndReturns : Prop :=
  ∀ s, CanIssue s →
    (∀ f : BitVec 23, let t := at_ s + f.signExtend 64 * 2
      (t.toNat < 2 ^ 56 → exec (.br f) s = .next ((past true s).modW (goTo (fun _ => t) (laneSet s))) ∧
        exec (.call f) s = .next ((past true s).modW fun w =>
          goTo (fun _ => t) (laneSet s) (w.wrVV 14 (laneSet s) fun _ => (s.iss.pc + BitVec.ofNat 56 s.iss.len).setWidth 64))) ∧
      (2 ^ 56 ≤ t.toNat → laneSet s ≠ 0 → exec (.br f) s = .next (faultsAt true s.iss.run 0x10 (fun _ => t) (laneSet s) s (past true s)) ∧
        exec (.call f) s = .next (faultsAt true s.iss.run 0x10 (fun _ => t) (laneSet s) s (past true s)))) ∧
    (∀ a, let t := s.rdSS a
      (t.toNat < 2 ^ 56 → t.getLsbD 0 = false → exec (.jmp a) s = .next ((past true s).modW (goTo (fun _ => t) (laneSet s)))) ∧
      (2 ^ 56 ≤ t.toNat ∨ t.getLsbD 0 = true → laneSet s ≠ 0 →
        exec (.jmp a) s = .next (faultsAt true s.iss.run 0x10 (fun _ => t) (laneSet s) s (past true s)))) ∧
    ∀ a, Within [.v a.val, .v (a.val + 1)] s →
      let bad := laneSet s &&& maskOf fun l => (s.w.rdVV a l).getLsbD 0 || decide (2 ^ 56 ≤ (s.w.rdVV a l).toNat)
      exec (.ret a) s = .next (faultsAt true bad 0x10 (fun l => s.w.rdVV a l) (laneSet s) s
        ((past true s).modW (goTo (s.w.rdVV a) (laneSet s &&& ~~~bad))))

/-- R132: exit. The enabled lanes are exited, their bits leave the masks and the yield mask, and release is evaluated; nothing else changes
while the wave has lanes left and no barrier waits. The wave ends with its last lane. -/
def Sys2Proof.Claims.ExitOfLanes : Prop :=
  ∀ s, CanIssue s → Outside s → NoBarrier s →
    let left := (past true s).modW fun w => allReleased { w with
      st := Lanes.ofFn fun l => if bit (laneSet s) l then .exited else w.st[l]
      k := w.k.map fun x => x &&& ~~~laneSet s, yieldMask := w.yieldMask &&& ~~~laneSet s }
    (laneSet s ≠ 0 → left.w.ended = false → exec .exit s = .next left) ∧
    (s.w.present &&& ~~~laneSet s = 0 → laneSet s ≠ 0 → ∃ t, exec .exit s = .next t ∧ t.w.ended = true ∧ t.mem = s.mem ∧ t.w.v = s.w.v ∧
      t.grp.s = s.grp.s ∧ t.provs = s.provs.filter fun c => c.wave != s.w.uid)

/-- R137 to R142 and R145: yield, join, leave, wait and kmov. -/
def Sys2Proof.Claims.YieldAndMasks : Prop :=
  ∀ s, CanIssue s → Outside s →
    exec .yield s = .next ((past true s).modW fun w => { w with yieldMask := w.yieldMask ||| laneSet s }) ∧
    ∀ k a : Fin 12,
      (laneSet s ≠ 0 → exec (.join (kField k)) s = .next ((past true s).modW fun w => released k (maskSet k (s.w.k[k] ||| laneSet s) w)) ∧
        exec (.leave (kField k)) s = .next ((past true s).modW fun w => released k (maskSet k (s.w.k[k] &&& ~~~laneSet s) w)) ∧
        exec (.wait (kField k)) s = .next ((past true s).modW fun w => released k { w with
          st := Lanes.ofFn fun l => if bit (laneSet s) l then .waiting (kField k) else w.st[l] })) ∧
      exec (.kmov (kField a) (kField k)) s = .next ((past false s).modW fun w => released k (maskSet k s.w.k[a] w))

/-- R409: exit, yield, the mask instructions and the barriers stop the group with STATUS 3 in a trap handler. -/
def Sys2Proof.Claims.MaskInstructionsInHandlerStopGroup : Prop :=
  ∀ s, CanIssue s → s.iss.run &&& s.w.handlerLanes ≠ 0 →
    ∀ i ∈ [Instr.exit, .yield, .barG, .barC] ++ (List.finRange 12).flatMap (fun k =>
        [.join (kField k), .leave (kField k), .wait (kField k), .kmov (kField k) (kField k)]),
      exec i s = .next (stopGroup 3 s)

/-- R62: guard and guard.n open a window over the next n per-lane instructions of every lane of the run; nop has no effect; both leave the
guard windows of the run uncounted. -/
def Sys2Proof.Claims.GuardAndNop : Prop :=
  ∀ s, CanIssue s → exec .nop s = .next (past false s) ∧
    ∀ p (n : Fin 16), let opened (neg : Bool) := (past false s).modW fun w =>
        { w with guard := Lanes.ofFn fun l => if bit s.iss.run l then ⟨n.val + 1, p, neg⟩ else w.guard[l] }
      exec (.guard p n) s = .next (opened false) ∧ exec (.guardN p n) s = .next (opened true)

/-- R206 and R207: a wave that arrives at bar.g waits until every wave of its group that has not ended has arrived, and then all go on; so does
bar.c for a group that is alone in its launch, and the group counts the barrier. -/
def Sys2Proof.Claims.Barriers : Prop :=
  ∀ s, CanIssue s → Outside s → s.w.ended = false →
    let others := s.grp.waves.filter fun w => w.counts
    let held (h : Hold) : State := (past false s).modW fun w => { w with hold := some h }
    let free (h : Hold) (w : Wave) : Wave := if w.hold = some h then { w with hold := none } else w
    (s.grp.barC = [] → s.grp.arrivedC = false → (∀ g ∈ s.rest, g.atBarC = false) →
      ((∃ w ∈ others, w.uid ≠ s.w.uid ∧ w.uid ∉ s.grp.barG) →
        exec .barG s = .next ((held .barG).modG fun g => { g with barG := s.w.uid :: s.grp.barG })) ∧
      ((∀ w ∈ others, w.uid = s.w.uid ∨ w.uid ∈ s.grp.barG) →
        exec .barG s = .next ((held .barG).modG fun g => { g with barG := [], wave := free .barG g.wave, waves := g.waves.map (free .barG) }))) ∧
    (Alone s → s.grp.barG = [] →
      ((∃ w ∈ others, w.uid ≠ s.w.uid ∧ w.uid ∉ s.grp.barC) →
        exec .barC s = .next ((held .barC).modG fun g => { g with barC := s.w.uid :: s.grp.barC })) ∧
      ((∀ w ∈ others, w.uid = s.w.uid ∨ w.uid ∈ s.grp.barC) →
        exec .barC s = .next ((held .barC).modG fun g =>
          { g with barC := [], arrivedC := false, barsC := g.barsC + 1, wave := free .barC g.wave, waves := g.waves.map (free .barC) })))

/-- R187, R204, R206 and R282: what the fences and icinv do once no ordered instruction of the wave is pending: an acquire invalidates the core's
unowned words of coherent pages, a release settles the wave's provisional cells, icinv empties the instruction cache, and the core's fetches then find
every store performed before. -/
def Sys2Proof.Claims.FencesAndIcinv : Prop :=
  ∀ s, CanIssue s → s.grp.epilogues = [] → (∀ p ∈ s.w.pending, p.ordered = false) →
    let stale (w : Nat × L1Word) : Nat × L1Word := if w.2.owned then w else (w.1, { w.2 with valid := false })
    let acquired (t : State) : State := t.modCore s.coreNo fun c =>
      { c with l1 := c.l1.map fun l => if l.nc then l else { l with words := l.words.map stale } }
    let settled (t : State) : State := { t with provs := t.provs.filter fun c => c.wave != s.w.uid }
    exec .fenceAcq s = .next (acquired (past false s)) ∧
    exec .fenceRel s = .next (settled (past false s)) ∧
    exec .fenceFull s = .next (acquired (settled (past false s))) ∧
    exec .settleAll s = .next (settled (past false s)) ∧
    exec .icinv s = .next ((past false s).modCore s.coreNo fun c => { c with icache := [], icSeq := s.codeLog.length })

/-- R280 and R407: trap and bkpt park every lane of the run with their cause: after trap the entries stand behind it and %trapaddr will hold its
operand, at bkpt they stay at it. -/
def Sys2Proof.Claims.TrapAndBreakpoint : Prop :=
  ∀ s, CanIssue s → Outside s →
    (∀ c : BitVec 8, exec (.trap c) s = .next ((past false s).modW (fun w => { w with
      st := Lanes.ofFn fun l => if bit s.iss.run l then .parked else w.st[l]
      pc := Lanes.ofFn fun l => if bit s.iss.run l then entryPc (w.pc[l].setWidth 64) else w.pc[l]
      recs := Lanes.ofFn fun l => if bit s.iss.run l then
          { cause := 0x40, addr := c.setWidth 64, pc := at_ s, entry := w.pc[l].setWidth 64, guard := w.guard[l], guardAt := w.guard[l], enabled := true,
            passed := false }
        else w.recs[l]
      subs := queueLanes s.iss.run s.iss.id w.subs, chosen := w.chosen.bind (Issue.without s.iss.run) }))) ∧
    exec .bkpt s = .next (faultsAt true s.iss.run 0x41 (fun _ => at_ s) s.iss.run s (past false s))

/-- R281 and R411: rett. The handler's lanes go on as their entries say, with their guard windows; with RESTART 1 the wave owes the replay of the
instruction at %trappc, in the lanes that were enabled at its issue; a handler that is left with a reserved entry ends the group with STATUS 3. -/
def Sys2Proof.Claims.ReturnFromTrap : Prop :=
  ∀ s h, CanIssue s → NoBarrier s → s.w.handler = some h → s.iss.run = h.lanes → s.w.trapmask = h.lanes →
    ((∀ l, bit h.lanes l = true → entryState s.w.trapent[l] = 0 ∧ entryKidx s.w.trapent[l] = 0) →
      ∃ t, exec .rett s = .next t ∧ t.w.handler = none ∧
        (∀ l, bit h.lanes l = true → t.w.st[l] = .ready ∧ t.w.pc[l] = entryPc s.w.trapent[l] ∧ t.w.guard[l] = s.w.recs[l].guard) ∧
        (∀ l, bit h.lanes l = false → t.w.pc[l] = s.w.pc[l] ∧ t.w.guard[l] = s.w.guard[l]) ∧
        (causeRestart s.w.trapcause = false → t.w.replay = none) ∧
        (causeRestart s.w.trapcause = true → ∃ r, t.w.replay = some r ∧ r.pc = entryPc s.w.trappc ∧
          r.lanes = h.lanes ∧ r.enabled = h.lanes &&& maskOf fun l => s.w.recs[l].enabled) ∧
        t.w.v = s.w.v ∧ t.w.p = s.w.p ∧ t.grp.s = s.grp.s ∧ t.mem = s.mem ∧ t.w.trapcause = s.w.trapcause ∧ t.w.trappc = s.w.trappc) ∧
    ((∃ l, bit h.lanes l = true ∧ (5 ≤ entryState s.w.trapent[l] ∨ 12 ≤ entryKidx s.w.trapent[l])) →
      ∃ t, exec .rett s = .next t ∧ t.grp.stop = some (s.grp.stop.getD 3))

/-- R282: sleep holds the wave for the ticks of its source, and halt, in a privileged wave, parks every ready lane with the halt cause in its trap
record, enters no handler and signals the host. -/
def Sys2Proof.Claims.SleepAndHalt : Prop :=
  ∀ s, CanIssue s →
    (∀ a, exec (.sleep a) s = .next (if (s.rdS a).setWidth 24 = (0 : BitVec 24) then past false s
      else (past false s).modW fun w => { w with hold := some (.sleep (s.clock + ((s.rdS a).setWidth 24).toNat)) })) ∧
    (s.privileged = true → ∃ t, exec .halt s = .next t ∧ t.out = .msix 5 :: s.out ∧ t.w.handler = s.w.handler ∧ t.w.trapcause = s.w.trapcause ∧
      t.w.subs = s.w.subs ∧ t.mem = s.mem ∧ t.w.v = s.w.v ∧
      ∀ l, if s.w.st[l] = .ready then t.w.st[l] = .parked ∧ t.w.recs[l].cause = 0x42 ∧ bit t.w.halted l = true ∧
          t.w.recs[l].entry = ((past false s).w.pc[l]).setWidth 64
        else t.w.st[l] = s.w.st[l] ∧ t.w.recs[l] = s.w.recs[l])

end

namespace Sys2Proof.Claims
open Sys2Proof Sys2Proof.Machine

/-- The special registers of R28 with their numbers, whether they are 64 bits wide, and what a lane reads. -/
def specials : List (Nat × Bool × (State → Fin 32 → DWord)) :=
  [(0x00, false, fun _ l => BitVec.ofNat 64 l.val), (0x01, false, fun s _ => BitVec.ofNat 64 s.w.idx),
   (0x02, false, fun s _ => BitVec.ofNat 64 s.grp.slot), (0x03, false, fun s _ => BitVec.ofNat 64 (s.grp.core % 12)),
   (0x04, false, fun s _ => BitVec.ofNat 64 (s.grp.core % 144 / 12)), (0x05, false, fun s _ => BitVec.ofNat 64 (s.grp.core / 144)),
   (0x08, true, fun s _ => s.grp.allot), (0x20, true, fun s _ => (s.core s.grp.core).tagmap &&& s.grp.tags),
   (0x21, false, fun s _ => BitVec.ofNat 64 s.w.fairness),
   (0x22, false, fun s _ => BitVec.ofNat 64 (s.w.count * 2 ^ 16 + if s.w.promise then 1 else 0)),
   (0x30, false, fun s _ => BitVec.ofNat 64 (s.ctx s.grp.task.ctx).quota),
   (0x31, false, fun s _ => BitVec.ofNat 64 (s.aliases.countP fun e => e.ctx == s.grp.task.ctx)),
   (0x32, false, fun s _ => BitVec.ofNat 64 (s.ctx s.grp.task.ctx).ceiling),
   (0x40, false, fun s l => s.w.retcode[l].setWidth 64), (0x50, false, fun s _ => s.w.trapcause.setWidth 64),
   (0x51, true, fun s _ => s.w.trapaddr), (0x52, false, fun s _ => s.w.trapmask.setWidth 64), (0x53, true, fun s _ => s.w.trappc),
   (0x54, true, fun s l => s.w.trapent[l]), (0x60, true, fun s _ => budgetOf s), (0x61, true, fun s _ => BitVec.ofNat 64 s.clock)] ++
  (List.finRange 12).map (fun k => (0x10 + k.val, false, fun s _ => s.w.k[k].setWidth 64)) ++
  (List.finRange 4).map fun h => (0x1C + h.val, true, fun s _ => s.w.h[h])

/-- A PC-table entry as a write leaves it (R8, R24): bit 0 of its PC and its reserved bit 59 are 0. -/
def entryKept (z : DWord) : DWord := z &&& ~~~0x0800000000000001#64

/-- A number of a special register as an operand field names it. -/
def special (n : Nat) (h : n < 512 := by decide) : Fin 512 := ⟨n, h⟩

/-- The instructions that need privilege, and those that need a running handler (R266, R268, R393). -/
noncomputable def privilegedOnes : List Instr :=
  [.halt] ++ (List.finRange 128).map (fun a => .sets a (special 0x32) 0) ++
    (List.finRange 64).flatMap fun v => [.tlbinv v 0, .tlbinv v 1, .tlbinv v 2, .migrate v v 0]
noncomputable def handlerOnes : List Instr :=
  [.rett] ++ (List.finRange 128).flatMap fun a =>
    [.sets a (special 0x50) 0, .sets a (special 0x52) 0, .sets a (special 0x53) 0, .sets a (special 0x54) 0, .sets a (special 0x54) 1,
     .accWr 0 a 34, .accWr 0 a 35]

/-- What a decode fault does (R67): the lanes of the run and every other ready lane at its address park there. That each of them counts as enabled,
should the handler set RESTART, is the model's choice (log entry 67). -/
def decodeFaults (cause : Word) (s : State) : State :=
  let m := s.iss.run ||| maskOf fun l => decide (s.w.st[l] = .ready ∧ s.w.pc[l] = s.iss.pc)
  faultsAt false m cause (fun _ => at_ s) m s s

end Sys2Proof.Claims

section
open Sys2Proof Sys2Proof.Machine Sys2Proof.Claims

/-- R28 and R267: gets reads every special register, into the enabled lanes or, for the run's lowest lane, into a group register or pair. -/
def Sys2Proof.Claims.SpecialRegisterReads : Prop :=
  ∀ e ∈ specials, ∀ (n : Fin 512), n.val = e.1 → ∀ d s, CanIssue s →
    (Within (if e.2.1 then [.v d.val, .v (d.val + 1)] else [.v d.val]) s →
      exec (.gets d n) s = .next ((past true s).modW fun w => if e.2.1 then w.wrVV d (laneSet s) fun l => e.2.2 s l
        else w.wrV d (laneSet s) fun l => (e.2.2 s l).setWidth 32)) ∧
    ∀ l, bit s.iss.run l = true → (∀ j, bit s.iss.run j = true → l ≤ j) →
      exec (.gGets d n) s = .next (if e.2.1 then (past false s).wrSS d (e.2.2 s l) else (past false s).wrS d ((e.2.2 s l).setWidth 32))

/-- R33 to R35, R37, R138 and R268: what sets writes. A read-only register ignores it; release of a mask is evaluated at once outside a handler. -/
def Sys2Proof.Claims.SpecialRegisterWrites : Prop :=
  ∀ a s, CanIssue s →
    let x := s.rdS a
    let z := s.rdSS a
    let c := s.grp.task.ctx
    (∀ k : Fin 12, ∀ n : Fin 512, n.val = 0x10 + k.val → exec (.sets a n 0) s =
      .next ((past false s).modW fun w => if s.inHandler then maskSet k x w else released k (maskSet k x w))) ∧
    (∀ h : Fin 4, ∀ n : Fin 512, n.val = 0x1C + h.val → exec (.sets a n 0) s = .next ((past false s).modW fun w => { w with h := w.h.set h.val z })) ∧
    exec (.sets a (special 0x20) 0) s = .next ((past false s).modCore s.grp.core fun k => { k with tagmap := k.tagmap &&& ~~~(z &&& s.grp.tags) }) ∧
    exec (.sets a (special 0x21) 0) s = .next ((past false s).modW fun w => { w with fairness := max 8 (min (x.setWidth 11).toNat 1024) }) ∧
    exec (.sets a (special 0x30) 0) s = .next ((past false s).modCtx c fun k => { k with quota := if x = 0 then 1 else min x.toNat k.ceiling }) ∧
    (s.privileged = true → exec (.sets a (special 0x32) 0) s = .next ((past false s).modCtx c fun k =>
      let v := if x = 0 then 1 else min x.toNat 81920
      { k with ceiling := v, quota := min k.quota v })) ∧
    (s.inHandler = true →
      exec (.sets a (special 0x50) 0) s = .next ((past false s).modW fun w => { w with trapcause := x &&& 0x1FFF }) ∧
      exec (.sets a (special 0x52) 0) s = .next ((past false s).modW fun w => { w with trapmask := x &&& s.w.handlerLanes }) ∧
      exec (.sets a (special 0x53) 0) s = .next ((past false s).modW fun w => { w with trappc := z }) ∧
      exec (.sets a (special 0x54) 0) s = .next ((past false s).modW fun w =>
        { w with trapent := Lanes.ofFn fun l => if bit s.iss.run l then entryKept z else w.trapent[l] }) ∧
      (Within [.v a.val, .v (a.val + 1)] s → exec (.sets a (special 0x54) 1) s = .next ((past false s).modW fun w =>
        { w with trapent := Lanes.ofFn fun l => if bit s.iss.run l then entryKept (s.w.rdVV a l) else w.trapent[l] }))) ∧
    ∀ n : Fin 512, n.val ∈ [0x00, 0x01, 0x02, 0x03, 0x04, 0x05, 0x08, 0x22, 0x31, 0x40, 0x51, 0x60, 0x61] → exec (.sets a n 0) s = .next (past false s)

/-- R10, R66, R67 and R266: without privilege, or outside a handler, the instructions that need it raise the privilege trap at decode, with
every lane predicated off as well, and have no other effect. -/
def Sys2Proof.Claims.PrivilegeTrap : Prop :=
  ∀ s, CanIssue s → (∀ p ∈ s.w.pending, p.ordered = false) →
    (s.privileged = false → ∀ i ∈ privilegedOnes, exec i s = .next (decodeFaults 0x04 s)) ∧
    (s.inHandler = false → ∀ i ∈ handlerOnes, exec i s = .next (decodeFaults 0x04 s))

/-- R14 and R67: an instruction that names a lane register or a tile beyond the allotment raises the register-allotment fault at decode and has no
other effect, whether or not a lane is enabled. -/
def Sys2Proof.Claims.AllotmentFault : Prop :=
  ∀ s, CanIssue s →
    (∀ e ∈ arithTable .addB32 .addSatI32 .addSatN32 .subB32 .subSatI32 .subSatN32 .mulLoB32 .mulHiI32 .mulHiN32 .minI32 .minN32 .maxI32 .maxN32,
      ∀ d a b, (vregsOf s.grp.allot ≤ d.val ∨ vregsOf s.grp.allot ≤ a.val ∨ vregsOf s.grp.allot ≤ b.val) →
        exec (e.1 d a b) s = .next (decodeFaults 0x05 s)) ∧
    (∀ d a b, vregsOf s.grp.allot ≤ d.val + 1 → exec (.addB64 d a b) s = .next (decodeFaults 0x05 s)) ∧
    ∀ (t a : Fin 16) x y sel k side, tilesOf s.grp.allot ≤ t.val →
      exec (.mma t x y sel k) s = .next (decodeFaults 0x05 s) ∧ exec (.accZero t side) s = .next (decodeFaults 0x05 s) ∧
      exec (.accMov t a side) s = .next (decodeFaults 0x05 s)

/-- R57 to R59: inside the window of a pending instruction, an instruction that names its destination parks the lanes of the run with the
lookahead breach; once the window is used up the instruction waits, and a control instruction waits in any case. That the wait comes before every check of
the instruction, its allotment among them, is the model's choice (log entries 28 and 52). -/
def Obligations.LookaheadWindows : Prop :=
  ∀ s q, s.w.mode = .normal → s.iss.run ≠ 0 → s.iss.replay = none → s.stores = [] → s.w.pending = [q] → s.iss.run &&& ~~~q.lanes = 0 →
    ((∀ l, bit s.iss.run l = true → q.issued[l] < q.look) → ∀ d a b, (Reg.v d.val ∈ q.dests ∨ Reg.v a.val ∈ q.dests ∨ Reg.v b.val ∈ q.dests) →
      Within [.v a.val, .v b.val, .v d.val] s →
      exec (.addB32 d a b) s = .next (faultsAt false s.iss.run 0x06 (fun _ => at_ s) (laneSet s) s s)) ∧
    ((∀ l, bit s.iss.run l = true → q.issued[l] < q.look) → ∀ d a b, Reg.v d.val ∉ q.dests → Reg.v a.val ∉ q.dests → Reg.v b.val ∉ q.dests →
      Within [.v a.val, .v b.val, .v d.val] s →
      ∃ t, exec (.addB32 d a b) s = .next t ∧ (∀ l, bit (laneSet s) l = true → t.w.rdV d l = s.w.rdV a l + s.w.rdV b l) ∧
        t.w.pending = [{ q with issued := Lanes.ofFn fun l => if bit s.iss.run l then q.issued[l] + 1 else q.issued[l] }]) ∧
    ((∃ l, bit s.iss.run l = true ∧ q.look ≤ q.issued[l]) → ∀ d a b,
      exec (.addB32 d a b) s = .next (s.modW fun w => { w with chosen := some s.iss })) ∧
    ∀ f c, exec (.br f) s = .next (s.modW fun w => { w with chosen := some s.iss }) ∧
      exec (.trap c) s = .next (s.modW fun w => { w with chosen := some s.iss })

end

namespace Sys2Proof.Claims
open Sys2Proof Sys2Proof.Machine

/-- Every stack presents all its channels and has no row retired and unspared, so that no base die refuses a write (R441, R442). -/
abbrev Served (s : State) : Prop := s.isais.length = 8 ∧ ∀ p ∈ s.isais, p.capability.extractLsb' 24 32 = ~~~0#32 ∧ p.retired = []

/-- What is pending can fault, and has accesses that have not performed, only in its own lanes. -/
abbrev FaultsOwn (s : State) : Prop :=
  ∀ p ∈ s.w.pending, (∀ f ∈ p.faults, bit p.lanes f.lane = true) ∧ ∀ r ∈ p.reach, bit p.lanes r.1 = true

/-- Every set of an L1 has a way to allocate: one that is empty, or a line that no miss-status entry is filling (R347). -/
abbrev FreeWays (c : Core) : Prop := ∀ n < 128, (c.l1.filter fun l => decide (l.line % 128 = n)).length < 8 ∨
  ∃ l ∈ c.l1, l.line % 128 = n ∧ ∀ m ∈ c.misses, m.sector / 256 ≠ l.line

/-- Memory is in its canonical form and nothing stands between the group's accesses and its bytes: no side band, alias, poison, sharer, fan-out,
migration or recalled lease, no non-temporal store, epilogue row or request at a peer of the wave that waits, no replayable node, miss-status entries
free for the sectors of one instruction (R173), a way to replace in every set of the L1 (R347), and only lines of device memory in L2. -/
abbrev AtRest (s : State) : Prop :=
  Mem.wf s.mem = true ∧ s.bands = [] ∧ s.aliases = [] ∧ s.poison = [] ∧ s.regions = [] ∧ s.fanOuts = [] ∧ s.die0.migrations = [] ∧ s.die1.migrations = [] ∧
    s.recalled = [] ∧ s.w.nt = [] ∧ s.grp.epilogues = [] ∧ (∀ r ∈ s.remotes, r.wave ≠ s.w.uid) ∧ s.grp.task.repl = false ∧
    (s.core s.grp.core).misses.length ≤ 192 ∧ FreeWays (s.core s.grp.core) ∧ (∀ e ∈ s.l2, e.line < 2 ^ 40) ∧ FaultsOwn s ∧ Served s

/-- The core's L1 holds no dirty byte, and its valid words are those of memory. -/
abbrev CleanL1 (s : State) : Prop := ∀ l ∈ (s.core s.grp.core).l1, ∀ w ∈ l.words,
  w.2.dirty = 0 ∧ (w.2.valid = true → w.2.val = BitVec.ofNat 32 (s.num w.1 4)) ∧ w.1 % 4 = 0

/-- The translation of an address for the group's context in a TLB, in the L1 TLB of its core (R385), and whether no TLB of the package holds one. -/
def cachedAt (u : TlbUnit) (s : State) (va : Nat) : Option TlbEntry :=
  s.tlb.find? fun e => e.unit == u && e.ctx == s.grp.task.ctx && e.page ≤ va && va < e.page + e.size
def cached (s : State) (va : Nat) : Option TlbEntry := cachedAt (.core s.grp.core) s va
def Uncached (s : State) (va : Nat) : Prop := ∀ e ∈ s.tlb, e.ctx = s.grp.task.ctx → va < e.page ∨ e.page + e.size ≤ va

/-- An access of n bytes at a virtual address goes to a physical address of device memory: a canonical, aligned address (R168) whose
translation a TLB holds for a coherent page of whole granules (R382), writable if the access writes (R383). -/
abbrev MappedAt (u : TlbUnit) (store : Bool) (n : Nat) (va : DWord) (pa : Nat) (s : State) : Prop :=
  va.toNat < 2 ^ 56 ∧ va.toNat % n = 0 ∧ pa % n = 0 ∧ pa < 2 ^ 48 ∧
    match cachedAt u s va.toNat with
    | some e => e.nc = false ∧ e.page % 2 ^ 19 = 0 ∧ e.size % 2 ^ 19 = 0 ∧ (store = true → e.w = true) ∧ pa = e.pa + (va.toNat - e.page)
    | none => False

/-- The same in the L1 TLB of the group's core. -/
abbrev Mapped (store : Bool) (n : Nat) (va : DWord) (pa : Nat) (s : State) : Prop := MappedAt (.core s.grp.core) store n va pa s

/-- A TLB maps every byte of a range, granule by granule (R385), to frames of device memory. -/
def Paged (u : TlbUnit) (store : Bool) (lo n : Nat) (frame : Nat → Nat) (s : State) : Prop :=
  ∀ q, lo ≤ q → q < lo + n →
    frame (q / 2 ^ 19) < 2 ^ 29 ∧ MappedAt u store 1 (BitVec.ofNat 64 q) (frame (q / 2 ^ 19) * 2 ^ 19 + q % 2 ^ 19) s

/-- The address of a lane: the pair d(b/2) plus the lane's signed offset (R168). -/
def globalAddr (s : State) (a : Fin 128) (b : Fin 32) (l : Fin 32) : DWord :=
  s.rdSS (b.castLE (by decide)) + (s.w.rdV a l).signExtend 64

/-- A value for the lanes of a mask, 0 elsewhere. -/
def perLane {α : Type} [Zero α] (m : Mask) (f : Fin 32 → α) : Lanes α := Lanes.ofFn fun l => if bit m l then f l else 0

/-- The lane loads with their size and extension (R171). -/
def loadTable : List ((Fin 128 → Fin 128 → Fin 32 → Fin 16 → Instr) × Nat × (Nat → Word)) :=
  [(.ldN8, 1, fun x => BitVec.ofNat 32 x), (.ldI8, 1, fun x => (BitVec.ofNat 8 x).signExtend 32), (.ldN16, 2, fun x => BitVec.ofNat 32 x),
   (.ldB32, 4, fun x => BitVec.ofNat 32 x)]

/-- The lane stores with their size and bytes (R171). -/
def storeTable : List ((Fin 128 → Fin 128 → Fin 32 → Instr) × Nat × (Wave → Fin 128 → Fin 32 → List Byte)) :=
  [(.stB8, 1, fun w v l => leBytes 1 (w.rdV v l).toNat), (.stB16, 2, fun w v l => leBytes 2 (w.rdV v l).toNat),
   (.stB32, 4, fun w v l => leBytes 4 (w.rdV v l).toNat), (.stB64, 8, fun w v l => leBytes 8 (w.rdVV v l).toNat)]

/-- Memory after lanes store in ascending lane order (R170). -/
def storedBy (m : Mem) (lanes : List (Fin 32)) (pa : Fin 32 → Nat) (bytes : Fin 32 → List Byte) : Mem :=
  lanes.foldl (fun m l => m.writes (pa l) (bytes l)) m

/-- Words read and rewritten one after another: the memory after, and the former values (R196, R197). -/
def rewrite (op : Word → Word → Word → Word) : List (Nat × Word × Word) → Mem → Mem × List Word
  | [], m => (m, [])
  | (a, x, y) :: t, m =>
    let old : Word := BitVec.ofNat 32 (leNat (m.bytes a 4))
    let r := rewrite op t (m.writes a (leBytes 4 (op old x y).toNat))
    (r.1, old :: r.2)

/-- The atomics with their new value from the old one and the operands (R196). -/
def atomTable : List ((Fin 128 → Fin 128 → Fin 8 → Fin 4 → Fin 16 → Instr) × Bool × (Word → Word → Word → Word)) :=
  [(.atomAdd, false, fun old x _ => old + x), (.atomMin, false, fun old x _ => if old.sle x then old else x),
   (.atomMax, false, fun old x _ => if x.sle old then old else x), (.atomAnd, false, fun old x _ => old &&& x), (.atomOr, false, fun old x _ => old ||| x),
   (.atomXor, false, fun old x _ => old ^^^ x), (.atomXchg, false, fun _ x _ => x), (.atomCas, true, fun old x y => if old = x then y else old)]

/-- The registers of a lane memory form within the allotment; a pair with its odd half. -/
def memRegs (v a : Fin 128) (pair : Bool) : List Reg := [.v v.val, .v a.val] ++ if pair then [.v (v.val + 1)] else []

/-- Cores as in a state but for the lines and the miss-status entries of their L1 caches. -/
def SameCores (cs : List (Nat × Core)) (s : State) : Prop := ∀ c, ∃ l ms, look cs c Core.blank = { s.core c with l1 := l, misses := ms }

/-- An instruction of a state s leaves t but for what the caches, with the owners of their words and the other die's copies, hold; with a write of memory,
for what instruction fetch and read-only loads keep of the bytes overwritten as well (R47, R298). -/
def Reads (i : Instr) (s t : State) : Prop := ∃ cs os ls rs, SameCores cs t ∧ exec i s = .next { t with cores := cs, owners := os, l2 := ls, regions := rs }
def Writes (i : Instr) (s t : State) : Prop := ∃ cs os ls cl rl, SameCores cs t ∧
  exec i s = .next { t with cores := cs, owners := os, l2 := ls, codeLog := cl, roLog := rl }

/-- The enabled lanes name different addresses. -/
abbrev Apart (pa : Fin 32 → Nat) (s : State) : Prop :=
  ∀ l j, bit (laneSet s) l = true → bit (laneSet s) j = true → pa l = pa j → l = j

end Sys2Proof.Claims

section
open Sys2Proof Sys2Proof.Machine Sys2Proof.Claims

/-- R7 and R168 to R174: with its pages cached and memory at rest, a lane load delivers to each enabled lane the little-endian number at its address,
extended as its form says; apart from the caches, L1 and L2 with their word owners and the other die's copies, nothing else changes. A read-only load
delivers for each word the one in memory or one that it has had since the launch was accepted. That a load takes its value in the step of its issue, and that any value R298 allows may be the one it takes, are
the model's choices (log entries 2 and 12). -/
def Obligations.LaneLoads : Prop :=
  ∀ s (pa : Fin 32 → Nat) d a b (k : Fin 16), CanIssue s → AtRest s → s.provs = [] → CleanL1 s → laneSet s ≠ 0 →
    (∀ e ∈ loadTable, Within (memRegs d a false) s → (∀ l, bit (laneSet s) l = true → Mapped false e.2.1 (globalAddr s a b l) (pa l) s) →
      Reads (e.1 d a b k) s (deliveredAs ⟨true, false, 1⟩ k.val [.v d.val]
        [.v d (laneSet s) (perLane (laneSet s) fun l => e.2.2 (s.num (pa l) e.2.1))] (laneSet s) true s (past true s))) ∧
    let word (x : Fin 32 → Word) (d : Fin 128) : RegWrite := .v d (laneSet s) (perLane (laneSet s) x)
    let home (i : Nat) (l : Fin 32) : Word := BitVec.ofNat 32 (s.num (pa l + i) 4)
    let permitted (i : Nat) (x : Fin 32 → Word) : Prop := ∀ l, bit (laneSet s) l = true → x l = home i l ∨ x l ∈ roPast (pa l + i) s
    ((∀ l, bit (laneSet s) l = true → Mapped false 8 (globalAddr s a b l) (pa l) s) → Within (memRegs d a true) s →
      Reads (.ldB64 d a b k) s (deliveredAs ⟨true, false, 1⟩ k.val [.v d.val, .v (d.val + 1)] [word (home 0) d, word (home 4) (odd d)] (laneSet s) true s
        (past true s)) ∧
      ∃ n x y, permitted 0 x ∧ permitted 4 y ∧ Reads (.ldRoB64 d a b k) s
        { deliveredAs ⟨true, false, 1⟩ k.val [.v d.val, .v (d.val + 1)] [word x d, word y (odd d)] (laneSet s) true s (past true s) with nfree := n }) ∧
    ((∀ l, bit (laneSet s) l = true → Mapped false 4 (globalAddr s a b l) (pa l) s) → Within (memRegs d a false) s →
      ∃ n x, permitted 0 x ∧ Reads (.ldRoB32 d a b k) s
        { deliveredAs ⟨true, false, 1⟩ k.val [.v d.val] [word x d] (laneSet s) true s (past true s) with nfree := n })

/-- R7, R168, R170, R171 and R175: a lane store writes the little-endian bytes of each enabled lane at its address, in ascending lane order; a
non-temporal store waits in order until it performs. Apart from the caches, the word owners and what instruction fetch and read-only loads keep of the
bytes overwritten (R47, R298) nothing else changes. -/
def Sys2Proof.Claims.LaneStores : Prop :=
  ∀ s (pa : Fin 32 → Nat) v a b, CanIssue s → AtRest s → s.provs = [] →
    (∀ e ∈ storeTable, Within (memRegs v a (e.2.1 == 8)) s →
      (∀ l, bit (laneSet s) l = true → Mapped true e.2.1 (globalAddr s a b l) (pa l) s) →
      Writes (e.1 v a b) s { past true s with mem := storedBy s.mem (lanesOf (laneSet s)) pa (e.2.2 s.w v) }) ∧
    (∀ e ∈ [((.stNtB32, 4) : (Fin 128 → Fin 128 → Fin 32 → Instr) × Nat), (.stNtB64, 8)], Within (memRegs v a (e.2 == 8)) s → laneSet s ≠ 0 →
      (∀ l, bit (laneSet s) l = true → Mapped true e.2 (globalAddr s a b l) (pa l) s) →
      let bytes (l : Fin 32) := leBytes e.2 (if e.2 = 4 then (s.w.rdV v l).toNat else (s.w.rdVV v l).toNat)
      exec (e.1 v a b) s = .next ((past true s).modW fun w => { w with nt := (lanesOf (laneSet s)).map fun l => ⟨pa l, bytes l⟩ }))

/-- R175: drain.nt performs the wave's non-temporal stores in order. -/
def Sys2Proof.Claims.DrainOfNonTemporalStores : Prop :=
  ∀ s n, CanIssue s → AtRest { s with grp := { s.grp with wave := { s.w with nt := [] } } } → s.provs = [] → s.w.nt = n →
    (∀ e ∈ n, e.addr + e.data.length ≤ 2 ^ 48) →
    Writes .drainNt s { (past false s).modW (fun w => { w with nt := [] }) with mem := n.foldl (fun m e => m.writes e.addr e.data) s.mem }

/-- R7: bytes written from an address are the bytes read from there, every other byte of memory reads as before, and the canonical form is kept. -/
def Obligations.MemoryReadsWhatWasWritten : Prop :=
  ∀ (m : Mem) a bs, Mem.wf m = true →
    Mem.wf (m.writes a bs) = true ∧ (m.writes a bs).bytes a bs.length = bs ∧
    (∀ x, x < a ∨ a + bs.length ≤ x → (m.writes a bs).read x = m.read x) ∧
    ∀ m', Mem.wf m' = true → (∀ x, m'.read x = m.read x) → m' = m

/-- R39, R40, R168 and R170: loads and stores of scratch within the group's allotment, in lanes and in the group set. -/
def Sys2Proof.Claims.ScratchAccesses : Prop :=
  ∀ s, CanIssue s → FaultsOwn s → s.grp.scratchPoison = [] →
    (∀ d a (b : Fin 32) (k : Fin 16), laneSet s ≠ 0 →
      let off (l : Fin 32) : Nat := (s.rdS (b.castLE (by decide)) + s.w.rdV a l).toNat
      let fits (n : Nat) : Prop := ∀ l, bit (laneSet s) l = true → off l % n = 0 ∧ off l + n ≤ scratchOf s.grp.allot * 4096
      let num (n : Nat) (l : Fin 32) : Nat := leNat (s.grp.scratch.bytes (off l) n)
      (∀ e ∈ [((.ldsN8, 1) : (Fin 128 → Fin 128 → Fin 32 → Fin 16 → Instr) × Nat), (.ldsN16, 2), (.ldsB32, 4)], fits e.2 → Within (memRegs d a false) s →
        exec (e.1 d a b k) s = .next (deliveredAs ⟨false, false, 2⟩ k.val [.v d.val]
          [.v d (laneSet s) (perLane (laneSet s) fun l => BitVec.ofNat 32 (num e.2 l))] (laneSet s) false s (past true s))) ∧
      (fits 8 → Within (memRegs d a true) s → exec (.ldsB64 d a b k) s = .next (deliveredAs ⟨false, false, 2⟩ k.val [.v d.val, .v (d.val + 1)]
        [.v d (laneSet s) (perLane (laneSet s) fun l => BitVec.ofNat 32 (num 8 l)),
         .v (odd d) (laneSet s) (perLane (laneSet s) fun l => BitVec.ofNat 32 (num 8 l / 2 ^ 32))] (laneSet s) false s (past true s))) ∧
      (∀ e ∈ [((.stsB8, 1) : (Fin 128 → Fin 128 → Fin 32 → Instr) × Nat), (.stsB16, 2), (.stsB32, 4), (.stsB64, 8)], fits e.2 →
        Within (memRegs d a (e.2 == 8)) s → exec (e.1 d a b) s = .next ((past true s).modG fun g => { g with
          scratch := storedBy g.scratch (lanesOf (laneSet s)) off fun l =>
            leBytes e.2 (if e.2 = 8 then (s.w.rdVV d l).toNat else (s.w.rdV d l).toNat) }))) ∧
    ∀ d a i, let off := (s.rdS a + (i : BitVec 9).signExtend 32).toNat
      off % 4 = 0 → off + 4 ≤ scratchOf s.grp.allot * 4096 →
      exec (.ldsgB32 d a i) s = .next ((past false s).wrS d (BitVec.ofNat 32 (leNat (s.grp.scratch.bytes off 4)))) ∧
      exec (.stsgB32 d a i) s = .next ((past false s).modG fun g => { g with scratch := g.scratch.writes off (leBytes 4 (s.rdS d).toNat) })

/-- R195 to R198: the atomics of the enabled lanes take place one after another in ascending lane order; each lane receives the former value of its
word, and its cell settles. With the release bit of ORD the wave's cells settle before them, and with the acquire bit the core's unowned words of coherent
pages are invalid after them. -/
def Sys2Proof.Claims.LaneAtomics : Prop :=
  ∀ s (pa : Fin 32 → Nat) d a b (o : Fin 4) (k : Fin 16), CanIssue s → AtRest s → CleanL1 s → laneSet s ≠ 0 →
    (o ≠ 0 → ∀ p ∈ s.w.pending, p.ordered = false) →
    (∀ l, bit (laneSet s) l = true → Mapped true 4 (s.rdSS ⟨2 * b.val, by omega⟩ + (s.w.rdV a l).signExtend 64) (pa l) s) →
    ∀ e ∈ atomTable, Within (memRegs d a e.2.1) s →
      let lanes := lanesOf (laneSet s)
      let r := rewrite e.2.2 (lanes.map fun l => (pa l, s.w.rdV d l, s.w.rdV (odd d) l)) s.mem
      let t : State := { deliveredAs ⟨false, true, 1⟩ k.val [.v d.val]
        [.v d (laneSet s) (perLane (laneSet s) fun l => (((lanes.zip r.2).find? fun p => p.1 == l).map (·.2)).getD 0)] (laneSet s) true s (past true s) with
          mem := r.1, provs := s.provs.filter fun c => !(o.val / 2 == 1 && c.wave == s.w.uid) && !(lanes.any fun l => pa l == c.addr) }
      ∃ cs os ls cl rl, SameCores cs t ∧
        exec (e.1 d a b o k) s = .next { t with cores := cs, owners := os, l2 := ls, codeLog := cl, roLog := rl } ∧
        (o.val % 2 = 1 → ∀ l ∈ (look cs s.grp.core Core.blank).l1, l.nc = false → ∀ w ∈ l.words, w.2.valid = true → w.2.owned = true)

/-- R200 and R201: red.f32 adds into the words in ascending lane order; a narrow reduction leaves memory as it is and adds into the FP32 shadow of
its element in the side band of the line. -/
def Sys2Proof.Claims.Reductions : Prop :=
  ∀ s (pa : Fin 32 → Nat) v a b, CanIssue s → AtRest s → s.provs = [] → Within (memRegs v a false) s →
    ((∀ l, bit (laneSet s) l = true → Mapped true 4 (globalAddr s a b l) (pa l) s) →
      Writes (.redF32 v a b) s { past true s with
        mem := (rewrite (fun old x _ => fadd .nearest old x) ((lanesOf (laneSet s)).map fun l => (pa l, s.w.rdV v l, 0)) s.mem).1 }) ∧
    ∀ e ∈ [((.redBf16, 2, 2) : (Fin 128 → Fin 128 → Fin 32 → Instr) × Nat × Nat), (.redE4m3, 3, 1), (.redE5m2, 4, 1)],
      ∀ l, laneSet s = BitVec.twoPow 32 l.val → Mapped true e.2.2 (globalAddr s a b l) (pa l) s →
      let element : Word := BitVec.ofNat 32 (widen (fmtOf e.2.1) (s.num (pa l) e.2.2))
      Writes (e.1 v a b) s { past true s with
        nextUid := s.nextUid + 1
        bands := [⟨pa l / 256, e.2.1, [(pa l, fadd .nearest element (s.w.rdV v l))], s.nextUid⟩] }

/-- R183 to R187: tst stores and opens a cell with the old and the new word, retract restores the word of an unobserved cell of the wave and says what
it found, settle frees the wave's cells. That they perform in the
step of their issue, and that retract needs a writable page and settle a readable one, are the model's choices (log entries 12 and 29). -/
def Obligations.TentativeStores : Prop :=
  ∀ s (pa : Fin 32 → Nat) v a b (k : Fin 16), CanIssue s → AtRest s → laneSet s ≠ 0 → Within (memRegs v a false) s →
    (s.provs = [] → (∀ l, bit (laneSet s) l = true → Mapped true 4 (globalAddr s a b l) (pa l) s) → Apart pa s →
      Writes (.tst v a b) s { past true s with
        mem := storedBy s.mem (lanesOf (laneSet s)) pa fun l => leBytes 4 (s.w.rdV v l).toNat
        provs := (lanesOf (laneSet s)).map fun l => ⟨pa l, BitVec.ofNat 32 (s.num (pa l) 4), s.w.rdV v l, s.w.uid, false⟩ }) ∧
    (∀ (p : Fin 128), p.val < 7 → (∀ l, bit (laneSet s) l = true → Mapped true 4 (globalAddr s a b l) (pa l) s) → Apart pa s →
      let cell (l : Fin 32) : Option Prov := s.provs.find? fun c => c.addr == pa l
      let code (l : Fin 32) : BitVec 2 := match cell l with
        | none => 2
        | some c => if c.wave ≠ s.w.uid then 2 else if c.obs then 1 else 0
      let old (l : Fin 32) : Word := ((cell l).map (·.old)).getD 0
      Writes (.retract p a b k) s { deliveredAs ⟨false, true, 1⟩ k.val [.p p.val, .retcode]
          [.p p.val (laneSet s) (maskOf fun l => bit (laneSet s) l && code l == 0), .retcode (laneSet s) (perLane (laneSet s) code)]
          (laneSet s) true s (past true s) with
        mem := storedBy s.mem ((lanesOf (laneSet s)).filter fun l => code l == 0) pa fun l => leBytes 4 (old l).toNat
        provs := s.provs.filter fun c => !(lanesOf (laneSet s)).any fun l => pa l == c.addr && code l != 2 }) ∧
    ((∀ l, bit (laneSet s) l = true → Mapped false 4 (globalAddr s a b l) (pa l) s) →
      exec (.settle a b) s = .next { past true s with
        provs := s.provs.filter fun c => !(c.wave == s.w.uid && (lanesOf (laneSet s)).any fun l => pa l == c.addr) })

/-- R168 to R171 and R194 to R196: the loads, stores and atomics of the group set. -/
def Sys2Proof.Claims.GroupAccesses : Prop :=
  ∀ s pa d a (i : BitVec 9), CanIssue s → AtRest s → s.provs = [] → CleanL1 s →
    let va := s.rdSS a + i.signExtend 64
    (Mapped false 4 va pa s → Reads (.ldgB32 d a i) s ((past false s).wrS d (BitVec.ofNat 32 (s.num pa 4)))) ∧
    (Mapped false 8 va pa s → Reads (.ldgB64 d a i) s ((past false s).wrSS d (BitVec.ofNat 64 (s.num pa 8)))) ∧
    (Mapped true 4 va pa s → Writes (.stgB32 d a i) s { past false s with mem := s.mem.writes pa (leBytes 4 (s.rdS d).toNat) }) ∧
    (Mapped true 8 va pa s → Writes (.stgB64 d a i) s { past false s with mem := s.mem.writes pa (leBytes 8 (s.rdSS d).toNat) }) ∧
    (Mapped true 4 va pa s →
      let old : Word := BitVec.ofNat 32 (s.num pa 4)
      Writes (.atomgAdd d a i) s { (past false s).wrS d old with mem := s.mem.writes pa (leBytes 4 (old + s.rdS d).toNat) } ∧
      Writes (.atomgCas d a i) s { (past false s).wrS d old with mem := s.mem.writes pa (leBytes 4 (if old = s.rdS d then s.rdS (odd d) else old).toNat) })

/-- R168, R169, R405 and R407: lanes whose address is above 56 bits or misaligned park with RESTART 1, each with its own cause and address, and
nothing is loaded or stored for them; so do lanes whose page is not present or not writable. The order of the checks is the model's reading (log entry
28). -/
def Obligations.MemoryFaults : Prop :=
  ∀ s d a b, CanIssue s → AtRest s → s.provs = [] → laneSet s ≠ 0 → Within (memRegs d a false) s →
    let va (l : Fin 32) : DWord := globalAddr s a b l
    let parked (cause : Fin 32 → Word) : State := park (laneSet s) (fun l =>
      { cause := 0x1000 ||| cause l, addr := va l, pc := at_ s, entry := ((past true s).w.pc[l]).setWidth 64, guard := (past true s).w.guard[l],
        guardAt := s.w.guard[l], enabled := true, passed := true }) (past true s)
    (∀ e ∈ loadTable, (∀ l, bit (laneSet s) l = true → 2 ^ 56 ≤ (va l).toNat ∨ (va l).toNat % e.2.1 ≠ 0) →
      exec (e.1 d a b 0) s = .next (parked fun l => if 2 ^ 56 ≤ (va l).toNat then 0x10 else 0x11)) ∧
    (∀ e ∈ [((.stB8, 1) : (Fin 128 → Fin 128 → Fin 32 → Instr) × Nat), (.stB16, 2), (.stB32, 4), (.stNtB32, 4), (.tst, 4), (.redF32, 4)],
      (e.2 = 4 ∨ e.2 = 2 ∨ e.2 = 1) → (∀ l, bit (laneSet s) l = true → 2 ^ 56 ≤ (va l).toNat ∨ (va l).toNat % e.2 ≠ 0) →
      exec (e.1 d a b) s = .next (parked fun l => if 2 ^ 56 ≤ (va l).toNat then 0x10 else 0x11)) ∧
    ((s.ctx s.grp.task.ctx).fqbase = 0 → (∀ l, bit (laneSet s) l = true → (va l).toNat < 2 ^ 56 ∧ (va l).toNat % 4 = 0) →
      ((s.ctx s.grp.task.ctx).root.toNat < 2 ^ 47 → (∀ l, bit (laneSet s) l = true → Uncached s (va l).toNat ∧
          s.num ((s.ctx s.grp.task.ctx).root.toNat + 8 * ((va l).toNat / 2 ^ 43)) 8 % 2 = 0) →
        ∀ i ∈ [Instr.ldB32 d a b 0, .stB32 d a b],
          Reads i s (parked fun _ => 0x14)) ∧
      ((∀ l, bit (laneSet s) l = true → ∃ e, cached s (va l).toNat = some e ∧ e.w = false) →
        exec (.stB32 d a b) s = .next (parked fun _ => 0x15)))

/-- R406, R419 and R421: lanes whose load or reduction meets a poisoned word park with cause 0x19 and the word's address, nothing is loaded or
stored, and the error is logged as consumed; a store of whole words writes them and clears their marks, and a store of bytes leaves the marks. That one
instruction logs one error, for its lowest lane, is the model's reading (log entry 62). -/
def Obligations.PoisonedWords : Prop :=
  ∀ s (pa : Fin 32 → Nat) d a b, CanIssue s → AtRest { s with poison := [] } → s.provs = [] → (s.core s.grp.core).l1 = [] →
    s.errlog.pos < 32 → s.errlog.slots.length = 32 → (s.errlog.slots.getD s.errlog.pos (0, 0)).1.getLsbD 63 = false → laneSet s ≠ 0 →
    Within (memRegs d a false) s →
    let parked : State := park (laneSet s) (fun l =>
      { cause := 0x1019, addr := globalAddr s a b l, pc := at_ s, entry := ((past true s).w.pc[l]).setWidth 64, guard := (past true s).w.guard[l],
        guardAt := s.w.guard[l], enabled := true, passed := true }) (past true s)
    ((∀ l, bit (laneSet s) l = true → pa l ∈ s.poison ∧ Mapped true 4 (globalAddr s a b l) (pa l) s) →
      ∀ i ∈ [Instr.ldB32 d a b 0, .redF32 d a b],
        ∃ es l, bit (laneSet s) l = true ∧ (∀ j < l, bit (laneSet s) j = false) ∧ Reads i s { parked with
          errstat := es, out := .msix 2 :: s.out
          errlog := ⟨s.errlog.slots.set s.errlog.pos (BitVec.ofNat 64 (pa l % 2 ^ 52 + 2 ^ 56 + 2 ^ 63), BitVec.ofNat 64 s.clock),
            (s.errlog.pos + 1) % 32⟩ }) ∧
    ((∀ l, bit (laneSet s) l = true → Mapped true 4 (globalAddr s a b l) (pa l) s) →
      Writes (.stB32 d a b) s { past true s with
        mem := storedBy s.mem (lanesOf (laneSet s)) pa fun l => leBytes 4 (s.w.rdV d l).toNat
        poison := s.poison.filter fun w => !(lanesOf (laneSet s)).any fun l => pa l == w }) ∧
    ((∀ l, bit (laneSet s) l = true → Mapped true 1 (globalAddr s a b l) (pa l) s) →
      Writes (.stB8 d a b) s { past true s with
        mem := storedBy s.mem (lanesOf (laneSet s)) pa fun l => leBytes 1 (s.w.rdV d l).toNat })

/-- R179 to R181: cp.sc starts a copy and clears its tag's bit; wait.any and wait.all go on when the tags of their mask that the group holds allow it, and
else wait; ffr.tag finds the lowest completed or held tag. -/
def Sys2Proof.Claims.CopiesAndTags : Prop :=
  ∀ s a b d, CanIssue s → s.grp.failedTags = [] →
    (s.w.nt = [] → (∀ e ∈ s.grp.epilogues, e.wave ≠ s.w.uid) →
     let src := s.rdSS a
     let soff := (s.rdSS b).extractLsb' 0 32
     let len := (s.rdSS b).extractLsb' 32 24
     let tag := (s.rdSS b).extractLsb' 56 6
     src.toNat < 2 ^ 56 → src.toNat % 4 = 0 → soff.toNat % 4 = 0 → len.toNat % 4 = 0 → 4 ≤ len.toNat → len.toNat ≤ 262144 →
     (s.rdSS b).toNat < 2 ^ 62 → soff.toNat + len.toNat ≤ scratchOf s.grp.allot * 4096 → s.grp.tags.getLsbD tag.toNat = true →
     (s.grp.copies.countP fun c => c.tag == tag.toNat) < 15 →
     exec (.cpSc a b) s = .next (((past false s).modCore s.grp.core fun c => { c with tagmap := c.tagmap &&& ~~~(BitVec.twoPow 64 tag.toNat) }).modG
       fun g => { g with copies := g.copies ++ [⟨src, soff.toNat, len.toNat, tag.toNat, s.w.uid, false, none⟩] })) ∧
    (let m := s.rdSS a &&& s.grp.tags
     let done := (s.core s.grp.core).tagmap
     let waits : State := s.modW fun w => { w with chosen := some s.iss }
     exec (.waitAny a) s = .next (if m = 0 ∨ done &&& m ≠ 0 then past false s else waits) ∧
     exec (.waitAll a) s = .next (if done &&& m = m then past false s else waits) ∧
     (∀ (held : Bool) t, (if held then m else m &&& done).getLsbD t = true → (∀ j < t, (if held then m else m &&& done).getLsbD j = false) →
       exec (if held then .ffrTagHeld d a else .ffrTag d a) s = .next ((past false s).wrS d (BitVec.ofNat 32 t))) ∧
     ∀ held : Bool, (if held then m else m &&& done) = 0 →
       exec (if held then .ffrTagHeld d a else .ffrTag d a) s = .next ((past false s).wrS d 64))

/-- R176 to R178 and R182: over one dirty word of a non-coherent page, wb.range writes its dirty bytes to memory and keeps the word, inv.range also
invalidates it; prefetch requests the missing words of a line, and a prefetch into L2 leaves all but the caches as it is. -/
def Sys2Proof.Claims.RangesAndPrefetch : Prop :=
  ∀ s a b pa, CanIssue s → AtRest s → s.provs = [] →
    (∀ (line : Nat) (w : Nat) (x : L1Word), (s.core s.grp.core).l1 = [⟨line, true, [(w, x)]⟩] → x.dirty ≠ 0 → w % 4 = 0 → pa ≤ w → w + 4 ≤ pa + (s.rdS b).toNat →
      line = w / 256 → (s.rdSS a).toNat % 2 ^ 19 + (s.rdS b).toNat ≤ 2 ^ 19 → w + 4 ≤ 2 ^ 48 →
      (s.rdSS a).toNat + 2 ^ 19 ≤ 2 ^ 56 → (∃ e, cached s (s.rdSS a).toNat = some e ∧ pa = e.pa + ((s.rdSS a).toNat - e.page)) →
      let mem := (List.range 4).foldl (fun m i => if x.dirty.getLsbD i then m.write (w + i) ((x.val >>> (8 * i)).setWidth 8) else m) s.mem
      let leaves (i : Instr) (valid : Bool) : Prop := ∃ cs os ls cl rl, SameCores cs s ∧
        exec i s = .next { past false s with cores := cs, owners := os, l2 := ls, codeLog := cl, roLog := rl, mem := mem } ∧
        look cs s.grp.core Core.blank = { s.core s.grp.core with l1 := [⟨line, true, [(w, { x with dirty := 0, valid := valid })]⟩] }
      leaves (.wbRange a b) x.valid ∧ leaves (.invRange a b) false) ∧
    (Mapped false 1 (s.rdSS a) pa s →
      Reads (.prefetchL2 a) s (past false s) ∧
      ((s.core s.grp.core).l1 = [] → (s.core s.grp.core).misses = [] → ∃ gone n,
        Reads (.prefetch a) s { past false s with nfree := n } ∧ ∀ t, exec (.prefetch a) s = .next t →
          (t.core s.grp.core).misses = (List.range 4).map fun i => ⟨pa / 256 * 256 + 64 * i, 0xFFFF, false, 1, gone⟩))

end

namespace Sys2Proof.Claims
open Sys2Proof Sys2Proof.Machine

/-- The table of R210 by FMT: line width, chunks of an operand; a chunk takes half the line width in units. -/
def lineBytes (f : Nat) : Nat := [64, 64, 32, 32, 32, 36, 24, 16].getD f 16
def chunks (f : Nat) : Nat := if f < 2 then 1 else 2
def units (f : Nat) : Nat := lineBytes f / 2

/-- The fields of a reservation record (R22). -/
def fld (r : DWord) (lo n : Nat) : Nat := r.toNat / 2 ^ lo % 2 ^ n
def rBase (r : DWord) : Nat := fld r 0 10
def rLen (r : DWord) : Nat := fld r 10 10
def rFmt (r : DWord) : Nat := fld r 20 4
def rScale (r : DWord) : Nat := fld r 24 2
def rBlk (r : DWord) : Nat := fld r 32 8
def rScBase (r : DWord) : Nat := fld r 40 7

/-- The checks of R211 against the units that the group holds. -/
def ValidRecord (grant : Nat) (r : DWord) : Prop :=
  fld r 26 6 = 0 ∧ fld r 47 17 = 0 ∧ rFmt r ≤ 7 ∧ rScale r ≤ 1 ∧ (rScale r = 1 → rFmt r = 2 ∨ rFmt r = 3) ∧ rLen r ≠ 0 ∧
    rBase r + rLen r ≤ grant ∧ (rFmt r < 2 → units (rFmt r) ≤ rLen r) ∧
    (2 ≤ rFmt r → units (rFmt r) ≤ rBlk r ∧ rBlk r + units (rFmt r) ≤ rLen r)

/-- The first byte of a line of a chunk (R210). -/
def lineStart (r : DWord) (c i : Nat) : Nat := (rBase r + c * rBlk r) * 64 + i * lineBytes (rFmt r)

/-- The operand buffer after the 32 lines of an operand are copied from a scratch (R214). -/
def filled (r : DWord) (scratch : Mem) (off pitch : Nat) (m : Mem) : Mem :=
  (List.range (chunks (rFmt r))).foldl (fun m c => (List.range 32).foldl (fun m i =>
    m.writes (lineStart r c i) (scratch.bytes (off + i * pitch + c * lineBytes (rFmt r)) (lineBytes (rFmt r)))) m) m

/-- The pairs of formats of R217. -/
def FormatPair (a b : Nat) : Prop :=
  a = 0 ∧ b = 0 ∨ a = 1 ∧ b = 1 ∨ (a = 2 ∨ a = 3) ∧ (b = 2 ∨ b = 3) ∨ a = 4 ∧ b = 4 ∨ 5 ≤ a ∧ a ≤ 7 ∧ 5 ≤ b ∧ b ≤ 7

/-- An INT8 element of an operand, signed (R210). -/
def int8At (g : Group) (r : DWord) (i k : Nat) : Int := (g.obuf.read (lineStart r (k / 32) i + k % 32)).toInt

/-- The scale of a chunk of a line (R85, R218): byte 2 * HALF + c of the scale register, 0 in an inactive lane; or 1. -/
def scaleAt (w : Wave) (r : DWord) (off half c : Nat) (l : Fin 32) : Machine.Num :=
  if rScale r = 0 then .fin false 1 0
  else scaleOf ((seen w (Fin.ofNat 128 (rScBase r + off)) l).toNat / 2 ^ (8 * (2 * half + c)) % 2 ^ 8)

/-- The products of chunk c of a cell (R96, R219). -/
def cellProducts (s : State) (ra rb : DWord) (sel : Nat) (i j : Fin 32) (c : Nat) : List Machine.Num :=
  let line (r : DWord) (i : Fin 32) : Nat := leNat (s.grp.obuf.bytes (lineStart r c i.val) (lineBytes (rFmt r)))
  (List.range 32).map fun q => product (elementNum (rFmt ra) (line ra i) q) (elementNum (rFmt rb) (line rb j) q)
    (scaleAt s.w ra (sel % 8) (sel / 8 % 2) c i) (scaleAt s.w rb (sel / 16 % 8) (sel / 128 % 2) c j)

/-- A cell of a multiply (R219): the accumulation of R98 over the chunks, or the INT32 sum of R99. -/
def cellAfter (s : State) (ra rb : DWord) (sel : Nat) (start : Word) (i j : Fin 32) : Word :=
  if rFmt ra = 4 then start + BitVec.ofInt 32 ((List.range 64).map fun k => int8At s.grp ra i.val k * int8At s.grp rb j.val k).sum
  else accumulate start ((List.range (chunks (rFmt ra))).map (cellProducts s ra rb sel i j))

/-- Every multiply check of R218 and R220 passes: both ranges reserved, the formats a pair, no SEL field for an unscaled range, the scale
registers within the allotment and pending for no lane, and no unit of the operand buffer poisoned. -/
def CanMultiply (s : State) (ra rb : DWord) (sel : Nat) : Prop :=
  rLen ra ≠ 0 ∧ rLen rb ≠ 0 ∧ FormatPair (rFmt ra) (rFmt rb) ∧ (rScale ra = 1 ∨ sel % 16 = 0) ∧ (rScale rb = 1 ∨ sel / 16 = 0) ∧
    (∀ r off, (r, off) = (ra, sel % 8) ∨ (r, off) = (rb, sel / 16 % 8) → rScale r = 1 →
      Within [.v (rScBase r + off)] s ∧ Settled (.v (rScBase r + off)) (fun _ => True) s) ∧
    s.grp.obufPoison = []

/-- What a merge leaves that completes with its arrival (R228, R255): its results stand at once with lookahead 0, else they are pending; its
identity is used up. -/
def answered (look : Nat) (dests : List Reg) (ws : List RegWrite) (s after : State) : State :=
  { delivered look dests ws s.iss.run false s after with nextUid := s.nextUid + 1 }

/-- The identities of a wave and of what is pending are its own: no other wave has the wave's, and the next one to be given is none of a pending
instruction's. -/
def OwnIdentities (s : State) : Prop :=
  (∀ p ∈ s.w.pending, p.on = .time ∧ p.id ≠ s.nextUid) ∧ (∀ w ∈ s.grp.waves, w.uid ≠ s.w.uid) ∧ ∀ g ∈ s.rest, ∀ w ∈ g.all, w.uid ≠ s.w.uid

/-- The group of the issuing wave is alone at cluster merges (R228): CLUS 0 and no merge under way. -/
def AloneAtMerge (s : State) : Prop := Alone s ∧ s.merges = [] ∧ OwnIdentities s

/-- An element of an output format of epi.st (R224). -/
def outputBytes (f : Nat) (c : Word) : List Byte :=
  match f with
  | 0 => leBytes 4 c.toNat
  | 5 => leBytes 4 c.toNat
  | 6 => [BitVec.ofInt 8 (max (-128) (min c.toInt 127))]
  | 1 => leBytes 2 (narrow fp16 .nearest c.toNat)
  | 2 => leBytes 2 (narrow bf16 .nearest c.toNat)
  | 3 => leBytes 1 (narrow e4m3 .nearest c.toNat)
  | _ => leBytes 1 (narrow e5m2 .nearest c.toNat)
def outputSize (f : Nat) : Nat := if f = 0 ∨ f = 5 then 4 else if f = 1 ∨ f = 2 then 2 else 1

/-- A tile header as a write leaves it (R8, R21): its reserved bits 31:26 and 63:56 are 0. -/
def headerKept (z : DWord) : DWord := z &&& ~~~0xFF000000FC000000#64

/-- The mask of the k best columns (R255): a column that is selectable, with fewer than k selectable columns before it. -/
def bestMask (t : Tile) (rows : Mask) (k : Nat) : Word :=
  let score (j : Fin 32) : Word := columnScore t rows j
  let sound (j : Fin 32) : Bool := !isNaN (score j) && score j != 0xFF800000
  let before (i j : Fin 32) : Bool := sound i && (below (score j) (score i) || (!below (score i) (score j) && decide (i < j)))
  maskOf fun j => sound j && decide (laneList.countP (fun i => before i j) < k)

end Sys2Proof.Claims

section
open Sys2Proof Sys2Proof.Machine Sys2Proof.Claims

/-- R210 to R212, R214 and R215: obres writes a record that passes its checks and faults on another; obrel frees the ranges of its mask; obfill copies
the 32 lines of an operand from the group's scratch, obfill.x from the scratch of the group of the launch on a core of the cluster. -/
def Sys2Proof.Claims.OperandBufferRanges : Prop :=
  ∀ s a b (n : Fin 8), CanIssue s →
    (ValidRecord (16 * obufOf s.grp.allot) (s.rdSS a) →
      exec (.obres a n) s = .next ((past false s).modG fun g => { g with ob := g.ob.set n (s.rdSS a) })) ∧
    (¬ ValidRecord (16 * obufOf s.grp.allot) (s.rdSS a) →
      exec (.obres a n) s = .next (faultsAt true s.iss.run 0x24 (fun _ => at_ s) s.iss.run s (past false s))) ∧
    (∀ m : BitVec 8, exec (.obrel m) s = .next ((past false s).modG fun g =>
      { g with ob := Vector.ofFn fun i => if m.getLsbD i.val then 0 else g.ob[i] })) ∧
    (let r := s.grp.ob[n]
     let pitch := (s.rdS b).toNat
     let fits (g : Group) (off : Nat) : Prop := off % 4 = 0 ∧ pitch % 4 = 0 ∧
       off + 31 * pitch + chunks (rFmt r) * lineBytes (rFmt r) ≤ scratchOf g.allot * 4096
     s.grp.obufPoison = [] → rLen r ≠ 0 →
      (s.grp.scratchPoison = [] → fits s.grp (s.rdS a).toNat → exec (.obfill a b n) s = .next ((past false s).modG fun g =>
        { g with obuf := filled r s.grp.scratch (s.rdS a).toNat pitch g.obuf })) ∧
      ∀ (off : BitVec 18) (c : Fin 12), (s.rdS a).toNat = c.val * 2 ^ 24 + off.toNat →
        (∀ g, clusterGroup (past false s) c.val = some g → g.scratchPoison = [] → fits g off.toNat →
          exec (.obfillX a b n) s = .next ((past false s).modG fun h => { h with obuf := filled r g.scratch off.toNat pitch h.obuf })) ∧
        (clusterGroup (past false s) c.val = none → off.toNat % 4 = 0 → pitch % 4 = 0 →
          exec (.obfillX a b n) s = .next (faultsAt true s.iss.run 0x25 (fun _ => at_ s) s.iss.run s (past false s))))

/-- R216 to R220: the multiply writes the cells of the enabled rows and keeps their side registers; a multiply whose range checks fail parks its run
with the operand-buffer fault. -/
def Sys2Proof.Claims.MatrixMultiply : Prop :=
  ∀ s (t : Fin 16) (a b : Fin 8) (sel : Fin 256) (k : Fin 16), CanIssue s → Within [.tile t.val] s → laneSet s ≠ 0 →
    let ra := s.grp.ob[a]
    let rb := s.grp.ob[b]
    (CanMultiply s ra rb sel.val →
      let rows (start : Fin 32 → Fin 32 → Word) : Lanes Row := Lanes.ofFn fun i =>
        if bit (laneSet s) i then { s.w.tiles[t].rows[i] with cells := Lanes.ofFn fun j => cellAfter s ra rb sel.val (start i j) i j }
        else s.w.tiles[t].rows[i]
      exec (.mma t a b sel k) s = .next (delivered k.val [.tile t.val] [.rows t (laneSet s) (rows fun i j => s.w.tiles[t].rows[i].cells[j])]
        (laneSet s) false s (past true s)) ∧
      exec (.mmaZ t a b sel k) s = .next (delivered k.val [.tile t.val] [.rows t (laneSet s) (rows fun _ _ => 0)]
        (laneSet s) false s (past true s))) ∧
    (¬ (rLen ra ≠ 0 ∧ rLen rb ≠ 0 ∧ FormatPair (rFmt ra) (rFmt rb) ∧ (rScale ra = 1 ∨ sel.val % 16 = 0) ∧ (rScale rb = 1 ∨ sel.val / 16 = 0)) →
      let fault := faultsAt true s.iss.run 0x24 (fun _ => at_ s) (laneSet s) s (past true s)
      exec (.mma t a b sel k) s = .next fault ∧ exec (.mmaZ t a b sel k) s = .next fault)

/-- R8, R21, R221 and R222: tiles are cleared, moved, read and written a column at a time in the enabled rows; the header is written once, in a handler, and
its reserved bits stay 0. -/
def Sys2Proof.Claims.TileMoves : Prop :=
  ∀ s (t d : Fin 16) v, CanIssue s → Within [.tile t.val, .tile d.val, .v v.val] s →
    let rows (f : Fin 32 → Row) : State := (past true s).modW fun w => w.wrRows d (laneSet s) f
    exec (.accZero d 0) s = .next (rows fun l => { s.w.tiles[d].rows[l] with cells := Lanes.all 0 }) ∧
    exec (.accZero d 1) s = .next (rows fun _ => ⟨Lanes.all 0, 0xFF800000, 0⟩) ∧
    exec (.accMov d t 0) s = .next (rows fun l => { s.w.tiles[d].rows[l] with cells := s.w.tiles[t].rows[l].cells }) ∧
    exec (.accMov d t 1) s = .next (rows fun l => s.w.tiles[t].rows[l]) ∧
    (let rd (c : Fin 128) (f : Fin 32 → Word) : Prop :=
       exec (.accRd v t c) s = .next ((past true s).modW fun w => w.wrV v (laneSet s) f)
     (∀ c : Fin 32, rd (c.castLE (by decide)) fun l => s.w.tiles[t].rows[l].cells[c]) ∧ rd 32 (fun l => s.w.tiles[t].rows[l].max) ∧
     rd 33 (fun l => s.w.tiles[t].rows[l].sum) ∧ rd 34 (fun _ => s.w.tiles[t].header.setWidth 32) ∧
     rd 35 (fun _ => (s.w.tiles[t].header >>> 32).setWidth 32)) ∧
    (∀ c : Fin 32, exec (.accWr d v (c.castLE (by decide))) s =
      .next (rows fun l => { s.w.tiles[d].rows[l] with cells := s.w.tiles[d].rows[l].cells.set c (s.w.rdV v l) })) ∧
    exec (.accWr d v 32) s = .next (rows fun l => { s.w.tiles[d].rows[l] with max := s.w.rdV v l }) ∧
    exec (.accWr d v 33) s = .next (rows fun l => { s.w.tiles[d].rows[l] with sum := s.w.rdV v l }) ∧
    ∀ l, lowest (laneSet s) = some l → s.inHandler = true →
      exec (.accWr d v 34) s = .next ((past true s).modW fun w => w.wrHeader d (headerKept (s.w.tiles[d].header.extractLsb' 32 32 ++ s.w.rdV v l))) ∧
      exec (.accWr d v 35) s = .next ((past true s).modW fun w => w.wrHeader d (headerKept (s.w.rdV v l ++ s.w.tiles[d].header.extractLsb' 0 32)))

/-- R223 to R226: epi.st places the converted rows of the enabled lanes in an entry of the core and leaves memory alone; the rows of the entry are
stored whole afterwards, and it is freed. -/
def Sys2Proof.Claims.TileStores : Prop :=
  (∀ s (pa : Fin 32 → Nat) (f : Fin 7) t a b, CanIssue s → AtRest s → laneSet s ≠ 0 → Within [.tile t.val, .v a.val] s →
    ((s.groups.filter fun g => g.core == s.grp.core).map fun g => g.epilogues.length).sum < 8 →
    (∀ l, bit (laneSet s) l = true → Mapped true (32 * outputSize f.val) (globalAddr s a b l) (pa l) s) →
    exec (.epiSt (f.castLE (by decide)) t a b) s = .next ((past true s).modG fun g => { g with epilogues := [
      { rows := Lanes.ofFn fun l => if bit (laneSet s) l then laneList.flatMap fun j => outputBytes f.val s.w.tiles[t].rows[l].cells[j] else []
        addrs := Lanes.ofFn (globalAddr s a b), phys := perLane (laneSet s) pa, nc := 0, left := laneSet s, wave := s.w.uid, tile := t.val
        form := f.val, pc := at_ s, parked := 0 }] })) ∧
  ∀ s (e : Epilogue) n, s.stores = [] → AtRest { s with grp := { s.grp with epilogues := [] } } → s.provs = [] → s.grp.epilogues = [e] →
    (s.ctx s.grp.task.ctx).shadows = [] → e.parked = 0 → e.nc = 0 → (n = 32 ∨ n = 64 ∨ n = 128) →
    (∀ l, bit e.left l = true → e.rows[l].length = n ∧ e.phys[l] % n = 0 ∧ e.phys[l] < 2 ^ 48) →
    Writes (.epilogueRowStore 0) s { s.modG fun g => { g with epilogues := [] } with
      mem := storedBy s.mem (lanesOf e.left) (fun l => e.phys[l]) fun l => e.rows[l] }

/-- R227 to R230 and R255: in a group with CLUS 0 a merge completes at once on the group's own tile, kept as it is by the sums and weighed against its
own maximum by the softmax merge; another ROOT faults. With lookahead 0 the results stand after the instruction. topk writes the mask of the k best
columns over the rows of the run, and so does topk.c here. -/
def Obligations.MergesAndSelections : Prop :=
  ∀ s (d : Fin 128) (t : Fin 16) (k : Fin 32) (l : Fin 16), CanIssue s → Within [.tile t.val] s →
    let counted : State := (past false s).modG fun g => { g with merges := g.merges + 1 }
    let chosen : State := (past false s).modG fun g => { g with picks := g.picks + 1 }
    (AloneAtMerge s → Outside s → ∀ (o : Fin 2) (root : Fin 16),
      let own := s.w.tiles[t]
      let here : Bool := o == 0 || root.val == s.grp.core % 12
      let result (rows : Lanes Row) : State := answered l.val [.tile t.val] [.rows t (~~~0#32) rows] s counted
      let soft (r : Row) : Row :=
        let w : Word := if r.max = 0xFF800000 then 0 else 0x3F800000
        { cells := Lanes.ofFn fun j => fmul .nearest w r.cells[j], max := r.max, sum := fmul .nearest w r.sum }
      (here = true → exec (.cmergeSoft root o t l) s = .next (result (Lanes.ofFn fun i => soft own.rows[i])) ∧
        exec (.cmergeSum root o t l) s = .next (result own.rows) ∧ exec (.cmergeIsum root o t l) s = .next (result own.rows)) ∧
      (here = false → ∀ i ∈ [Instr.cmergeSoft root o t l, .cmergeSum root o t l, .cmergeIsum root o t l],
        (l ≠ 0 → exec i s = .next ((counted.modW fun w => { w with pending := w.pending ++ [
          { id := s.nextUid, issue := s.iss.id, pc := at_ s, lanes := s.iss.run, enabled := s.iss.run, issued := Lanes.all 0, look := l.val
            dests := [.tile t.val], writes := [], faults := (lanesOf s.iss.run).map fun i => ⟨i, 0x26, at_ s⟩, ordered := false, load := false
            reach := [], space := 0, stores := false, restart := false, on := .time }] }).fresh)) ∧
        (l = 0 → ∃ u, exec i s = .next u ∧ u.w.tiles = s.w.tiles ∧
          ∀ j, bit s.iss.run j = true → u.w.st[j] = .parked ∧ u.w.recs[j].cause = 0x26 ∧ u.w.recs[j].pc = at_ s))) ∧
    (Settled (.tile t.val) (fun _ => True) s →
      let mask := bestMask s.w.tiles[t] s.iss.run (k.val + 1)
      exec (.topk d k t l) s = .next (delivered l.val [.s d.val] [.s d mask] s.iss.run false s (past false s)) ∧
      (AloneAtMerge s → Outside s → exec (.topkC d k t l) s = .next (answered l.val [.s d.val] [.s d mask] s chosen)))

end

namespace Sys2Proof.Claims
open Sys2Proof Sys2Proof.Machine

/-- No instruction pending for any lane has one of the registers as a destination. -/
def SettledAll (rs : List Reg) (s : State) : Prop := ∀ r ∈ rs, Settled r (fun _ => True) s

/-- The walker's port of the core holds the header d of a handle's sequence and, as c, the entry of its block, which lies within the counts, is resident and is no
reference (R399, R400, R403). That each core has a port of its own is the model's choice (log entry 75). -/
def Resident (s : State) (h : Handle) (d : CombHeader) (c : CombLine) : Prop :=
  ∃ a b, combFind s s.grp.core s.grp.task.ctx h.seq none 0 = some a ∧ combFind s s.grp.core s.grp.task.ctx h.seq none 1 = some b ∧
    d = headerOf a.val.toNat b.val.toNat ∧ h.layer < d.layers ∧ h.head < d.heads ∧
    combFind s s.grp.core s.grp.task.ctx h.seq (some (h.pos / 32)) (2 + (h.layer * 256 + h.head) * 2 + h.kv) = some c ∧ c.val.toNat % 4 = 1

/-- The address of a position of a resident block (R400). -/
def positionAt (h : Handle) (d : CombHeader) (c : CombLine) : Nat := c.val.toNat / 2 ^ 8 % 2 ^ 44 * 256 + h.pos % 32 * (8 * d.e8)

/-- One position in one row of attn.qk (R251), with its score. -/
def onlineStep (j : Fin 32) (x : Word) (r : Row) : Row :=
  let m := fmaxOp r.max x
  let f : Word := if m = 0xFF800000 then 0 else fexp2Op (fsub .nearest r.max m)
  let e : Word := if m = 0xFF800000 then 0 else fexp2Op (fsub .nearest x m)
  { cells := r.cells.set j x, max := m, sum := ffma .nearest r.sum f e }

/-- The positions from one on, in ascending order. -/
def positions (first n : Nat) : List (Fin 32) := laneList.filter fun j => first ≤ j.val ∧ j.val < n

/-- A group register as an L-MEM field names it. -/
def sField (b : Fin 32) : Fin 128 := b.castLE (by decide)
def dField (h : Fin 64) : Fin 128 := ⟨2 * h.val, by omega⟩

/-- What R250 asks of the query range: reserved, of the sequence's format, unscaled, its chunks within LEN. -/
def QueryRange (r : DWord) (d : CombHeader) : Prop :=
  rLen r ≠ 0 ∧ rFmt r = d.fmt ∧ rScale r = 0 ∧ ∀ c < d.dh / 32, c * rBlk r + units (rFmt r) ≤ rLen r

/-- NEXTPOS of a tile that resumes, else 0 (R251, R252). -/
def startOf (t : Tile) (kind n : Nat) : Nat :=
  if fld t.header 24 1 = 1 ∧ fld t.header 25 1 = kind ∧ fld t.header 32 24 = n then fld t.header 0 24 else 0

/-- The header that a completed attention instruction leaves: ACTIVE and NEXTPOS 0, KIND and SPAN its own. -/
def doneHeader (kind n : Nat) : DWord := BitVec.ofNat 64 (kind * 2 ^ 25 + n * 2 ^ 32)

end Sys2Proof.Claims

section
open Sys2Proof Sys2Proof.Machine Sys2Proof.Claims

/-- R247 to R249: with their blocks in the walker's cache, comb.ld delivers the little-endian word of each enabled lane's eighth, and comb.st stores
one (into V, or into a block with no summary). comb.inv releases the wave and drops the walker's lines of its scope (R403). That they take effect in
the step of their issue is the model's choice (log entry 12). That the walker reads at the home slices, at physical addresses, is the model's reading
(log entries 17 and 89). -/
def Obligations.CombAccesses : Prop :=
  (∀ s v a b (k : Fin 16) (d : Fin 32 → CombHeader) (c : Fin 32 → CombLine), CanIssue s → AtRest s → s.provs = [] → CleanL1 s → laneSet s ≠ 0 →
    Within [.v v.val, .v a.val, .v (a.val + 1)] s → SettledAll [.v v.val, .v a.val, .v (a.val + 1), .s b.val] s →
    let h (l : Fin 32) : Handle := handleOf (s.w.rdVV a l)
    let j := (s.rdS (sField b)).toNat
    let pa (l : Fin 32) : Nat := positionAt (h l) (d l) (c l) + (h l).egrp * (d l).e8 + 4 * j
    let n (l : Fin 32) : Nat := min 4 ((d l).e8 - 4 * j)
    (∀ l, bit (laneSet s) l = true → Resident s (h l) (d l) (c l) ∧ 4 * j < (d l).e8 ∧ pa l + 4 ≤ 2 ^ 48) →
    Reads (.combLd v a b k) s (deliveredAs ⟨true, false, 3⟩ k.val [.v v.val]
      [.v v (laneSet s) (perLane (laneSet s) fun l => BitVec.ofNat 32 (s.num (pa l) (n l)))] (laneSet s) true s (past true s)) ∧
    ((∀ l, bit (laneSet s) l = true → (h l).kv = 1 ∨ (c l).sums = 0) → Apart pa s →
      Writes (.combSt v a b) s { past true s with
        mem := storedBy s.mem (lanesOf (laneSet s)) pa fun l => leBytes (n l) (s.w.rdV v l).toNat })) ∧
  ∀ s h, CanIssue s → s.grp.epilogues = [] → (∀ p ∈ s.w.pending, p.ordered = false) →
    let x := handleOf (s.rdSS (dField h))
    let key (kv : Nat) : Nat := 2 + (x.layer * 256 + x.head) * 2 + kv
    let left (stays : CombLine → Bool) : State := { past false s with
      provs := s.provs.filter fun c => c.wave != s.w.uid, combs := s.combs.filter stays }
    exec (.combInv h 0) s = .next (left fun c => !decide (c.ctx = s.grp.task.ctx ∧ c.seq = x.seq ∧ c.block = some (x.pos / 32) ∧ (c.key = key 0 ∨ c.key = key 1))) ∧
    exec (.combInv h 1) s = .next (left fun c => !decide (c.ctx = s.grp.task.ctx ∧ c.seq = x.seq)) ∧
    exec (.combInv h 2) s = .next (left fun c => !decide (c.ctx = s.grp.task.ctx))

/-- R250 to R252: attention over positions whose blocks the walker holds. Every row of the run goes through the positions from NEXTPOS on as the
online softmax of R251, or adds the weighted values of R252, and the header is left with ACTIVE and NEXTPOS 0. -/
def Sys2Proof.Claims.Attention : Prop :=
  ∀ s (hd : Fin 64) (nr : Fin 32) (n : Nat) (d : CombHeader) (c : Fin 32 → CombLine), CanIssue s → AtRest s → s.provs = [] → CleanL1 s →
    s.grp.obufPoison = [] → 0 < n → n ≤ 32 → (s.rdS (sField nr)).toNat = n →
    let h := handleOf (s.rdSS (dField hd))
    let at_ (j : Fin 32) : Handle := { h with pos := (h.pos + j.val) % 2 ^ 24 }
    let pa (j : Fin 32) : Nat := positionAt (at_ j) d (c j)
    let line (j : Fin 32) : Nat := s.num (pa j) (8 * d.e8)
    (∀ j : Fin 32, j.val < n → Resident s (at_ j) d (c j) ∧ pa j + 8 * d.e8 ≤ 2 ^ 48) →
    let regs : List Reg := [.s (2 * hd.val), .s (2 * hd.val + 1), .s nr.val]
    (∀ t q (k : Fin 16), h.kv = 0 → h.egrp = 0 → Within [.tile t.val] s → SettledAll (regs ++ [.tile t.val]) s → QueryRange s.grp.ob[q] d →
      let tile := s.w.tiles[t]
      startOf tile 0 n ≤ n →
      let row (i : Fin 32) : Row :=
        let z := (positions (startOf tile 0 n) n).foldl (fun r j => onlineStep j (score (queryChunks s.grp s.grp.ob[q] d.dh i) d.dh d (line j)) r)
          tile.rows[i]
        { z with cells := Lanes.ofFn fun j => if n ≤ j.val ∨ z.max = 0xFF800000 then 0 else fexp2Op (fsub .nearest z.cells[j] z.max) }
      Reads (.attnQk hd t q nr k) s (deliveredAs ⟨false, false, 3⟩ k.val [.tile t.val]
        [.rows t s.iss.run (Lanes.ofFn fun i => if bit s.iss.run i then row i else tile.rows[i]), .header t (doneHeader 0 n)] s.iss.run true s
        (past false s))) ∧
    ∀ (o p : Fin 16) (k : Fin 16), h.kv = 1 → Within [.tile o.val, .tile p.val] s → SettledAll (regs ++ [.tile o.val, .tile p.val]) s →
      let old := s.w.tiles[o]
      let weight := s.w.tiles[p]
      let resumed : Bool := decide (fld old.header 24 1 = 1 ∧ fld old.header 25 1 = 1 ∧ fld old.header 32 24 = n)
      startOf old 1 n ≤ n →
      let channel (i : Fin 32) (f : Fin 32 → Word → Word) (r : Row) : Row :=
        { r with cells := Lanes.ofFn fun x => if x.val < d.dh / 8 then f x r.cells[x] else r.cells[x] }
      let row (i : Fin 32) : Row :=
        let f : Word := if weight.rows[i].max = 0xFF800000 then 0 else fexp2Op (fsub .nearest old.rows[i].max weight.rows[i].max)
        let first : Row := if resumed then old.rows[i]
          else { channel i (fun _ z => fmul .nearest z f) old.rows[i] with max := weight.rows[i].max, sum := weight.rows[i].sum }
        (positions (startOf old 1 n) n).foldl (fun r j => channel i (fun x z =>
          ffma .nearest weight.rows[i].cells[j] (channelCode d (line j) (h.egrp * (d.dh / 8) + x.val)) z) r) first
      Reads (.attnPv hd o p nr k) s (deliveredAs ⟨false, false, 3⟩ k.val [.tile o.val]
        [.rows o s.iss.run (Lanes.ofFn fun i => if bit s.iss.run i then row i else old.rows[i]), .header o (doneHeader 1 n)] s.iss.run true s
        (past false s))

/-- R250, R253 and R254: comb.sum writes the bound of each block that has a valid summary and minus infinity beyond the blocks, and keeps the side
registers and the header; N of 0 changes nothing, and an N above 32 is an attention-operand fault. -/
def Sys2Proof.Claims.BlockBounds : Prop :=
  ∀ s (hd : Fin 64) (t : Fin 16) (q : Fin 8) (nr : Fin 32) (k : Fin 16) (d : CombHeader) (c : Fin 32 → CombLine), CanIssue s → AtRest s → s.provs = [] → CleanL1 s →
    s.grp.obufPoison = [] → Within [.tile t.val] s → SettledAll [.s (2 * hd.val), .s (2 * hd.val + 1), .s nr.val, .tile t.val] s →
    let h := handleOf (s.rdSS (dField hd))
    let n := (s.rdS (sField nr)).toNat
    let at_ (b : Fin 32) : Handle := { h with pos := (h.pos + 32 * b.val) % 2 ^ 24 }
    h.kv = 0 → h.egrp = 0 → h.pos % 32 = 0 → QueryRange s.grp.ob[q] d → (∀ b : Fin 32, b.val < max 1 n → Resident s (at_ b) d (c b)) →
    (n = 0 → exec (.combSum hd t q nr k) s = .next (past false s)) ∧
    (32 < n → exec (.combSum hd t q nr k) s = .next (faultsAt true s.iss.run 0x28 (fun _ => s.iss.pc.setWidth 64) s.iss.run s (past false s))) ∧
    (0 < n → n ≤ 32 → (∀ b : Fin 32, b.val < n → (c b).sums ≠ 0 ∧ (c b).val.getLsbD 2 = true ∧
        (c b).sums + 512 * 8 * d.dh ≤ 2 ^ 48) →
      let table (b : Fin 32) : Nat := (c b).sums + (at_ b).pos / 32 % 512 * d.dh * 8
      let words (a : Nat) : List Word := (List.range d.dh).map fun x => BitVec.ofNat 32 (s.num (a + 4 * x) 4)
      let bound (i b : Fin 32) : Word :=
        boundOf (queryChunks s.grp s.grp.ob[q] d.dh i).flatten (some (words (table b), words (table b + 4 * d.dh)))
      Reads (.combSum hd t q nr k) s (deliveredAs ⟨false, false, 3⟩ k.val [.tile t.val] [.rows t s.iss.run (Lanes.ofFn fun i =>
        if bit s.iss.run i then { s.w.tiles[t].rows[i] with cells := Lanes.ofFn fun b => if b.val < n then bound i b else 0xFF800000 }
        else s.w.tiles[t].rows[i])] s.iss.run true s (past false s)))

end

namespace Sys2Proof.Claims
open Sys2Proof Sys2Proof.Machine

/-- A layout descriptor of one row of n bytes (R239): INNER n, DIMS 1, every count 1, every stride 0. -/
def oneRow (n : Nat) : Nat := n + 2 ^ 32 + (1 + 2 ^ 16 + 2 ^ 32 + 2 ^ 48) * 2 ^ 64

/-- The shadows of the issuing group's context. -/
def shadowsOf (s : State) : List Shadow := (s.ctx s.grp.task.ctx).shadows

/-- The state with other shadows in that context. -/
def withShadows (f : List Shadow → List Shadow) (s : State) : State :=
  s.modCtx s.grp.task.ctx fun c => { c with shadows := f c.shadows }

/-- No walk of the alias engine of the wave has faulted and waits (R389). -/
def NoAliasWalk (s : State) : Prop := s.w.walked = none ∧ ∀ e ∈ s.waits, ¬(e.engine = 3 ∧ e.item = s.w.uid)

/-- Two ranges of addresses that do not meet. -/
def Apart2 (a n b m : Nat) : Prop := a + n ≤ b ∨ b + m ≤ a

/-- The live entries of the issuing group's context. -/
def liveEntries (s : State) : Nat := s.aliases.countP fun e => e.ctx == s.grp.task.ctx

/-- The entries of the slice that homes an address: fewer than its table holds, and the number of a free one (R365). -/
def entriesOf (pd : Nat) (s : State) : List Alias := s.aliases.filter fun e => sliceOf e.dst == sliceOf pd

/-- A buffer without its shadow bytes. -/
def emptied (base : Nat) (b : Shadow) : Shadow := if b.base = base then { b with bytes := [] } else b

end Sys2Proof.Claims

section
open Sys2Proof Sys2Proof.Machine Sys2Proof.Claims

/-- R238 to R243: a copy within one line, to bytes apart from its source and from every live entry, is recorded as one alias entry of the context and changes
no byte of memory; with the context's quota used up it is performed at once. relayout does the same for the rows of its descriptor. -/
def Sys2Proof.Claims.CopiesByAlias : Prop :=
  ∀ s (rd rs : Fin 128) (l : Fin 32) pd ps n, CanIssue s → AtRest { s with aliases := [] } → s.provs = [] → NoAliasWalk s → 4 ≤ n → n % 4 = 0 →
    (∀ e ∈ s.aliases, Apart2 e.dst e.len pd n ∧ Apart2 e.src e.len pd n ∧ Apart2 e.dst e.len ps n) → (entriesOf pd s).length < 256 →
    let dst := s.rdSS rd
    let src := s.rdSS rs
    let engine : TlbUnit := .engine (s.grp.core / 144) 1
    MappedAt engine true 4 dst pd s → MappedAt engine false 4 src ps s → pd % 256 + n ≤ 256 → dst.toNat % 256 = pd % 256 →
    src.toNat % 2 ^ 19 + n ≤ 2 ^ 19 → src.toNat + n ≤ 2 ^ 56 → pd + n ≤ ps ∨ ps + n ≤ pd → ps + n ≤ 2 ^ 48 →
    let copied (i : Instr) : Prop := ∃ slot < 256, (∀ e ∈ entriesOf pd s, e.slot ≠ slot) ∧ Writes i s (
      if (s.ctx s.grp.task.ctx).quota ≤ liveEntries s then { past false s with mem := s.mem.writes pd (s.bytes ps n) }
      else { past false s with aliases := s.aliases ++ [⟨slot, false, pd, n, ps, s.grp.task.ctx, 0⟩] })
    let regs (r : Fin 128) : List Reg := [.s r.val, .s (r.val + 1)]
    (SettledAll (regs rd ++ regs rs ++ [.s l.val]) s → (s.rdS (sField l)).toNat = n → copied (.cpy rd rs l)) ∧
    (SettledAll (regs rd ++ regs rs ++ [.s l.val, .s (l.val + 1)]) s → CleanL1 s → n % 32 = 0 → dst.toNat % 32 = 0 → src.toNat % 32 = 0 →
      ∀ pt, Mapped false 64 (s.rdSS (sField l)) pt s → s.num pt 64 = oneRow n → (∀ e ∈ s.aliases, Apart2 e.dst e.len pt 64) →
        copied (.relayout rd rs l))

/-- R238 to R243: cpy and relayout complete for every length and layout whose operands pass the checks of R238, with no lane parked and the group's
registers as they were; cpy with LEN 0 does nothing. -/
def Sys2Proof.Claims.CopiesComplete : Prop :=
  ∀ s (rd rs : Fin 128) (l : Fin 32) (frame : Nat → Nat), CanIssue s → AtRest s → s.provs = [] → NoAliasWalk s →
    let dst := (s.rdSS rd).toNat
    let src := (s.rdSS rs).toNat
    let engine : TlbUnit := .engine (s.grp.core / 144) 1
    let regs (r : Fin 128) : List Reg := [.s r.val, .s (r.val + 1)]
    let completes (i : Instr) : Prop := ∃ t, exec i s = .next t ∧ t.w = (past false s).w ∧ t.grp.s = s.grp.s ∧ t.rest = s.rest ∧ t.ctxs = s.ctxs
    (∀ n, SettledAll (regs rd ++ regs rs ++ [.s l.val]) s → (s.rdS (sField l)).toNat = n → dst % 4 = 0 → src % 4 = 0 → n % 4 = 0 → dst < 2 ^ 56 →
      src < 2 ^ 56 → dst + n ≤ 2 ^ 56 → src + n ≤ 2 ^ 56 → Paged engine true dst n frame s → Paged engine false src n frame s →
      completes (.cpy rd rs l) ∧ (n = 0 → exec (.cpy rd rs l) s = .next (past false s))) ∧
    ∀ pt (x : Layout), SettledAll (regs rd ++ regs rs ++ [.s l.val, .s (l.val + 1)]) s → CleanL1 s → Mapped false 64 (s.rdSS (sField l)) pt s →
      layoutOf (s.num pt 64) = some x → dst % 32 = 0 → src % 32 = 0 → dst < 2 ^ 56 → src < 2 ^ 56 → dst + x.size ≤ 2 ^ 56 → 0 ≤ (src : Int) + x.low →
      (src : Int) + x.high ≤ 2 ^ 56 → Paged engine true dst x.size frame s →
      Paged engine false ((src : Int) + x.low).toNat (x.high - x.low).toNat frame s → completes (.relayout rd rs l)

/-- R244 to R246: pub.open declares a buffer with no shadow bytes, pub makes every shadow byte visible and empties the shadow, pub.drop empties it,
pub.close ends the buffer; a pointer that names no buffer of the context faults. A pub is stated once no engine of the device has a command of the
group left. -/
def Sys2Proof.Claims.ShadowedBuffers : Prop :=
  ∀ s (b l : Fin 128), CanIssue s → AtRest s → s.provs = [] → (∀ p ∈ s.w.pending, p.ordered = false) →
    let p := (s.rdSS b).toNat
    let n := (s.rdS l).toNat
    (p % 256 = 0 → n % 256 = 0 → 0 < n → n ≤ 2 ^ 32 - 256 → p + n ≤ 2 ^ 56 → (shadowsOf s).length < 64 →
      (∀ c ∈ shadowsOf s, c.base + c.len ≤ p ∨ p + n ≤ c.base) → (∀ q, p ≤ q → q < p + n → ∃ e, cached s q = some e ∧ e.nc = false) →
      SettledAll [.s b.val, .s (b.val + 1), .s l.val] s →
      exec (.pubOpen b l) s = .next (withShadows (fun c => c ++ [⟨p, n, []⟩]) (past false s))) ∧
    (SettledAll [.s b.val, .s (b.val + 1)] s → p < 2 ^ 56 →
      ((∃ c ∈ shadowsOf s, c.base = p) →
        exec (.pubDrop b) s = .next (withShadows (List.map (emptied p)) (past false s)) ∧
        exec (.pubClose b) s = .next (withShadows (List.filter fun c => c.base != p) (past false s))) ∧
      (∀ c (frame : Nat → Nat), (shadowsOf s).find? (fun c => c.base == p) = some c → c.base + c.len ≤ 2 ^ 56 →
        Paged (.core s.grp.core) true c.base c.len frame s → c.bytes.Pairwise (fun x y => x.1 < y.1) →
        (∀ e ∈ c.bytes, c.base ≤ e.1 ∧ e.1 < c.base + c.len) →
        (∀ w ∈ s.grp.all, (∀ g ∈ s.gathers, g.wave ≠ w.uid) ∧ ∀ f ∈ s.fabrics, f.wave ≠ w.uid) →
        Writes (.pub b) s { withShadows (List.map (emptied p)) (past false s) with
          mem := c.bytes.foldl (fun m e => m.write (frame (e.1 / 2 ^ 19) * 2 ^ 19 + e.1 % 2 ^ 19) e.2) s.mem }) ∧
      ((∀ c ∈ shadowsOf s, c.base ≠ p) → ∀ i ∈ [Instr.pub b, .pubDrop b, .pubClose b],
        exec i s = .next (faultsAt true s.iss.run 0x27 (fun _ => s.iss.pc.setWidth 64) s.iss.run s (past false s))))

end

namespace Sys2Proof.Claims
open Sys2Proof Sys2Proof.Machine

/-- The issuing wave is on a core, has not ended, and no other wave has its identity. -/
def OnlyWave (s : State) : Prop :=
  s.grp.live = true ∧ s.w.ended = false ∧ (∀ w ∈ s.grp.waves, w.uid ≠ s.w.uid) ∧ (∀ g ∈ s.rest, ∀ w ∈ g.all, w.uid ≠ s.w.uid) ∧
    ∀ v ∈ s.die0.saved ++ s.die1.saved, ∀ w ∈ v.group.all, w.uid ≠ s.w.uid

/-- A queue register of the issuing wave changed. -/
def withQueue (q : Fin 16) (f : Queue → Queue) (s : State) : State := s.modW fun w => { w with q := w.q.set q (f w.q[q]) }

/-- A completion word held (R234). -/
def completed (x : Word) (r : Queue) : Queue := { r with done := r.done ++ [x] }

/-- The gather commands that words make, four to each (R234, R257). -/
def gathersOf (s : State) (q : Fin 16) (ws : List Word) : List Gather :=
  (List.range (ws.length / 4)).map fun i =>
    let pair (k : Nat) : DWord := ws.getD (4 * i + k + 1) 0 ++ ws.getD (4 * i + k) 0
    { ctx := s.grp.task.ctx, wave := s.w.uid, q := q.val, binding := s.w.q[q].binding, core := s.grp.core, src := pair 0, dst := pair 2 }

/-- Words pushed to a queue register that is bound to the gather port. -/
def pushed (q : Fin 16) (ws : List Word) (s after : State) : State :=
  let all := s.w.q[q].partials ++ ws
  withQueue q (fun r => { r with partials := all.drop (4 * (all.length / 4)) }) { after with gathers := s.gathers ++ gathersOf s q all }

/-- The gather port has a free place for each of n words in turn (R19): a push that finds all 32 places held waits. -/
def Room (q : Fin 16) (n : Nat) (s : State) : Prop :=
  n = 0 ∨ (s.gathers.countP fun g => g.core == s.grp.core) + (s.w.q[q].partials.length + n - 1) / 4 < 32

/-- A handle word moved by blocks (R41). -/
def moved (h : DWord) (n : Nat) : DWord :=
  h.extractLsb' 28 36 ++ (BitVec.ofNat 24 (fld h 4 24 + 32 * n)) ++ h.extractLsb' 0 4

/-- The SOURCE fields of a reference to a handle's block, with V and G (R400). -/
def reference (h : Handle) : Nat := h.seq * 2 ^ 44 + h.layer * 2 ^ 36 + h.head * 2 ^ 28 + h.pos / 32 * 2 ^ 9 + 3

/-- No push of the issue under way has begun. -/
def FirstPush (s : State) : Prop := s.w.pushed.1 ≠ s.iss.id

end Sys2Proof.Claims

section
open Sys2Proof Sys2Proof.Machine Sys2Proof.Claims

/-- R234 to R237: qbind binds a queue register and discards what it held, qstat reads its counts, qpop gives the enabled lanes the oldest words or
blocks, qpush sends their words to the gather port as commands; a push to an unbound register faults. -/
def Obligations.QueueRegisters : Prop :=
  ∀ s (q : Fin 16) (v : Fin 128) (k p : Fin 16), CanIssue s →
    let r := s.w.q[q]
    exec (.qbind p q) s = .next (withQueue q (fun r => ⟨p.val, [], [], min 255 r.done.length, r.binding + 1⟩) (past false s)) ∧
    exec (.qstat v q) s = .next ((past false s).wrS v
      (BitVec.ofNat 32 (r.done.length + r.partials.length * 2 ^ 8 + r.port * 2 ^ 16 + r.discard * 2 ^ 20))) ∧
    (Within [.v v.val] s → laneSet s ≠ 0 →
      let en := lanesOf (laneSet s)
      (r.port ≠ 0 → en.length ≤ r.done.length → exec (.qpop v q k) s = .next (delivered k.val [.v v.val]
        [.v v (laneSet s) (perLane (laneSet s) fun l => r.done.getD (en.idxOf l) 0)] (laneSet s) false s
        (withQueue q (fun r => { r with done := r.done.drop en.length }) (past true s)))) ∧
      (r.port ≠ 0 → r.done.length < en.length → exec (.qpop v q k) s = .next (s.modW fun w => { w with chosen := some s.iss })) ∧
      (SettledAll [.v v.val] s →
        (r.port = 1 → s.grp.task.repl = false → FirstPush s → r.partials.length < 4 → Room q en.length s → exec (.qpush v q) s = .next (pushed q (en.map (s.w.rdV v)) s (past true s))) ∧
        (r.port = 0 → exec (.qpush v q) s = .next (park (laneSet s) (fun l =>
          { cause := 0x1020, addr := at_ s, pc := at_ s, entry := ((past true s).w.pc[l]).setWidth 64, guard := (past true s).w.guard[l],
            guardAt := s.w.guard[l], enabled := true, passed := true }) (past true s)))))

/-- R256, R258 to R262: gather.comb pushes a command for each bit of its mask; fab.str, fab.a2a and fab.ring check their command block and push its
address, and the command is accepted with the block's 64 bytes. What a block must satisfy beyond its KIND and alignment, and that a moved POS wraps, are the
model's choices (log entries 21 and 10). -/
def Obligations.GatherAndFabricInstructions : Prop :=
  (∀ s (h : Fin 63) (m : Fin 32) (q : Fin 16), CanIssue s →
    let next : Fin 64 := ⟨h.val + 1, by omega⟩
    let bits := lanesOf (s.rdS (sField m))
    SettledAll [.s (2 * h.val), .s (2 * h.val + 1), .s (2 * h.val + 2), .s (2 * h.val + 3), .s m.val] s → s.w.q[q].port = 1 → s.grp.task.repl = false → FirstPush s →
    s.w.q[q].partials.length < 4 → Room q (4 * bits.length) s → exec (.gatherComb (h.castLE (by decide)) m q) s = .next (pushed q (bits.zipIdx.flatMap fun e =>
      let a := moved (s.rdSS (dField (h.castLE (by decide)))) e.1.val
      let b := moved (s.rdSS (dField next)) e.2
      [a.setWidth 32, a.extractLsb' 32 32, b.setWidth 32, b.extractLsb' 32 32]) s (past false s))) ∧
  ∀ s (c : Fin 64) (q : Fin 16) pa, CanIssue s → AtRest s → s.provs = [] → CleanL1 s → SettledAll [.s (2 * c.val), .s (2 * c.val + 1)] s →
    s.fabrics = [] → s.fabIn = [] → s.ringIn = [] → s.w.q[q].port = 2 → FirstPush s → s.w.q[q].partials = [] → Mapped false 64 (s.rdSS (dField c)) pa s →
    ∀ e ∈ [((.fabStr, 1) : (Fin 64 → Fin 16 → Instr) × Nat), (.fabA2a, 2), (.fabRing, 3)],
      (blockOk e.2 (s.mem.bytes pa 64) = true → ∃ t f, exec (e.1 c q) s = .next t ∧ t.fabrics = [f] ∧ f.block = s.mem.bytes pa 64 ∧
        f.addr = s.rdSS (dField c) ∧ f.ctx = s.grp.task.ctx ∧ f.wave = s.w.uid ∧ f.q = q.val ∧ f.core = s.grp.core ∧
        f.binding = s.w.q[q].binding ∧ t.w.q[q].partials = []) ∧
      (blockOk e.2 (s.mem.bytes pa 64) = false → Reads (e.1 c q) s (faultsAt true s.iss.run 0x21 (fun _ => at_ s) s.iss.run s (past false s)))

/-- R257, R259 and R400: a gather command with a misaligned handle is refused; one between resident blocks makes both of its destination's entries
references, and its completion word is the destination's block number. A fabric command that is done completes with its tag and status, whatever status
the event brings, which is the model's choice (log entry 22). -/
def Sys2Proof.Claims.QueueCompletions : Prop :=
  ∀ s (q : Fin 16), MemOk s → OnlyWave s → s.w.q[q].done.length < 64 →
    (∀ g, s.gathers = [g] → g.wave = s.w.uid → g.q = q.val → g.binding = s.w.q[q].binding → g.ctx = s.grp.task.ctx → g.core = s.grp.core →
      let src := handleOf g.src
      let dst := handleOf g.dst
      let block := dst.pos / 32 % 64
      (src.pos % 32 ≠ 0 ∨ dst.pos % 32 ≠ 0 ∨ src.kv ≠ 0 ∨ dst.kv ≠ 0 ∨ src.egrp ≠ 0 ∨ dst.egrp ≠ 0 →
        exec (.gatherCommand 0) s = .next { withQueue q (completed (BitVec.ofNat 32 (block + 2 ^ 30))) s with gathers := [] }) ∧
      (src.pos % 32 = 0 → dst.pos % 32 = 0 → src.kv = 0 → dst.kv = 0 → src.egrp = 0 → dst.egrp = 0 →
        s.aliases = [] → s.bands = [] → s.provs = [] → s.regions = [] → s.fanOuts = [] → s.die0.migrations = [] → s.die1.migrations = [] → Served s →
        s.frameTable ≤ 2 ^ 48 → ∀ hd hs (a b c d : CombLine), Resident s src hs a → Resident s dst hd b → Resident s { src with kv := 1 } hs c → Resident s { dst with kv := 1 } hd d →
          Apart2 b.at_ 8 d.at_ 8 → b.at_ + 8 ≤ s.frameTable → d.at_ + 8 ≤ s.frameTable →
          ∃ t, exec (.gatherCommand 0) s = .next t ∧ t.gathers = [] ∧ t.num b.at_ 8 = reference src ∧ t.num d.at_ 8 = reference src ∧
            t.w.q[q] = completed (BitVec.ofNat 32 block) s.w.q[q] ∧
            (∀ e ∈ t.combs, e ≠ b ∧ e ≠ d) ∧ ∀ x, x + 1 ≤ s.frameTable → Apart2 x 1 b.at_ 8 → Apart2 x 1 d.at_ 8 → t.mem.read x = s.mem.read x)) ∧
    ∀ f st, s.fabrics = [f] → s.fabIn = [] → (∀ r ∈ s.remotes, r.write = true → r.wave ≠ f.id) → f.wave = s.w.uid → f.q = q.val → f.binding = s.w.q[q].binding → f.sent = true → f.got = true → f.acks = [] →
      exec (.fabricCommandCompletion 0 st) s =
        .next { withQueue q (completed (BitVec.ofNat 32 (leNat ((f.block.drop 1).take 1) * 256 + f.status))) s with fabrics := [] }

/-- R180, R259, R387 to R389 and R432: fabric rows that arrive are written in the exported context and acknowledged, an acknowledgement takes its message
off its command, a copy moves its bytes into scratch and sets its tag's bit, a served walk is tried again, and an owed fault record is written. -/
def Sys2Proof.Claims.EngineEvents : Prop :=
  (∀ s link dst msg (bs : List Byte) (e : TlbEntry), s.stores = [] → AtRest s → s.provs = [] → s.fabrics = [] → s.fabIn = [] →
    s.contstat.toNat.testBit (link + 2) = false → 0 < bs.length → dst % 256 + bs.length ≤ 256 → dst < 2 ^ 56 →
    let ctx := (s.links.getD link Link.blank).export_
    (s.ctx ctx).shadows = [] → (s.tlb.find? fun x => x.unit == .engine 0 2 && x.ctx == ctx && x.page ≤ dst && dst < x.page + x.size) = some e →
    e.w = true → e.pa + (dst - e.page) + 256 ≤ 2 ^ 48 →
    ∃ ks out, Writes (.fabricData link dst msg 0 bs) s { s with links := ks, out := out, mem := s.mem.writes (e.pa + (dst - e.page)) bs }) ∧
  (∀ s link msg, s.stores = [] → ∃ ls, exec (.fabricAcknowledgement link msg) s = .next { s with
    links := ls, fabrics := s.fabrics.map fun f => if (link, msg / 8) ∈ f.acks then
      { f with acks := f.acks.filter fun a => a != (link, msg / 8), status := if f.status = 0 then msg % 8 else f.status } else f }) ∧
  (∀ s (c : Copy) (pa : Nat), s.stores = [] → AtRest s → s.provs = [] → CleanL1 s → s.grp.scratchPoison = [] → s.grp.copies = [c] → c.waiting = false → c.left % 4 = 0 →
    (∀ k < c.left / 4, Mapped false 4 (c.src + BitVec.ofNat 64 (4 * k)) (pa + 4 * k) s) →
    Reads (.copyCompletion 0) s ((s.modCore s.grp.core fun k => { k with tagmap := k.tagmap ||| BitVec.twoPow 64 c.tag }).modG fun g =>
      { g with copies := [], scratch := g.scratch.writes c.soff (s.mem.bytes pa c.left) })) ∧
  (∀ s slot addr, s.stores = [] → s.bands = [] → s.aliases = [] → s.waits = [⟨0, s.grp.uid, s.grp.task.ctx, slot, addr⟩] → (∀ g ∈ s.rest, g.uid ≠ s.grp.uid) →
    (∀ v ∈ s.die0.saved ++ s.die1.saved, v.group.uid ≠ s.grp.uid) →
    s.num ((s.ctx s.grp.task.ctx).fqbase.toNat + 16 * slot) 16 / 2 ^ 127 % 2 = 1 →
    exec (.engineWalkRetry 0) s = .next { s.modG (fun g => { g with copies := g.copies.map fun c =>
      if c.waiting = true ∧ c.src = addr then { c with waiting := false, walked := some (addr.toNat / 2 ^ 19) } else c }) with waits := [] }) ∧
  ∀ s (b : BatchPage), s.stores = [] → AtRest s → s.provs = [] → s.w.batch = [b] → b.kind < 9 →
    let c := s.ctx s.grp.task.ctx
    let no := if b.first then c.batch else s.w.batchNo
    c.fqbase ≠ 0 → c.fqbase.toNat + 16 * c.fqprod + 16 ≤ 2 ^ 48 → c.fqcount < 2 ^ (c.fqsize + 4) →
    Writes (.faultSlotFreed s.grp.task.ctx) s { (s.modW fun w => { w with batch := [], batchNo := no }).modCtx s.grp.task.ctx (fun c =>
      { c with fqprod := (c.fqprod + 1) % 2 ^ (c.fqsize + 4), fqcount := c.fqcount + 1, batch := if b.first then c.batch + 1 else c.batch }) with
        out := .msix 0 :: s.out
        mem := s.mem.writes (c.fqbase.toNat + 16 * c.fqprod)
          (leBytes 16 (b.addr.toNat + b.kind * 2 ^ 64 + no % 2 ^ 32 * 2 ^ 80 + (if b.first then 2 ^ 112 else 0) + 2 ^ 113)) }

end

namespace Sys2Proof.Claims
open Sys2Proof Sys2Proof.Machine

/-- n bytes at a virtual address lie within one coherent granule of device memory, at a physical address, that the L3 bank for it holds on the core's die
(R385). -/
def InPage (n va pa : Nat) (s : State) : Prop :=
  va + n ≤ 2 ^ 56 ∧ va % 2 ^ 19 + n ≤ 2 ^ 19 ∧ pa + n ≤ 2 ^ 48 ∧
    ∃ e, cachedAt (bankOf (s.grp.core / 144) va) s va = some e ∧ e.nc = false ∧ pa = e.pa + (va - e.page)

/-- A field of bytes, little-endian. -/
def at' (b : List Byte) (a n : Nat) : Nat := leNat ((b.drop a).take n)

/-- A descriptor that submit does not refuse as malformed (R269, R271), whatever its records: the fields of 32-bit words low and COUNT. -/
def Wellformed (b : List Byte) : Prop :=
  let low := at' b 0 4
  let level := low % 8
  1 ≤ level ∧ level ≤ 4 ∧ low / 8 % 4 = 0 ∧ low / 256 % 256 = 0 ∧ at' b 56 8 = 0 ∧ low / 2 ^ 27 = 0 ∧ at' b 28 4 = 0 ∧
    (level ≠ 1 → low / 32 % 2 = 0 ∧ low / 128 % 2 = 0 ∧ low / 2 ^ 16 % 2 ^ 11 = 0 ∧ at' b 4 4 ≠ 0) ∧ (level ≠ 4 → low / 64 % 2 = 0) ∧
    (level = 4 ↔ at' b 8 8 = 0) ∧
    (level = 1 → 1 ≤ at' b 24 4 ∧ at' b 24 4 ≤ 2 ^ 24 ∧ at' b 16 8 % 32 = 0 ∧ at' b 32 8 % 2 = 0 ∧ at' b 32 8 < 2 ^ 56) ∧
    (low / 64 % 2 = 1 → at' b 40 8 ≠ 0 ∧ at' b 48 8 ≠ 0)

/-- A record that the scheduler does not refuse (R272): reserved bits 0, CODE even and within 56 bits, CLUS 0. -/
def WellformedRecord (b : List Byte) : Prop := at' b 20 4 / 2 ^ 15 = 0 ∧ at' b 0 8 < 2 ^ 56 ∧ at' b 0 8 % 2 = 0 ∧ at' b 20 4 / 16 % 2 = 0

/-- UP runs at a higher level (R271). -/
def UpRuns (s : State) (level : Nat) (up : DWord) : Prop := ∃ u, ownedOf s s.grp.task.ctx up = some u ∧ u.running = true ∧ level < u.level

/-- A record as it stands ready: in the queue of its priority on die 0 or 1, where that queue has room (R325). -/
def Queued (s t : State) (d : Nat) (p : Fin 4) (r : Record) : Prop :=
  (s.die d).ready[p].length < 2 ^ 24 → (t.die d).ready[p] = (s.die d).ready[p] ++ [r]

/-- The fields of a record's 32 bytes (R32), of a bulk launch at an index. -/
def record (ctx : Nat) (launch : DWord) (index addr : Nat) (b : List Byte) : Record :=
  let w := at' b 20 4
  { addr := BitVec.ofNat 64 addr, ctx := ctx, launch := launch, index := index, code := BitVec.ofNat 64 (at' b 0 8), frame := BitVec.ofNat 64 (at' b 8 8)
    join := at' b 16 4, prio := w % 4, idem := decide (w / 4 % 2 = 1), repl := decide (w / 8 % 2 = 1), clus := decide (w / 16 % 2 = 1)
    waves := w / 32 % 32 + 1, lastLanes := w / 1024 % 32 + 1, parent := BitVec.ofNat 64 (at' b 24 8), latency := false, since := 0, head := 0 }

/-- A request that acquire takes (R277), for a group of w waves. -/
def ValidRequest (g : Group) (r : DWord) : Prop :=
  (∀ f ∈ [(0, 8), (8, 7), (15, 5), (20, 7), (32, 6)], fld g.allot f.1 f.2 ≤ fld r f.1 f.2) ∧ fld r 0 8 % 8 = 0 ∧ 16 ≤ fld r 0 8 ∧ fld r 0 8 ≤ 128 ∧
    4 ≤ fld r 8 7 ∧ fld r 8 7 ≤ 64 ∧ fld r 15 5 ≤ 16 ∧ 4 ≤ fld r 20 7 ∧ fld r 20 7 ≤ 64 ∧ fld r 32 6 ≤ 48 ∧ fld r 27 4 = 0 ∧ fld r 38 26 = 0 ∧
    fld r 0 8 * g.task.waves ≤ 4096 ∧ fld r 15 5 * g.task.waves ≤ 64

/-- A request as granted (R30, R278). -/
def full (r : DWord) : DWord := r ||| BitVec.twoPow 64 31

end Sys2Proof.Claims

section
open Sys2Proof Sys2Proof.Machine Sys2Proof.Claims

/-- R269 to R271: submit of a well-formed descriptor answers 0 and the scheduler owns it with STATE 1; a launch's records join their queues. A
malformed descriptor answers 2 and one whose UP does not run answers 3, and both change nothing else. The order of the checks is the model's reading
(log entry 33). -/
def Obligations.Submission : Prop :=
  ∀ s d p pa, CanIssue s → AtRest s → s.provs = [] → s.pokes = [] → (∀ p ∈ s.w.pending, p.ordered = false) → (s.ctx s.grp.task.ctx).state = .live →
    let answers (n : Word) : Prop := Reads (.submit d p) s ((past false s).wrS d n)
    let a := s.rdSS p
    let b := s.mem.bytes pa 64
    let ctx := s.grp.task.ctx
    let low := at' b 0 4
    let up := BitVec.ofNat 64 (at' b 8 8)
    (a.toNat % 64 ≠ 0 → a.toNat < 2 ^ 56 → exec (.submit d p) s = .next ((past false s).wrS d 2)) ∧
    (a.toNat % 64 = 0 → InPage 64 a.toNat pa s →
      (¬ Wellformed b → answers 2) ∧
      (Wellformed b → low % 8 = 2 ∨ low % 8 = 3 → ¬ UpRuns s (low % 8) up → answers 3) ∧
      (Wellformed b → low % 8 = 2 ∨ low % 8 = 3 → UpRuns s (low % 8) up →
        ∃ o, Writes (.submit d p) s { (past false s).wrS d 0 with
            mem := s.mem.writes pa (leBytes 4 (low + 8) ++ leBytes 4 (at' b 4 4))
            owned := (s.owned.filter fun q => !decide (q.ctx = ctx ∧ q.desc = a)) ++ [o] } ∧
          o.desc = a ∧ o.ctx = ctx ∧ o.level = low % 8 ∧ o.up = up ∧ o.running = true ∧ o.cancelled = false ∧ o.count = at' b 4 4) ∧
      ∀ pr (k : Kernel) (q : Fin 4), Wellformed b → low % 8 = 1 → at' b 24 4 = 1 → UpRuns s 1 up → latencyUnder s ctx up = false →
        InPage 32 (at' b 16 8) pr s →
        let r := s.mem.bytes pr 32
        WellformedRecord r → at' r 20 4 % 4 = q.val → at' r 16 4 = 0 → kernelOf s (s.grp.core / 144) ctx (BitVec.ofNat 64 (at' r 0 8)) = some k →
        ∃ t, exec (.submit d p) s = .next t ∧ t.rdS d = 0 ∧ Queued s t 0 q { record ctx a 0 (at' b 16 8) r with since := s.clock } ∧
          (∃ o, t.owned = (s.owned.filter fun q => !decide (q.ctx = ctx ∧ q.desc = a)) ++ [o] ∧ o.desc = a ∧ o.ctx = ctx ∧ o.level = 1 ∧ o.running = true ∧
            o.count = 1 ∧ o.handler = BitVec.ofNat 64 (at' b 32 8)) ∧
          t.num pa 4 = low % 128 + low / 256 * 256 + 8 ∧ t.num (pa + 4) 4 = 1)

/-- R272, R273 and R275: spawn of one record raises the launch's COUNT and enqueues the record, joindec takes 1 from the JOIN of a waiting record and
makes it ready at 0, and cancel marks a running descriptor; each has its fault. That the scheduler's writes reach memory where the page is mapped is
the model's reading (log entry 32). -/
def Obligations.SpawnJoinCancel : Prop :=
  ∀ s (ra rn : Fin 128) (o : Owned), CanIssue s → AtRest s → s.provs = [] → (∀ p ∈ s.w.pending, p.ordered = false) →
    let a := s.rdSS ra
    let ctx := s.grp.task.ctx
    let fault (c : Word) : State := faultsAt true s.iss.run c (fun _ => at_ s) s.iss.run s (past false s)
    (s.rdS rn = 0 → exec (.spawn ra rn) s = .next (past false s)) ∧
    (s.rdS rn = 1 → a.toNat % 32 = 0 → ownedOf s ctx s.grp.task.launch = some o → o.cancelled = false → latencyUnder s ctx s.grp.task.launch = false →
      ∀ pr (k : Kernel) (q : Fin 4), InPage 32 a.toNat pr s →
        let r := s.mem.bytes pr 32
        (¬ WellformedRecord r → Reads (.spawn ra rn) s (fault 0x29)) ∧
        (WellformedRecord r → at' r 20 4 % 4 = q.val → kernelOf s (s.grp.core / 144) ctx (BitVec.ofNat 64 (at' r 0 8)) = some k →
          ∃ t o', exec (.spawn ra rn) s = .next t ∧ ownedOf t ctx s.grp.task.launch = some o' ∧ o'.count = o.count + 1 ∧ o'.next = o.next + 1 ∧
            let rec_ := record ctx s.grp.task.launch o.next a.toNat r
            (rec_.join = 0 → Queued s t (o.next / 16 % 2) q { rec_ with since := s.clock }) ∧
            (rec_.join ≠ 0 → (t.die (o.next / 16 % 2)).waiting = (s.die (o.next / 16 % 2)).waiting ++ [rec_]))) ∧
    (a.toNat < 2 ^ 56 →
      ((∀ r ∈ s.die0.waiting ++ s.die1.waiting, ¬ (r.ctx = ctx ∧ r.addr = a ∧ r.join ≠ 0)) → exec (.joindec ra) s = .next (fault 0x2A)) ∧
      ∀ (r : Record) (q : Fin 4), s.die0.waiting = [r] → s.die1.waiting = [] → r.ctx = ctx → r.addr = a → r.latency = false → r.clus = false →
        r.index / 16 % 2 = 0 → r.prio = q.val →
        ∃ t, exec (.joindec ra) s = .next t ∧
          (r.join = 1 → s.die0.ready[q].length < 2 ^ 24 → t.die0.waiting = [] ∧ Queued s t 0 q { r with join := 0, since := s.clock, head := 0 }) ∧
          (1 < r.join → t.die0.waiting = [{ r with join := r.join - 1 }] ∧ t.die0.ready = s.die0.ready)) ∧
    (a.toNat < 2 ^ 56 → a.toNat % 64 = 0 →
      (ownedOf s ctx a = none → exec (.cancel ra) s = .next (fault 0x2B)) ∧
      (ownedOf s ctx a = some o → (∃ j, jobOf s ctx a = some j ∧ jobOf s ctx s.grp.task.launch = some j) →
        (o.running = false → exec (.cancel ra) s = .next (past false s)) ∧
        (o.running = true → 2 ≤ o.level → o.cancelled = false →
          (∀ p ∈ s.owned, p.ctx = ctx → p.running = true → p.desc = a ∨ ∀ q ∈ chainOf s ctx 4 p.desc, q.desc ≠ a) →
          exec (.cancel ra) s = .next { past false s with
            owned := s.owned.map fun p => if p.ctx = ctx ∧ p.desc = a then { p with cancelled := true, status := 1 } else p })))

/-- R276 to R278: a request equal to the grant sets FULL, another valid one is held, an invalid one faults; a held request that fits is granted with FULL,
the lowest free tags of the core join the group's with their bits at 1, and the wave issues again. -/
def Obligations.Allotments : Prop :=
  (∀ s (ra : Fin 128), CanIssue s → s.grp.acquire = none →
    ∀ e ∈ [(Instr.acquire, false, match kernelOf s (s.grp.core / 144) s.grp.task.ctx s.grp.task.code with
        | some k => k.declared
        | none => s.grp.allot), (.acquireExplicit ra, true, s.rdSS ra)],
      let r : DWord := e.2.2
      (¬ ValidRequest s.grp r → exec e.1 s = .next (faultsAt true s.iss.run 0x2C (fun _ => at_ s) s.iss.run s (past false s))) ∧
      (ValidRequest s.grp r → full r = full s.grp.allot → exec e.1 s = .next ((past false s).modG fun g => { g with allot := full r })) ∧
      (ValidRequest s.grp r → full r ≠ full s.grp.allot → exec e.1 s = .next (((past false s).modG fun g =>
        { g with acquire := some ⟨e.2.1, r, s.nextUid, s.w.uid⟩ }).modW fun w => { w with hold := some .acquire }).fresh)) ∧
  ∀ s (a : Acquire), s.stores = [] → s.rest = [] → s.grp.live = true → s.grp.stop = none → s.grp.saving = none → s.grp.waves = [] → s.grp.acquire = some a → s.w.hold = some .acquire →
    s.w.mode = .normal → s.grp.task.waves = 1 → ValidRequest s.grp a.request →
    let n := fld a.request 20 7 - fld s.grp.allot 20 7
    let granted (new : BitVec 64) (g : Group) : Group :=
      { g with allot := full a.request, tags := g.tags ||| new, acquire := none, wave := { g.wave with hold := none } }
    ∃ new : BitVec 64, new &&& s.grp.tags = 0 ∧ (List.range 64).countP new.getLsbD = min n ((List.range 64).countP fun i => !s.grp.tags.getLsbD i) ∧
      (∀ i < 64, ∀ j < i, new.getLsbD i = true → new.getLsbD j = true ∨ s.grp.tags.getLsbD j = true) ∧
      exec (.acquireGrant s.grp.core) s = .next ((s.modG (granted new)).modCore s.grp.core
        fun c => { c with tagmap := c.tagmap ||| new })

end

namespace Sys2Proof.Claims
open Sys2Proof Sys2Proof.Machine

/-- The cached translations that a scope of tlbinv names (R394): with scope 0 every granule of the page that holds the address. -/
def named (scope ctx va : Nat) (e : TlbEntry) : Bool :=
  (scope != 0 || (e.ctx == ctx && decide (e.leaf.1 ≤ va ∧ va < e.leaf.1 + e.leaf.2))) && (scope != 1 || e.ctx == ctx)

/-- No access of a lane or of another agent stands between an engine and memory, and L2 holds lines of device memory alone. -/
def Still (s : State) : Prop :=
  s.bands = [] ∧ s.aliases = [] ∧ s.poison = [] ∧ s.regions = [] ∧ s.fanOuts = [] ∧ s.provs = [] ∧ MemOk s ∧ s.leaseWaits = [] ∧ Served s ∧
    (∀ e ∈ s.l2, e.line < 2 ^ 40) ∧ s.nextUid ≠ 0

/-- No group on a core has a non-temporal store or an epilogue row that has not performed, and no request at a peer waits. -/
def AllPerformed (s : State) : Prop :=
  s.remotes = [] ∧ ∀ g ∈ s.grp :: s.rest, g.epilogues = [] ∧ ∀ w ∈ g.wave :: g.waves, w.nt = []

/-- No lease of a peer stands between a page and its owner, and this device holds none (R390 to R392). -/
def NoLeases (s : State) : Prop := (∀ l ∈ s.links, l.leasesOut = []) ∧ s.leases = [] ∧ s.leaseUses = [] ∧ s.leaseWaits = [] ∧ ∀ p ∈ s.purposes, p.2 ≠ s.w.uid

/-- The address of a frame's record and the record (R398). -/
def recordAt (s : State) (pa : Nat) : Nat := s.frameTable + 8 * (pa / 2 ^ 19)
def frameWord (s : State) (pa : Nat) : Nat := s.num (recordAt s pa) 8

/-- The walk of a virtual address in a context (R382, R383): root entry r names a table whose entry e at an address is a leaf of
1 GiB of device memory. -/
def GiantLeaf (s : State) (ctx va leaf : Nat) : Prop :=
  let r := s.num ((s.ctx ctx).root.toNat + 8 * (va / 2 ^ 43 % 2 ^ 13)) 8
  let e := s.num leaf 8
  r % 64 = 1 ∧ r / 64 % 1024 = 0 ∧ r / 2 ^ 52 = 0 ∧ leaf = r - 1 + 8 * (va / 2 ^ 30 % 2 ^ 13) ∧ e % 4 = 3 ∧ e / 32 % 2 = 0 ∧ e / 64 % 2 ^ 24 = 0 ∧
    e / 2 ^ 48 = 0
def leafAddr (s : State) (leaf : Nat) : Nat := s.num leaf 8 / 2 ^ 30 * 2 ^ 30

/-- The lane of a sub-wave whose cause has the lowest code, the lowest such lane (R405). -/
def Reports (w : Wave) (m : Mask) (l : Fin 32) : Prop :=
  let code (j : Fin 32) : Nat := w.recs[j].cause.toNat % 256
  bit m l = true ∧ ∀ j, bit m j = true → code l < code j ∨ (code l = code j ∧ l ≤ j)

/-- The lane whose address a sub-wave presents: the reporting lane (R405), for a comb fault the lowest lane with one (R248). -/
def Presents (w : Wave) (m : Mask) (l j : Fin 32) : Prop :=
  let comb (i : Fin 32) : Prop := w.recs[i].cause.toNat % 256 = 0x17 ∨ w.recs[i].cause.toNat % 256 = 0x18
  (¬ comb l ∧ j = l) ∨ (comb l ∧ bit m j = true ∧ comb j ∧ ∀ i, bit m i = true → comb i → j ≤ i)

/-- Nothing delays the entry of the first queued sub-wave into its handler (R387, R407). -/
def EntryFree (w : Wave) (b : SubWave) : Prop :=
  w.handler = none ∧ w.batch = [] ∧ w.aheadDue = false ∧ ∀ p ∈ w.pending, p.lanes &&& b.lanes = 0

end Sys2Proof.Claims

section
open Sys2Proof Sys2Proof.Machine Sys2Proof.Claims

/-- R394 to R396: tlbinv drops the cached translations of its scope; migrate answers 4 where the page is not mapped and 3 where its frame is referenced,
else freezes the page with MIG set and holds its wave; the end of the copy moves the bytes and the mapping and writes 0. -/
def Obligations.MaintenanceOfTranslations : Prop :=
  (∀ s (v : Fin 64) (c : Fin 4), CanIssue s → AtRest s → s.provs = [] → (∀ p ∈ s.w.pending, p.ordered = false) → s.privileged = true → c.val ≤ 2 →
    let va := s.rdSS (dField v)
    (c.val = 0 → 2 ^ 56 ≤ va.toNat → exec (.tlbinv v c) s = .next (faultsAt true s.iss.run 0x10 (fun _ => va) s.iss.run s (past false s))) ∧
    ((c.val = 0 → va.toNat < 2 ^ 56) →
      AllPerformed s → NoLeases s → (∀ e ∈ s.tlb, named c.val s.grp.task.ctx va.toNat e = true → e.nc = false) →
      let stays (e : TlbEntry) : Bool := !named c.val s.grp.task.ctx va.toNat e
      exec (.tlbinv v c) s = .next { past false s with tlb := s.tlb.filter stays })) ∧
  (∀ s (v p : Fin 64) (d : Fin 128) leaf, CanIssue s → AtRest s → s.provs = [] → s.privileged = true → s.w.own = none → s.w.hold = none →
    let va := (s.rdSS (dField v)).toNat
    let new := (s.rdSS (dField p)).toNat
    let old := leafAddr s leaf
    let r := frameWord s old
    va < 2 ^ 56 → (s.ctx s.grp.task.ctx).root.toNat + 2 ^ 16 ≤ 2 ^ 48 →
    (s.num ((s.ctx s.grp.task.ctx).root.toNat + 8 * (va / 2 ^ 43 % 2 ^ 13)) 8 % 2 = 0 →
      Reads (.migrate v p d) s ((past false s).wrS d 4)) ∧
    (GiantLeaf s s.grp.task.ctx va leaf → leaf + 8 ≤ 2 ^ 48 → AllPerformed s → NoLeases s → new % 2 ^ 30 = 0 → new < 2 ^ 48 → new ≠ old → r / 2 ^ 17 % 2 ^ 13 = 0 →
      (r % 2 ^ 17 ≠ 0 → ∃ t, exec (.migrate v p d) s = .next t ∧ t.rdS d = 3 ∧ t.w.hold = none ∧ t.die0.migrations = [] ∧ t.die1.migrations = []) ∧
      (r % 2 ^ 17 = 0 → (∀ e ∈ s.tlb, e.nc = false) →
        ∃ t, exec (.migrate v p d) s = .next t ∧ t.w.hold = some .migrate ∧ t.num (recordAt s old) 8 = r + 2 ^ 17 ∧
          (t.die (s.grp.core / 144)).migrations = [⟨true, s.grp.uid, s.w.uid, s.grp.task.ctx, s.rdSS (dField v), leaf, old, new, 2 ^ 30, d.val⟩] ∧
          t.tlb = s.tlb.filter fun e => decide (e.pa < old ∨ old + 2 ^ 30 ≤ e.pa)))) ∧
  ∀ s (m : Migration), Still s → s.die0.migrations ++ s.die1.migrations = [m] → m.copying = true → m.old % 2 ^ 19 = 0 → m.new % 2 ^ 19 = 0 →
    m.old + m.size ≤ 2 ^ 48 → m.new + m.size ≤ 2 ^ 48 → m.leaf + 8 ≤ 2 ^ 48 → m.leaf % 8 = 0 → 0 < m.size → Apart2 m.old m.size m.new m.size → Apart2 m.new m.size m.leaf 8 →
    (∀ pa, pa = m.old ∨ pa = m.new → Apart2 (recordAt s pa) 8 m.leaf 8 ∧ Apart2 m.new m.size (recordAt s pa) 8 ∧
      Apart2 m.old m.size (recordAt s pa) 8) →
    m.group = s.grp.uid → m.wave = s.w.uid → s.w.hold = some .migrate → m.dest < 128 →
    let e := s.num m.leaf 8
    let r := frameWord s m.old
    ∃ t, exec (.migrationCopyDone 0 0) s = .next t ∧ (∀ i < m.size, t.mem.read (m.new + i) = s.mem.read (m.old + i)) ∧
      t.num m.leaf 8 = e % 64 + m.new + e / 2 ^ 52 * 2 ^ 52 ∧ frameWord t m.new = 0 ∧ frameWord t m.old = r % 2 ^ 17 + r / 2 ^ 18 * 2 ^ 18 ∧
      t.die0.migrations = [] ∧ t.die1.migrations = [] ∧ t.w.hold = none ∧ t.grp.s[Fin.ofNat 128 m.dest] = 0

/-- R51: a dictionary code executes the word of its entry, with LOOK in place of its lookahead where LOOK is below 15; an INDEX at or above
DICTLEN, a SET that differs and an entry whose bit 30 is 0 are illegal instructions. -/
def Sys2Proof.Claims.DictionaryCodes : Prop :=
  ∀ s (set : Fin 2) (i : Fin 1024) (k : Fin 16), CanIssue s →
    (s.grp.dict[i.val]? = none → exec (.dictionaryCode set i k) s = .next (decodeFaults 0x03 s)) ∧
    ∀ e, s.grp.dict[i.val]? = some e →
      (e.msb = decide (set = 1) ∧ e.getLsbD 30 = true → k.val = 15 → exec (.dictionaryCode set i k) s = .next { s with latch := some e }) ∧
      (e.msb = decide (set = 1) ∧ e.getLsbD 30 = true → k.val ≠ 15 → lookFormat e.toNat = true → exec (.dictionaryCode set i k) s =
        .next { s with latch := some (e.extractLsb' 4 28 ++ BitVec.ofNat 4 k.val) }) ∧
      (e.msb ≠ decide (set = 1) ∨ e.getLsbD 30 = false → exec (.dictionaryCode set i k) s = .next (decodeFaults 0x03 s))

/-- R56, R61, R279, R405 and R407: a pending instruction that completes writes its results and parks its faulting lanes, with those of its issue, with
RESTART 1; the first
queued sub-wave enters the handler with the trap registers set, or ends its group with STATUS 3 where there is no handler. -/
def Sys2Proof.Claims.CompletionsAndHandlerEntry : Prop :=
  (∀ s i (p : Pending), s.stores = [] → (s.w.pending.filter fun q => decide (q.on = .time))[i]? = some p → p.restart = true →
    (∀ f ∈ p.faults, s.w.st[f.lane] ≠ .parked ∧ bit s.w.halted f.lane = false ∧ ∀ b ∈ s.w.subs, bit b.lanes f.lane = false) → (∀ b ∈ s.w.subs, b.lanes ≠ 0) →
    let after := applyAll (s.modW fun w => { w with pending := w.pending.filter fun q => decide (q.id ≠ p.id) }) p.writes
    let of (l : Fin 32) : Option LaneFault := p.faults.find? fun f => decide (f.lane = l)
    exec (.longLatencyCompletion i) s = .next (parkAt p.issue (maskOf fun l => (of l).isSome) (fun l =>
      let f := (of l).getD ⟨l, 0, 0⟩
      { cause := BitVec.ofNat 32 (f.cause + 256 * (p.look - p.issued[l]) + 4096), addr := f.addr, pc := p.pc, entry := s.w.pc[l].setWidth 64,
        guard := s.w.guard[l], guardAt := s.w.guard[l], enabled := bit p.enabled l, passed := false }) after)) ∧
  ∀ s (b : SubWave) (t : List SubWave) (l j : Fin 32), s.stores = [] → s.w.subs = b :: t → EntryFree s.w b → Reports s.w b.lanes l →
    Presents s.w b.lanes l j →
    let h : DWord := if s.grp.handler = (0 : DWord) then (s.ctx s.grp.task.ctx).defhandler.setWidth 64 else s.grp.handler
    let r := s.w.recs[l]
    (h ≠ 0 → exec .handlerEntry s = .next (s.modW fun w => { w with
      st := Lanes.ofFn fun i => if bit b.lanes i then .ready else w.st[i]
      pc := Lanes.ofFn fun i => if bit b.lanes i then h.setWidth 56 else w.pc[i]
      guard := Lanes.ofFn fun i => if bit b.lanes i then Guard.none else w.guard[i]
      trapcause := r.cause, trapaddr := s.w.recs[j].addr, trapmask := b.lanes, trappc := r.pc
      trapent := Lanes.ofFn fun i => if bit b.lanes i then w.recs[i].entry else w.trapent[i]
      yieldMask := w.yieldMask &&& ~~~b.lanes, subs := t, handler := some b })) ∧
    (h = 0 → ∃ u, exec .handlerEntry s = .next u ∧ u.grp.stop = some (s.grp.stop.getD 3) ∧ ∀ w ∈ u.grp.all, w.ended = true)

end

namespace Sys2Proof.Claims
open Sys2Proof Sys2Proof.Machine

/-- The group in focus is on its core, with one wave that is no midge context, and no other group is on a core. -/
def Lone (s : State) : Prop := s.grp.live = true ∧ s.rest = [] ∧ s.grp.waves = [] ∧ s.w.mode = .normal

/-- The group is not being taken back and has not stopped. -/
def Settled' (g : Group) : Prop := g.stop = none ∧ g.saving = none ∧ g.drainBy = none

/-- A die's ready queues hold nothing but a list at one priority. -/
def OnlyQueue (d : Die) (q : Fin 4) (l : List Record) : Prop := ∀ p : Fin 4, d.ready[p] = if p = q then l else []

/-- A bulk record that stands in the queue of its priority. -/
def Bulk (q : Fin 4) (r : Record) : Prop := r.prio = q.val ∧ r.latency = false ∧ r.clus = false

/-- No record that is ready waits for a place in a full queue (R325). -/
def NoneShut (d : Die) : Prop := ∀ r ∈ d.waiting, r.join ≠ 0

/-- The core takes records, and its local queue is empty. -/
def Idle (c : Core) : Prop := c.open_ = true ∧ c.local_ = []

/-- An allotment for a number of waves fits an empty core (R31). -/
def Fits (a : DWord) (waves : Nat) : Prop :=
  1 ≤ waves ∧ waves ≤ 32 ∧ fld a 0 8 * waves ≤ 4096 ∧ fld a 8 7 ≤ 64 ∧ fld a 15 5 * waves ≤ 64 ∧ fld a 20 7 ≤ 64 ∧ fld a 32 6 ≤ 48

/-- A wave as a group starts it (R12, R25): every register at its start value, the first lanes ready at CODE, the others inactive. -/
def StartsWith (w : Wave) (idx lanes : Nat) (code : DWord) : Prop :=
  w.idx = idx ∧ w.v = Vector.replicate 128 (Lanes.all 0) ∧ w.p = Vector.replicate 7 0 ∧ w.k = Vector.replicate 12 0 ∧
    ∀ l : Fin 32, w.st[l] = (if l.val < lanes then .ready else .inactive) ∧ (l.val < lanes → w.pc[l] = code.setWidth 56)

/-- The address of a record's or a group's kernel with its entry, which declares no dictionary. -/
def Plain (s : State) (die : Nat) (r : Record) (k : Kernel) : Prop := kernelOf s die r.ctx r.code = some k ∧ k.dictLen = 0

/-- A job of a die whose descriptor runs with COUNT above 0 and has nothing running below it. -/
def LoneJob (s : State) (j : Job) (o : Owned) : Prop :=
  ownedOf s j.ctx j.desc = some o ∧ o.running = true ∧ o.count ≠ 0 ∧ o.cancelled = false ∧ 2 ≤ o.level ∧
    ∀ p ∈ s.owned, p.ctx = j.ctx → p.running = true → p.desc = j.desc ∨ ∀ q ∈ chainOf s j.ctx 4 p.desc, q.desc ≠ j.desc
def cancelledAs (s : State) (die : Nat) (j : Job) (status : Nat) : State :=
  let mark (p : Owned) : Owned := if p.ctx = j.ctx ∧ p.desc = j.desc then { p with cancelled := true, status := status } else p
  { s with owned := s.owned.map mark }.modDie die fun d => { d with jobs := d.jobs.filter fun k => decide (k ≠ j) }

/-- The records in local queues. -/
def localRecords (s : State) : List Record := s.cores.flatMap fun c => c.2.local_

end Sys2Proof.Claims

section
open Sys2Proof Sys2Proof.Machine Sys2Proof.Claims

/-- R12, R17, R25, R31, R274, R327 and R332: an idle core admits the record at the head of the highest non-empty priority, whose group starts with the
registers of R17, the prologue and four tags; a group that ends takes 1 from its launch's COUNT, and STATUS becomes 4 where PARENT names no waiting
record. That the scheduler's writes reach memory where the page is mapped is the model's reading (log entry 32). -/
def Obligations.StartAndEndOfGroups : Prop :=
  (∀ s c (q : Fin 4) (r : Record) (t : List Record) (k : Kernel) (o : Owned), s.stores = [] → c < 288 → s.grp.live = false → s.rest = [] →
    let die := c / 144
    Idle (s.core c) → NoneShut (s.die die) → OnlyQueue (s.die die) q (r :: t) → (∀ x ∈ r :: t, Bulk q x) → 1 ≤ r.waves → r.waves ≤ 32 → (s.die die).saved = [] →
    (s.die die).owed = none → Plain s die r k → ownedOf s r.ctx r.launch = some o → o.running = true → o.low / 8 % 4 = 0 →
    ∃ u, exec (.groupAdmission c) s = .next u ∧ OnlyQueue (u.die die) q t ∧ u.rest = [] ∧
      u.grp.live = true ∧ u.grp.core = c ∧ u.grp.slot = 0 ∧ u.grp.task = r ∧ u.grp.allot = 0x400410 ∧ u.grp.tags = 0xF ∧
      (u.core c).tagmap = (s.core c).tagmap ||| 0xF ∧ u.grp.handler = o.handler ∧ u.grp.sys = decide (o.low / 2 ^ 7 % 2 = 1) ∧
      u.grp.s[1] ++ u.grp.s[0] = r.frame ∧ u.grp.s[3] ++ u.grp.s[2] = r.addr ∧
      u.grp.s[4] = BitVec.ofNat 32 r.index ∧ u.grp.s[5] = BitVec.ofNat 32 r.waves ∧ u.grp.s[6] = BitVec.ofNat 32 r.lastLanes ∧
      u.grp.s[7] = BitVec.ofNat 32 (o.low + 8 + o.now * 256) ∧ (∀ n : Fin 128, 8 ≤ n.val → u.grp.s[n] = 0) ∧
      u.grp.all.length = r.waves ∧ ∀ e ∈ u.grp.all.zipIdx, StartsWith e.1 e.2 (if e.2 + 1 = r.waves then r.lastLanes else 32) r.code) ∧
  ∀ s (o : Owned), s.stores = [] → Lone s → s.w.ended = true → s.grp.stop = none → s.w.nt = [] → s.grp.epilogues = [] → s.provs = [] → s.merges = [] →
    let ctx := s.grp.task.ctx
    ownedOf s ctx s.grp.task.launch = some o → 2 ≤ o.count →
    (s.grp.task.parent = 0 ∨ ∀ r ∈ s.die0.waiting ++ s.die1.waiting, ¬ (r.ctx = ctx ∧ r.addr = s.grp.task.parent ∧ r.join ≠ 0)) →
    ∃ u, exec .groupEnd s = .next u ∧ u.grp.live = false ∧ u.rest = [] ∧
      ownedOf u ctx s.grp.task.launch = some { o with count := o.count - 1, now := if s.grp.task.parent = 0 then o.now else 4 }

/-- R333, R335, R340, R341, R343, R344, R412 and R413: a group is taken back by a drain, a flush or a save; a save writes its image and frees its
core, and a restore brings it back; a latency record takes back a reserved core, an acquire deadlock saves the group that asked last; a midge context
starts beside a stalled wave and ends. Where an image stands in the pool, and what a save completes first, are the model's readings (log entry 34). -/
def Obligations.TakingBackAndMidges : Prop :=
  (∀ s, s.stores = [] → Lone s → Settled' s.grp → s.grp.task.clus = false →
    let g := s.grp
    let t := s.clock - g.started
    (∀ k a, kernelOf s (g.core / 144) g.task.ctx g.task.code = some k → k.avg = some a → a - t ≤ 3000 →
      exec (.takeBackRequest g.uid) s = .next (s.modG fun g => { g with drainBy := some (s.clock + 3000, false) })) ∧
    (kernelOf s (g.core / 144) g.task.ctx g.task.code = none →
      (g.task.idem = false ∨ 18000 < t → exec (.takeBackRequest g.uid) s = .next (s.modG fun g => { g with saving := some false })) ∧
      (g.task.idem = true → t ≤ 18000 → ∃ u, exec (.takeBackRequest g.uid) s = .next u ∧ u.grp.stop = some 256 ∧ u.w.ended = true))) ∧
  (∀ s t area, s.stores = [] → Lone s → s.grp.drainBy = some (t, area) → t ≤ s.clock → s.grp.saving = none →
    let reserved : Bool := decide (s.grp.core % 144 < fld (s.die (s.grp.core / 144)).schedcfg 8 8)
    exec (.drainTimeout s.grp.uid) s = .next (s.modG fun g => { g with saving := some (area && reserved), drainBy := none })) ∧
  (∀ s (r : Record), s.stores = [] → Lone s → Settled' s.grp → s.grp.core = 0 → s.grp.task.latency = false → s.grp.task.clus = false → s.grp.task.idem = false →
    kernelOf s 0 s.grp.task.ctx s.grp.task.code = none → fld s.die0.schedcfg 8 8 = 1 → s.die0.ready[0] = [r] → r.latency = true → r.clus = false → 1 ≤ r.waves →
    4096 < fld s.grp.allot 0 8 * s.grp.task.waves + 16 * r.waves →
    exec (.latencyTakeBack 0) s = .next (s.modG fun g => { g with saving := some true })) ∧
  (∀ s (h : Group) (a b : Acquire), s.stores = [] → s.grp.live = true → s.rest = [h] → h.live = true → h.core = s.grp.core → h.uid ≠ s.grp.uid →
    Settled' s.grp → Settled' h → s.grp.waves = [] → h.waves = [] → s.w.mode = .normal → h.wave.mode = .normal →
    s.grp.task.clus = false → s.grp.acquire = some a → h.acquire = some b → b.order < a.order →
    fld h.allot 0 8 * h.task.waves < fld b.request 0 8 * h.task.waves → fld s.grp.allot 0 8 * s.grp.task.waves < fld a.request 0 8 * s.grp.task.waves →
    4096 < fld b.request 0 8 * h.task.waves + fld s.grp.allot 0 8 * s.grp.task.waves →
    exec (.acquireDeadlockSave s.grp.core) s = .next (s.modG fun g => { g with saving := some false, drainBy := none })) ∧
  (∀ s, s.stores = [] → Lone s → s.w.pending = [] → s.grp.saving = some false → s.grp.stop = none → s.w.ended = false → s.die0.saved = [] → s.die1.saved = [] →
    s.w.nt = [] → s.grp.epilogues = [] → s.w.replay = none → s.w.hold ≠ some .migrate → (∀ r ∈ s.remotes, r.wave ≠ s.w.uid) →
    (∀ c, s.w.chosen = some c → c.replay = none ∧ s.w.pushed.1 ≠ c.id ∧ s.w.loading.1 ≠ c.id) →
    let g := s.grp
    let size := 0x2C0 + g.task.waves * (0x1900 + fld g.allot 0 8 * 128 + fld g.allot 15 5 * 4352) + 4096 * fld g.allot 8 7 + 1024 * fld g.allot 32 6 +
      32 * g.copies.length
    size ≤ 288 * (s.poolPerCore - 2 ^ 21) →
    let ready (w : Wave) : Mask := maskOf fun l => decide (w.st[l] = .ready)
    let wave : Wave := match s.w.chosen with
      | some c => { s.w with chosen := none, count := c.count, rotation := c.rotation, yieldMask := (s.w.yieldMask ||| c.cleared) &&& ready s.w }
      | none => s.w
    let image : Group := { g with
      wave := wave, started := s.clock - g.started, drainBy := none, saving := none, copies := g.copies.map fun d => { d with waiting := false, walked := none } }
    let base := s.poolBase + 288 * 2 ^ 21
    let bits := (s.core g.core).tagmap &&& g.tags
    exec (.groupSave g.uid) s = .next ({ s with
      grp := Group.blank, waits := s.waits.filter (fun w => decide (w.engine ≠ 0 ∨ w.item ≠ g.uid)), mem := s.mem.writes base (imageBytes bits image),
        nextUid := s.nextUid + 1 }.modDie (g.core / 144) fun d => { d with saved := [⟨image, none, base, size, bits, s.nextUid⟩] })) ∧
  (∀ s c (v : Saved) (k : Kernel), s.stores = [] → c < 288 → s.grp.live = false → s.rest = [] → (s.die (c / 144)).saved = [v] → v.area = none →
    s.bytes v.base v.size = imageBytes v.bits v.group → v.group.waves = [] → v.group.wave.mode = .normal → v.group.wave.ended = false → v.group.wave.chosen = none → v.group.barC = [] → v.group.arrivedC = false → s.merges = [] → s.remotes = [] → v.group.acquire = none → v.group.task.latency = false → v.group.task.clus = false →
    Fits v.group.allot v.group.task.waves → Plain s (c / 144) v.group.task k → Idle (s.core c) → (∀ q : Fin 4, (s.die (c / 144)).ready[q] = []) →
    ∃ u, exec (.groupRestore c 0) s = .next u ∧ (u.die (c / 144)).saved = [] ∧
      u.grp = { v.group with wave := allReleased v.group.wave, core := c, slot := 0, started := s.clock - v.group.started } ∧
      (u.core c).tagmap = ((s.core c).tagmap &&& ~~~v.group.tags) ||| v.bits) ∧
  (∀ s (p : Pending) (k : Kernel), s.stores = [] → Lone s → Settled' s.grp → s.grp.acquire = none → p ∈ s.w.pending → p.load = true → p.on = .time →
    let c := s.grp.core
    (s.die (c / 144)).schedcfg.getLsbD 17 = true → kernelOf s (c / 144) s.grp.task.ctx s.grp.task.code = some k → k.sliceOff ≠ 0 →
    Fits s.grp.allot (s.grp.task.waves + 1) → (s.core c).local_ = [] → (∀ q : Fin 4, (s.die (c / 144)).ready[q] = []) →
    ∃ m, exec (.midgeStart s.grp.uid) s = .next (s.modG fun g => { g with waves := [m] }).fresh ∧ m.mode = .midge ∧ m.v = s.w.v ∧ m.p = s.w.p ∧
      m.own = some s.grp.s ∧ ∀ l : Fin 32,
        let on := s.w.st[l] = .ready ∨ ∃ j, s.w.st[l] = .waiting j
        (on → m.st[l] = .ready ∧ m.pc[l] = (s.grp.task.code + BitVec.ofNat 64 (2 * k.sliceOff)).setWidth 56) ∧ (¬ on → m.st[l] = .inactive)) ∧
  ∀ s m, s.stores = [] → s.grp.live = true → s.grp.waves = [m] → s.w.mode = .normal → m.mode = .midge → m.ended = true ∨ 4096 ≤ m.issues →
    exec (.midgeEnd s.grp.uid) s = .next (s.modG fun g => { g with waves := [] })

/-- R327 to R329, R338 and R339: a refill, a steal and its answer, the balancing of local queues; a job whose budget or bound is spent is cancelled
with STATUS 2, or 5 where the floor was lost; FLOOR falls and returns. The order of the pairs within a balancing is the model's choice (log entry 99).
-/
def Obligations.QueuesAndJobs : Prop :=
  (∀ s die (q : Fin 4) (r : Record) (t : List Record), s.stores = [] → die < 2 → s.cores = [] → NoneShut (s.die die) → OnlyQueue (s.die die) q (r :: t) → Bulk q r →
    (s.die die).saved = [] → ∃ u, exec (.distributorRefill die) s = .next u ∧ OnlyQueue (u.die die) q t ∧
      u.cores = [(144 * die, { Core.blank with local_ := [r] })]) ∧
  (∀ s die, s.stores = [] → die < 2 → s.cores = [] → s.grp.live = false → s.rest = [] →
    let d := s.die die
    (∀ q : Fin 4, d.ready[q] = []) → d.schedcfg.getLsbD 16 = true → d.stealing = false → d.stealAfter ≤ s.clock →
    exec (.stealRequest die) s =
      .next (if ∀ v ∈ d.saved, v.area.isSome = true then s.modDie die fun d => { d with stealing := true } else s)) ∧
  (∀ s die, s.stores = [] → die < 2 → (s.die (1 - die)).stealing = true →
    ((∀ q : Fin 4, (s.die die).ready[q] = []) → exec (.stealAnswer die) s =
      .next (s.modDie (1 - die) fun d => { d with stealing := false, stealAfter := s.clock + 3000 })) ∧
    ∀ (q : Fin 4) l, NoneShut (s.die die) → OnlyQueue (s.die die) q l → l ≠ [] → l.Nodup → (∀ r ∈ l, Bulk q r) →
      (s.die (1 - die)).ready[q].length + 64 ≤ 2 ^ 24 →
      let kept := l.length - min 64 ((l.length + 1) / 2)
      ∃ u, exec (.stealAnswer die) s = .next u ∧ OnlyQueue (u.die die) q (l.take kept) ∧
        (u.die (1 - die)).ready[q] = (s.die (1 - die)).ready[q] ++ l.drop kept ∧ (u.die (1 - die)).stealing = false) ∧
  (∀ s die, s.stores = [] → die < 2 → (s.die die).balanced + 3000 ≤ s.clock → (s.cores.map (·.1)).Pairwise (· < ·) →
    ∃ u, exec (.queueBalancing die) s = .next u ∧ (u.die die).balanced = s.clock ∧ (localRecords u).Perm (localRecords s)) ∧
  (∀ s die i (j : Job) (o : Owned), s.stores = [] → die < 2 → (s.die die).jobs[i]? = some j → LoneJob s j o →
    (j.budget = 0 → exec (.budgetExhausted die i) s = .next (cancelledAs s die j 2)) ∧
    (j.deadline ≤ s.clock → exec (.deadlineExpiry die i) s = .next (cancelledAs s die j (if j.floorLost then 5 else 2)))) ∧
  ∀ s die, s.stores = [] → die < 2 →
    exec (.floorLost die) s = .next (s.modDie die fun d => { d with
      schedcfg := d.schedcfg &&& ~~~0x40000, floorSince := s.clock, jobs := d.jobs.map fun j => { j with floorLost := true } }) ∧
    ((s.die die).floorSince + 3000 ≤ s.clock →
      exec (.floorRegained die) s = .next (s.modDie die fun d => { d with schedcfg := d.schedcfg ||| 0x40000 }))

/-- R282 and R451: a wave sleeps until its time; the lanes that a halt parked go on at their entries on a resume, and a cancel stops their group. -/
def Sys2Proof.Claims.SleepAndHaltOrders : Prop :=
  (∀ s t, s.stores = [] → s.w.hold = some (.sleep t) → t ≤ s.clock → exec .sleepExpiry s = .next (s.modW fun w => { w with hold := none })) ∧
  ∀ s, s.stores = [] → OnlyWave s → s.w.halted ≠ 0 →
    exec (.haltResume s.w.uid) s = .next (s.modW fun w => { w with
      st := Lanes.ofFn fun l => if bit w.halted l then .ready else w.st[l]
      pc := Lanes.ofFn fun l => if bit w.halted l then entryPc w.recs[l].entry else w.pc[l]
      guard := Lanes.ofFn fun l => if bit w.halted l ∧ ¬ bit w.handlerLanes l then w.recs[l].guard else w.guard[l]
      halted := 0 }) ∧
    ∃ u, exec (.haltedGroupCancel s.w.uid) s = .next u ∧ u.grp.stop = some (s.grp.stop.getD 0) ∧ ∀ w ∈ u.grp.all, w.ended = true

end

namespace Sys2Proof.Claims
open Sys2Proof Sys2Proof.Machine

/-- The header beat of an Isais message with the beats that follow it (R437). -/
def headBeat (op ch tag addr marks st : Nat) (beats : List Byte) : BitVec 128 :=
  let h := op + ch * 2 ^ 4 + tag * 2 ^ 9 + addr / 64 * 2 ^ 20 + marks * 2 ^ 66 + st * 2 ^ 82 + beats.length / 16 % 2 ^ 7 * 2 ^ 85
  BitVec.ofNat 128 (h + crc32c (leBytes 16 h ++ beats) * 2 ^ 96)

/-- The channel of a burst within its stack (R437). -/
def channelOf' (a : Nat) : Nat := (a / 2 ^ 8 % 32) ^^^ (a / 2 ^ 13 % 32)

/-- A core with its copies of a word unowned. -/
def unowned (a : Nat) (c : Core) : Core :=
  { c with l1 := c.l1.map fun l => if l.line = a / 256 then
      { l with words := l.words.map fun w => if w.1 = a then (w.1, { w.2 with owned := false }) else w } else l }

/-- No migration is under way. -/
def NoMigration (s : State) : Prop := s.die0.migrations = [] ∧ s.die1.migrations = []

/-- The stack of a physical address (R351, R415). -/
def stack (a : Nat) : Nat := (a / 2 ^ 12 % 8) ^^^ (a / 2 ^ 20 % 8) ^^^ (a / 2 ^ 28 % 8)

/-- A link that is up and can send n flits of a channel at once, with permits and room in the replay buffer (R433 to R435). -/
def CanSend (s : State) (link vc n : Nat) : Prop :=
  ∃ l, s.links[link]? = some l ∧ l.up = true ∧ l.queue = [] ∧
    (vc = 4 ∨ (l.recal = none ∧ n ≤ l.permits.getD vc 0 ∧ l.unacked.length + n ≤ 512))

/-- The flits of a message with k fields and n bytes of data (R430). -/
def flits (k n : Nat) : Nat := max 1 ((8 * k + n + 239) / 240)

/-- The leases granted over a link. -/
def leasesOfLink (s : State) (link : Nat) : List Granted := (s.links.getD link Link.blank).leasesOut

/-- Whether a way of L2 is a line's own, no guest copy. -/
def ownWay (line : Nat) (e : L2Line) : Bool := e.line == line && !e.guest

end Sys2Proof.Claims

section
open Sys2Proof Sys2Proof.Machine Sys2Proof.Claims

/-- R293, R350, R353, R355 to R358, R361 to R363, R372 and R374: fills, revocations, guest copies, fan-outs with their answers and time-outs, rejoins,
COHCFG, and entries materialised by a probe or by the base die. -/
def Sys2Proof.Claims.CoherenceEvents : Prop :=
  (∀ s core (m : Miss), Still s → (s.core core).misses = [m] → (s.core core).l1 = [] → m.sector % 64 = 0 → m.sector < 2 ^ 48 →
    m.nc = false →
    ∃ t, exec (.missFillArrival core 0) s = .next t ∧ (t.core core).misses = [] ∧ t.mem = s.mem ∧
      ∀ k : Fin 16, m.mask.getLsbD k = true → ∃ l ∈ (t.core core).l1, l.line = m.sector / 256 ∧
        (m.sector + 4 * k.val, ⟨BitVec.ofNat 32 (s.num (m.sector + 4 * k.val) 4), true, false, false, 0⟩) ∈ l.words) ∧
  (∀ s core word, s.stores = [] → word % 4 = 0 → (s.owners.find? fun e => decide (e.1 = word)) = some (word, core) →
    exec (.ownershipRevocation core word) s = .next { s.modCore core (unowned word) with owners := s.owners.filter fun e => decide (e.1 ≠ word) }) ∧
  (∀ (s : State) (line : Nat), s.stores = [] → s.provs = [] → s.bands = [] → s.fanOuts = [] → (∀ e ∈ s.owners, e.1 % 4 = 0) → line < 2 ^ 40 →
    if s.l2.any (ownWay line) then ∃ cs, SameCores cs s ∧ exec (.l2Replacement line) s = .next { s with
      cores := cs, owners := s.owners.filter (fun e => decide (e.1 / 256 ≠ line)), l2 := s.l2.eraseP (ownWay line) }
    else exec (.l2Replacement line) s = .next s) ∧
  (∀ s (agent : Fin 14) line, line < 2 ^ 40 → s.stores = [] → s.provs = [] → s.bands = [] → s.aliases = [] → s.fanOuts = [] → s.regions = [] → s.contstat.getLsbD agent = false →
    (∀ m ∈ mappings s, m.2.2.nc = false) → (agent = 0 → s.l2 = []) → exec (.guestFill agent line) s = .next { s with
      regions := [⟨line / 16, BitVec.twoPow 14 agent, 0, none, (s.die (sliceOf (line * 256) / 160)).cohcfg, false⟩]
      l2 := if agent = 0 then [⟨line, true, false, []⟩] else s.l2 }) ∧
  (∀ s addr bs, Still s → NoMigration s → bs ≠ [] → addr + bs.length < 2 ^ 48 →
    (s.contstat.getLsbD 0 = false → Writes (.directoryFanOut 0 addr bs) s { s with nextUid := s.nextUid + 1, mem := s.mem.writes addr bs }) ∧
    (s.contstat.getLsbD 1 = false → Writes (.directoryFanOut 1 addr bs) s { s with
      nextUid := s.nextUid + 1, mem := s.mem.writes addr bs, out := .host 0 1 [] :: s.out })) ∧
  (∀ s addr bs cfg, s.stores = [] → s.fanOuts = [] → s.regions = [⟨addr / 4096, 2, 0, none, cfg, false⟩] → bs ≠ [] → addr % 256 + bs.length ≤ 256 →
    addr + bs.length < 2 ^ 48 → s.contstat.getLsbD 0 = false → (∀ e ∈ s.l2, e.line < 2 ^ 40) →
    ∃ cs os ls, SameCores cs s ∧ exec (.directoryFanOut 0 addr bs) s = .next { s with
      cores := cs, owners := os, l2 := ls, nextUid := s.nextUid + 1
      fanOuts := [⟨addr / 256, 2, s.clock, true, true, 0, addr, 0, 0, bs, s.nextUid, (s.die (sliceOf addr / 160)).cohcfg⟩]
      out := .cxl (addr / 256) 2 [] :: s.out }) ∧
  (∀ s (agent : Fin 14) line present (f : FanOut), Still { s with fanOuts := [], regions := [] } → NoMigration s → s.fanOuts = [f] → f.line = line → f.begun = true →
    f.agents = BitVec.twoPow 14 agent → f.agent = 0 → f.op = 0 → f.data ≠ [] → f.addr / 256 = line →
    f.addr % 256 + f.data.length ≤ 256 →
    ∃ rs ks, Writes (.invalidationAnswer agent line present) s { s with regions := rs, links := ks, fanOuts := [], mem := s.mem.writes f.addr f.data }) ∧
  (∀ s (agent : Fin 14) line (f : FanOut), MemOk s → NoMigration s → s.fanOuts = [f] → f.line = line → f.begun = true → f.agents.getLsbD agent = true →
    agent ≠ 0 → s.contstat.getLsbD agent = false → s.contlog.pos < s.contlog.slots.length → line < 2 ^ 44 →
    (s.contlog.slots.getD s.contlog.pos (0, 0)).1.getLsbD 63 = false →
    f.start + 1500 * fld (f.cfg.setWidth 64) 0 8 ≤ s.clock → s.fills = [] →
    ∃ t, exec (.invtoExpiry agent line) s = .next t ∧ t.contstat.getLsbD agent = true ∧ (∀ g ∈ t.fanOuts, g.agents.getLsbD agent = false) ∧
      (∀ r ∈ t.regions, r.vec.getLsbD agent = false) ∧ (agent.val = 1 → f.agent = 1 → s.leaseWaits = [] → t.mem = s.mem) ∧
      t.contlog.slots[s.contlog.pos]? = some (BitVec.ofNat 64 (line * 2 ^ 8 + agent.val * 2 ^ 52 + 2 ^ 63), BitVec.ofNat 64 s.clock)) ∧
  (∀ s (agent : Fin 14), s.stores = [] → agent ≠ 0 → (if agent = 1 then s.hostlanes ≠ 0 else (s.links.getD (agent.val - 2) Link.blank).up = true) →
    ∃ ls, exec (.rejoin agent) s = .next { s with links := ls, contstat := s.contstat &&& ~~~BitVec.twoPow 32 agent }) ∧
  (∀ s link line, s.stores = [] → s.bands = [] → s.aliases = [] → (∀ e ∈ s.owners, e.1 % 4 = 0) → link < 12 → CanSend s link 2 1 →
    let mine := (2 + link) * 2 ^ 40 + line
    ∃ cs ls, SameCores cs s ∧ exec (.invalidation link line) s = .next { s with
      cores := cs, links := ls, l2 := s.l2.filter (fun e => decide (e.line ≠ mine)), owners := s.owners.filter (fun e => decide (e.1 / 256 ≠ mine)), provs := s.provs.filter (fun c => decide (c.addr / 256 ≠ mine))
      proxies := s.proxies.filter (fun l => decide (l ≠ mine)), exclusive := s.exclusive.filter (fun l => decide (l ≠ mine)), out := .flit link 6 [line, if mine ∈ s.proxies then 1 else 0] [] :: s.out }) ∧
  (∀ s (e : Alias), s.stores = [] → s.bands = [] → s.poison = [] → Served s → s.aliases = [e] → 0 < e.len → e.src + e.len ≤ 2 ^ 48 → e.dst + e.len ≤ 2 ^ 48 →
    (∀ l ∈ s.l2, l.line < 2 ^ 40) →
    let copied : State := { s with aliases := [], mem := s.mem.writes e.dst (s.mem.bytes e.src e.len) }
    (∀ line, e.src / 256 ≤ line → line ≤ (e.src + e.len - 1) / 256 → Reads (.sourceProbe line) s copied) ∧
    ((s.ctx e.ctx).basedie = true → stack e.src = stack e.dst → e.src % 64 = 0 → e.dst % 64 = 0 → e.len % 64 = 0 →
      e.src / 4096 = (e.src + e.len - 1) / 4096 → (s.isais.getD (stack e.dst) Isais.blank).recal = none →
      (∀ l ∈ s.l2, l.line ≠ e.dst / 256 ∧ (l.dirty = true → l.line < e.src / 256 ∨ (e.src + e.len - 1) / 256 < l.line)) →
      (∃ tag < 2048, ∀ m ∈ (s.isais.getD (stack e.dst) Isais.blank).outstanding, m.tag ≠ tag) →
      let script := leBytes 16 (1 + e.len / 64 * 2 ^ 4 + e.src / 64 * 2 ^ 18 + e.dst / 64 * 2 ^ 64)
      ∃ tag is, tag < 2048 ∧ (∀ m ∈ (s.isais.getD (stack e.dst) Isais.blank).outstanding, m.tag ≠ tag) ∧ exec (.baseDieMaterialise 0) s = .next { copied with
        isais := is, out := .isais (stack e.dst) (headBeat 7 (channelOf' e.dst) tag e.dst 0 0 script) script :: s.out })) ∧
  ∀ s die (x : BitVec 32), s.stores = [] → (x.getLsbD 12 = true ∨ s.regions = []) →
    exec (.cohcfgWrite die x) s = .next (s.modDie die fun d => { d with
      cohcfg := BitVec.ofNat 32 (max 1 (x.toNat % 256) + max 1 (x.toNat / 2 ^ 8 % 16) * 2 ^ 8 + x.toNat / 2 ^ 12 % 2 * 2 ^ 12) })

/-- R366, R368 and R369: bytes under a live entry are read from its source, the read counts once, and the read that brings READS above HOT
materialises the entry after its answer; a source-filter counter of 0 proves that no live entry draws on the line. That kind 0 of a host access is a read,
and what the CXL.mem ranges are, are the model's choices (log entry 46). -/
def Sys2Proof.Claims.RedirectedReads : Prop :=
  (∀ s (e : Alias) off (bs : List Byte) (tag : Fin 16384), s.stores = [] → s.bands = [] → s.poison = [] → s.provs = [] → Served s → s.contstat.getLsbD 1 = false →
    (∃ r ∈ s.cxlRanges, r.1 ≤ e.dst + off ∧ e.dst + off + bs.length ≤ r.1 + r.2) → (∀ l ∈ s.l2, l.line < 2 ^ 40) →
    s.aliases = [e] → bs ≠ [] → off + bs.length ≤ e.len → e.dst + e.len ≤ 2 ^ 48 →
    let k := min (e.reads + 1) 255
    let o := Sent.host tag 0 (s.mem.bytes (e.src + off) bs.length) :: s.out
    Reads (.hostAccess (tag, 0) (e.dst + off) bs) s (if (s.ctx e.ctx).hot < k
      then { s with aliases := [], mem := s.mem.writes e.dst (s.mem.bytes e.src e.len), out := o }
      else { s with aliases := [{ e with reads := k }], out := o })) ∧
  ∀ s line, filterCount s line = 0 → ∀ e ∈ s.aliases, 0 < e.len → ¬ (e.src / 256 ≤ line ∧ line ≤ (e.src + e.len - 1) / 256)

/-- R390 to R392 and R398: a lease request of a peer is translated in the context that its link exports, the translation cached in its L3 bank, granted with the frame's REFS and
LEASES raised, or refused; an answer stands for the accesses that wait; a recall drops the leased translations and is acknowledged; an acknowledgement and a release
end the lease. -/
def Sys2Proof.Claims.Leases : Prop :=
  (∀ s link window leaf, Still s → NoMigration s → s.recalls = [] → s.purposes = [] → s.tlb = [] → link < 12 → CanSend s link 1 1 →
    let ctx := (s.links.getD link Link.blank).export_
    let e := s.num leaf 8
    let page := leafAddr s leaf
    let frame := page / 2 ^ 19 + window % 2 ^ 30 / 2 ^ 19
    let r := frameWord s page
    (s.contstat.getLsbD (2 + link) = true → ∃ ls, exec (.leaseRequest link window) s = .next { s with links := ls, out := .flit link 8 [window, 0, 0, 0, 1] [] :: s.out }) ∧
    (s.contstat.getLsbD (2 + link) = false → window < 2 ^ 56 → (s.ctx ctx).root.toNat + 2 ^ 16 ≤ 2 ^ 48 → leaf + 8 ≤ 2 ^ 48 →
      GiantLeaf s ctx window leaf → pageFrame s (frame * 2 ^ 19) = page → leasesOfLink s link = [] → r % 2 ^ 17 < 65535 →
      r / 2 ^ (18 + link) % 2 = 0 →
      ∃ t, exec (.leaseRequest link window) s = .next t ∧
        leasesOfLink t link = [⟨frame, page / 2 ^ 19, ctx, window, window / 2 ^ 30 * 2 ^ 30, 2 ^ 30⟩] ∧
        frameWord t page = r + 1 + 2 ^ (18 + link) ∧
        t.tlb = [⟨bankOf 0 window, ctx, window / 2 ^ 19 * 2 ^ 19, 2 ^ 19, frame * 2 ^ 19, e.testBit 2, e.testBit 3, e.testBit 4, none,
          (window / 2 ^ 30 * 2 ^ 30, 2 ^ 30)⟩] ∧
        t.out = .flit link 8 [window, frame, e / 4 % 2, e / 16 % 2, 0] [] :: s.out)) ∧
  (∀ s link window frame w nc, s.stores = [] → (link, window) ∈ s.leaseAsked →
    let asked := s.leaseAsked.filter fun r => decide (r ≠ (link, window))
    (∃ ls, exec (.leaseAnswer link window frame w nc true) s = .next { s with links := ls, leaseAsked := asked, refused := (link, window) :: s.refused }) ∧
    ∃ ls, exec (.leaseAnswer link window frame w nc false) s = .next { s with
      links := ls, leaseAsked := asked, leases := (link, window, frame * 4 + (if nc then 2 else 0) + (if w then 1 else 0)) :: s.leases }) ∧
  (∀ s link frame, s.stores = [] → CanSend s link 2 1 → AllPerformed s → s.fanOuts = [] → s.recalled = [] → (∀ e ∈ s.tlb, e.nc = false) →
    ∃ ls, exec (.recall link frame) s = .next { s with
    links := ls, out := .flit link 10 [frame] [] :: s.out
    tlb := s.tlb.filter fun e => !decide (e.lease = some link ∧ e.pa = (2 + link) * 2 ^ 48 + frame * 2 ^ 19)
    leases := s.leases.filter fun x => !decide (x.1 = link ∧ x.2.2 / 4 = frame)
    leaseUses := s.leaseUses.filter fun u => !decide (u.link = link ∧ ∃ x ∈ s.leases, x.1 = link ∧ x.2.1 = u.window ∧ x.2.2 / 4 = frame) }) ∧
  ∀ s link frame (g : Granted), Still s → NoMigration s → link < 12 → link < s.links.length → leasesOfLink s link = [g] → g.frame = frame → g.first < 2 ^ 29 →
    let r := frameWord s (g.first * 2 ^ 19)
    1 ≤ r % 2 ^ 17 → r % 2 ^ 17 < 65536 → r / 2 ^ (18 + link) % 2 = 1 →
    ∀ i ∈ [Instr.recallAcknowledgement link frame, .leaseRelease link frame],
      ∃ t, exec i s = .next t ∧ leasesOfLink t link = [] ∧ frameWord t (g.first * 2 ^ 19) = r - 1 - 2 ^ (18 + link) ∧
        t.recalls = if i = .leaseRelease link frame then s.recalls else s.recalls.filter fun x => decide (x ≠ (link, frame))

end

namespace Sys2Proof.Claims
open Sys2Proof Sys2Proof.Machine

/-- A link of a state. -/
def linkOf (s : State) (link : Nat) : Link := s.links.getD link Link.blank

/-- The link exists and is up. -/
def LinkUp (s : State) (link : Nat) : Prop := link < s.links.length ∧ (linkOf s link).up = true

/-- A link after an intact message of n flits on a channel has arrived (R431, R433). -/
def arrived (s : State) (link vc n : Nat) : Link :=
  let l := linkOf s link
  { l with heard := s.clock, failed := 0, ack := (l.ack + n) % 4096, slots := if vc = 4 then l.slots else modAt l.slots vc fun k => k + n }

/-- The state with one link replaced. -/
def withLink (link : Nat) (l : Link) (s : State) : State := { s with links := s.links.set link l }

/-- No cached translation, lease or line of a home agent. -/
def Forsaken (s : State) (region : Nat) : Prop :=
  (∀ l ∈ s.proxies ++ s.asked ++ s.noLines, l / 2 ^ 40 % 16 ≠ region) ∧
    (2 ≤ region → (∀ e ∈ s.tlb, e.lease ≠ some (region - 2)) ∧ ∀ e ∈ s.leases, e.1 + 2 ≠ region)

/-- A mismatch of an audit (R416): its bit and the count of events in GLOWSTAT. -/
def mismatched (link : Nat) (x : DWord) : DWord :=
  BitVec.ofNat 64 ((x.toNat ||| 2 ^ link) % 2 ^ 24 + min (fld x 24 8 + 1) 255 * 2 ^ 24)

end Sys2Proof.Claims

section
open Sys2Proof Sys2Proof.Machine Sys2Proof.Claims

/-- R307, R353, R356, R361, R419, R428 and R432: reads, writes and atomics of peers perform at the home slice and are answered; a fenced peer is
refused; lines that this device asked for arrive in its proxy slices with data, poison or a refusal. What a message's tag and operation name, and that
a read of a whole line takes a guest copy, are the model's readings (log entries 20, 38 and 76). -/
def Obligations.MessagesOfPeers : Prop :=
  (∀ s link addr len tag, Still s → link < 12 → 0 < len → addr + len ≤ 2 ^ 48 → CanSend s link 1 (flits 2 len) → ¬ (addr % 256 = 0 ∧ len = 256) →
    (s.contstat.getLsbD (2 + link) = false → ∃ ks, Reads (.gollysRead link addr len tag) s { s with
      links := ks, out := .flit link 4 [tag, 0] (s.mem.bytes addr len) :: s.out }) ∧
    (s.contstat.getLsbD (2 + link) = true → ∃ ls, exec (.gollysRead link addr len tag) s = .next { s with links := ls, out := .flit link 4 [tag, 3] [] :: s.out })) ∧
  (∀ s link addr tag bs, Still s → NoMigration s → link < 12 → bs ≠ [] → addr + bs.length ≤ 2 ^ 48 → CanSend s link 1 1 → s.contstat.getLsbD (2 + link) = false →
    ∃ ks, Writes (.gollysWrite link addr tag bs) s { s with
      links := ks, nextUid := s.nextUid + 1, out := .flit link 4 [tag, 1] [] :: s.out, mem := s.mem.writes addr bs }) ∧
  (∀ s link (op : Fin 8) addr tag x y, Still s → NoMigration s → link < 12 → addr % 4 = 0 → addr + 4 ≤ 2 ^ 48 → CanSend s link 1 1 →
    s.contstat.getLsbD (2 + link) = false →
    let old : Word := BitVec.ofNat 32 (s.num addr 4)
    let new : Word := ([old + x, if old.sle x then old else x, if x.sle old then old else x, old &&& x, old ||| x, old ^^^ x, x, if old = x then y else old] :
      List Word).getD op.val 0
    ∃ ks, Writes (.gollysAtomic link op addr tag x y) s { s with
      links := ks, nextUid := s.nextUid + 1
      out := .flit link 4 [tag, 0] (leBytes 4 old.toNat) :: s.out, mem := s.mem.writes addr (leBytes 4 new.toNat) }) ∧
  (∀ s link tag (bs : List Byte), s.stores = [] → s.poison = [] → (∀ e ∈ s.l2, e.line < 2 ^ 40) → link < 12 → bs.length = 256 → tag < 2 ^ 40 →
    let line := (2 + link) * 2 ^ 40 + tag
    line ∈ s.asked →
    let rest := s.asked.filter fun l => decide (l ≠ line)
    let held := if line ∈ s.proxies then s.proxies else line :: s.proxies
    (∃ ks, Reads (.gollysResponse link tag 0 bs) s { s with
      links := ks, asked := rest, proxies := held, mem := s.mem.writes (line * 256) bs }) ∧
    (∃ t, exec (.gollysResponse link tag 2 bs) s = .next t ∧ t.asked = rest ∧ ∀ k < 64, line * 256 + 4 * k ∈ t.poison) ∧
    ∃ ls, exec (.gollysResponse link tag 3 bs) s = .next { s with links := ls, asked := rest, noLines := line :: s.noLines }) ∧
  ∀ s line ex (bs : List Byte), s.stores = [] → s.poison = [] → (∀ e ∈ s.l2, e.line < 2 ^ 40) → bs.length = 256 → line ∈ s.asked → line / 2 ^ 40 = 1 →
    Reads (.cxlCacheResponse line ex bs) s { s with
      asked := s.asked.filter fun l => decide (l ≠ line), proxies := if line ∈ s.proxies then s.proxies else line :: s.proxies
      exclusive := if ex then line :: s.exclusive.filter (fun l => decide (l ≠ line)) else s.exclusive, mem := s.mem.writes (line * 256) bs }

/-- R361, R362, R415, R416, R427, R430 and R432 to R436: idle flits return permits and acknowledge; audits compare the permits that are held, returned
and occupied with the link's total; flits that fail are asked for again, and those that the far end asks for go out again; recalibrations and their
time-out; lanes fail and links go down and come up. How an acknowledgement that rides on a message arrives is the model's reading (log entry 39). That
flits queue for permits, and where SEQ starts, are the model's reading (log entry 39). -/
def Obligations.LinksAndAudits : Prop :=
  (∀ s link ack (vc : Fin 4) n own, s.stores = [] → LinkUp s link → (linkOf s link).queue = [] →
    let l := linkOf s link
    let known : Bool := l.unacked.any fun f => f.seq == ack
    exec (.idle link ack (vc, n) own) s = .next (withLink link { (if own then arrived s link 4 1 else l) with
      permits := modAt l.permits vc fun p => p + n, audit := l.audit.map fun a => (a.1, a.2 + n)
      unacked := if known then (l.unacked.dropWhile fun f => f.seq != ack).drop 1 else l.unacked, replays := if known then 0 else l.replays } s)) ∧
  (∀ s link, s.stores = [] → LinkUp s link → (linkOf s link).queue = [] → link < 12 ∨ (linkOf s link).unacked = [] → (linkOf s link).sentIdle + 150 ≤ s.clock →
    ∃ l, exec (.idleSend link) s = .next { withLink link l s with out := .flit link 0x13 [] [] :: s.out } ∧ l.sentIdle = s.clock ∧
      l.seq = ((linkOf s link).seq + 1) % 4096 ∧ l.permits.take 4 = (linkOf s link).permits.take 4) ∧
  (∀ s (dir : Fin 2) (payload : List Byte), s.stores = [] → CanSend s (12 + dir) 0 (flits 0 payload.length) → (linkOf s (12 + dir)).unacked = [] →
    ∃ l, exec (.bridgeMessage dir payload) s = .next { withLink (12 + dir) l s with out := .flit (12 + dir) 0x14 [] payload :: s.out } ∧
      l.permits.take 4 = (linkOf s (12 + dir)).permits.take 4 ∧ l.unacked = [] ∧ l.seq = ((linkOf s (12 + dir)).seq + flits 0 payload.length) % 4096) ∧
  (∀ s link last (flit : List Byte), s.stores = [] → link < 14 → LinkUp s link →
    let l := linkOf s link
    (l.unacked ≠ [] → (∀ f ∈ l.unacked, f.seq ≠ last) → l.replays < 8 → exec (.crcFailureReplay (link, last, [])) s =
      .next { withLink link { l with replays := l.replays + 1 } s with out := .replay link l.unacked :: s.out }) ∧
    (flit ≠ [] → flitFits link flit = false → l.failed < 8 → exec (.crcFailureReplay (link, last, flit)) s =
      .next { withLink link { l with failed := l.failed + 1 } s with out := .askReplay link l.ack :: s.out }) ∧
    (flit ≠ [] → flitFits link flit = true → exec (.crcFailureReplay (link, last, flit)) s = .next s) ∧
    (Still s → NoMigration s → link < 12 → flit ≠ [] → flitFits link flit = false → 8 ≤ l.failed →
      ∃ t, exec (.crcFailureReplay (link, last, flit)) s = .next t ∧ (linkOf t link).up = false ∧ t.contstat.getLsbD (2 + link) = true)) ∧
  (∀ s link, Still s → NoMigration s → link < 12 → LinkUp s link → s.contstat.getLsbD (2 + link) = false →
    ∃ t, exec (.linkDown link) s = .next t ∧ (linkOf t link).up = false ∧ t.contstat.getLsbD (2 + link) = true ∧ Forsaken t (2 + link)) ∧
  (∀ s link, Still s → NoMigration s → 12 ≤ link → link < 22 → s.frozen = false → exec (.linkDown link) s =
    .next { s with frozen := true, restarting := none, out := .msix 5 :: s.out }) ∧
  (∀ s link, s.stores = [] → link < 12 → link < s.links.length → link ∉ s.linksOut → (linkOf s link).up = false → (linkOf s link).queue = [] → AllPerformed s →
    (∀ c ∈ s.cores, ∀ l ∈ c.2.l1, ∀ w ∈ l.words, w.2.dirty = 0) → ∃ l, exec (.linkUp link) s =
    .next { withLink link l s with out := .flit link 0x12 [] [] :: s.out } ∧ l.up = true ∧ l.slots = [0, 0, 0, 0] ∧ l.permits.take 4 = (linkOf s link).totals.take 4) ∧
  (∀ s link, s.stores = [] → link < 12 → LinkUp s link → exec (.laneFailure link) s = .next (withLink link { linkOf s link with lanes := 4 } s)) ∧
  (∀ s, s.stores = [] → s.hostlanes = 16 → exec (.laneFailure 22) s = .next { s with hostlanes := 8 }) ∧
  (∀ s link, s.stores = [] → link < 14 → LinkUp s link → (linkOf s link).queue = [] → (linkOf s link).recal = none → (linkOf s link).audit = none →
    (linkOf s link).audited + 15000 ≤ s.clock →
    ∃ l, exec (.glowwormAudit link) s = .next { withLink link l s with out := .flit link 0x10 [] [] :: s.out } ∧ l.audited = s.clock ∧
      l.audit = some ((linkOf s link).permits.sum, 0)) ∧
  (∀ s link, s.stores = [] → LinkUp s link → (linkOf s link).queue = [] → ∃ ls, exec (.gollysAuditMarker link) s = .next { s with
    links := ls, out := .flit link 0x11 [(linkOf s link).slots.sum] [] :: s.out }) ∧
  (∀ s link o h r, s.stores = [] → link < 14 → LinkUp s link → (linkOf s link).recal = none → (linkOf s link).audit = some (h, r) →
    (h + r + o = s.glowtotal.getD link 0 → exec (.gollysAuditEcho link o) s = .next (withLink link { arrived s link 4 1 with audit := none } s)) ∧
    (h + r + o ≠ s.glowtotal.getD link 0 → link < 12 → exec (.gollysAuditEcho link o) s = .next { withLink link
      { arrived s link 4 1 with audit := none, recal := some ⟨s.clock, false⟩ } s with glowstat := mismatched link s.glowstat, out := .msix 3 :: s.out })) ∧
  (∀ s link, s.stores = [] → link < 14 → LinkUp s link →
    ((linkOf s link).recal = none → link < 12 →
      exec (.liveRecalibration link) s = .next (withLink link { linkOf s link with recal := some ⟨s.clock, false⟩ } s)) ∧
    (12 ≤ link → (∀ i, i = 12 ∨ i = 13 → LinkUp s i ∧ (linkOf s i).recal = none) → ∃ t, exec (.liveRecalibration link) s = .next t ∧
      ∀ i, i = 12 ∨ i = 13 → linkOf t i = { linkOf s i with recal := some ⟨s.clock, false⟩ }) ∧
    ((linkOf s link).recal ≠ none → (linkOf s link).unacked = [] → (linkOf s link).queue = [] → ∃ l, exec (.liveRecalibration link) s = .next (withLink link l s) ∧
      l.recal = none ∧ l.permits = (linkOf s link).totals ∧ l.slots = [0, 0, 0, 0])) ∧
  ∀ s link (r : Recal), Still s → link < 14 → LinkUp s link → (linkOf s link).recal = some r → r.start + 300000 ≤ s.clock →
    (r.again = false → exec (.recalibrationTimeout link) s = .next (withLink link { linkOf s link with recal := some ⟨s.clock, true⟩ } s)) ∧
    (r.again = true → link < 12 → s.contstat.getLsbD (2 + link) = false →
      ∃ t, exec (.recalibrationTimeout link) s = .next t ∧ (linkOf t link).up = false ∧ t.contstat.getLsbD (2 + link) = true)

end

namespace Sys2Proof.Claims
open Sys2Proof Sys2Proof.Machine

/-- A port of a state. -/
def portOf (s : State) (k : Nat) : Isais := s.isais.getD k Isais.blank

/-- The port can send a request of a TAG (R437, R439). -/
def CanRequest (s : State) (k tag : Nat) : Prop :=
  k < 8 ∧ s.isais.length = 8 ∧ tag < 2048 ∧ (portOf s k).outstanding = [] ∧ (portOf s k).recal = none

/-- A request is outstanding and stands in the replay buffer (R441), and is replied to with a status, about a burst with its poison marks. -/
def Replied (i : Instr) (k tag st addr marks : Nat) (beats : List Byte) (s after : State) : Prop :=
  ∃ buf, (buf.getLast?.map fun m => m.1) = some tag ∧ exec i s = .next { after with
    isais := s.isais.set k { portOf s k with outstanding := [⟨tag, s.clock, 0⟩], buffer := buf }
    out := .isais k (headBeat 9 (channelOf' addr) tag addr marks st beats) beats :: after.out }

/-- The channel of a burst is present (R442). -/
def Present (s : State) (k a : Nat) : Prop := (portOf s k).capability.getLsbD (24 + channelOf' a) = true

/-- No row of the stack is retired and unspared. -/
def Sound (s : State) (k : Nat) : Prop := (portOf s k).retired = []

/-- Memory after the bytes of a burst that a mask names are written. -/
def maskedWrite (m : Mem) (a : Nat) (mask : BitVec 64) (bs : List Byte) : Mem :=
  ((List.range 64).filter fun i => mask.getLsbD i).foldl (fun m i => m.write (a + i) (bs.getD i 0)) m

/-- A COPY command beat (R443): CMD 1, N bursts, source and destination. -/
def copyBeat (n src dst : Nat) : BitVec 128 := BitVec.ofNat 128 (1 + n * 2 ^ 4 + src / 64 * 2 ^ 18 + dst / 64 * 2 ^ 64)

/-- An entry of the error log (R421) is free, and the ring holds its position. -/
def LogFree (s : State) : Prop := s.errlog.pos < s.errlog.slots.length ∧ (s.errlog.slots.getD s.errlog.pos (0, 0)).1.getLsbD 63 = false

/-- The group of an identity is the issuing one. -/
def Focused (s : State) (uid : Nat) : Prop := s.grp.live = true ∧ s.grp.uid = uid

end Sys2Proof.Claims

section
open Sys2Proof Sys2Proof.Machine Sys2Proof.Claims

/-- R415, R437 to R443: reads and masked writes of bursts, capability reads, scripts, replies, audits, replays and time-outs of the Isais ports. That a base
die answers in the step of the request is the model's choice (log entry 42). -/
def Obligations.RequestsOfStacks : Prop :=
  (∀ s k tag a, s.stores = [] → s.poison = [] → s.raws = [] → CanRequest s k tag → a % 64 = 0 → a < 2 ^ 48 →
    (Present s k a → Replied (.isaisRead k tag a) k tag 0 a 0 (s.mem.bytes a 64) s s) ∧
    (¬ Present s k a → Replied (.isaisRead k tag a) k tag 3 a 0xFFFF (List.replicate 64 0) s s)) ∧
  (∀ s k tag a (mask : BitVec 64) (bs : List Byte), s.stores = [] → s.poison = [] → s.raws = [] → CanRequest s k tag → a % 64 = 0 → a < 2 ^ 48 →
    bs.length = 64 → Present s k a → Sound s k →
    Replied (.maskedWrite k tag a mask bs 0) k tag 0 a 0 [] s { s with mem := maskedWrite s.mem a mask bs }) ∧
  (∀ s k tag, s.stores = [] → CanRequest s k tag →
    Replied (.capabilityRead k tag) k tag 0 0 0 (leBytes 16 (portOf s k).capability.toNat) s s) ∧
  (∀ s k tag n src dst, MemOk s → s.poison = [] → s.raws = [] → CanRequest s k tag → Sound s k → (portOf s k).capability.toNat / 2 ^ 80 % 256 ≠ 0 →
    src % 64 = 0 → dst % 64 = 0 → src < 2 ^ 48 → dst < 2 ^ 48 → stack src = k → stack dst = k → 1 ≤ n → n ≤ 64 → src % 4096 + 64 * n ≤ 4096 →
    dst % 4096 + 64 * n ≤ 4096 → Apart2 src (64 * n) dst (64 * n) → (∀ i < n, Present s k (src + 64 * i) ∧ Present s k (dst + 64 * i)) →
    Replied (.script k tag [copyBeat n src dst] false) k tag 0 0 0 (leBytes 16 1) s { s with mem := s.mem.writes dst (s.mem.bytes src (64 * n)) }) ∧
  (∀ s k tag (c : BitVec 128), s.stores = [] → CanRequest s k tag → c.toNat % 16 = 0 ∨ 3 < c.toNat % 16 →
    Replied (.script k tag [c] false) k tag 5 0 0 (leBytes 16 0) s s) ∧
  (∀ s k tag, s.stores = [] → CanRequest s k tag → ∃ buf, exec (.script k tag [] false) s = .next { s with
    isais := s.isais.set k { portOf s k with outstanding := [⟨tag, s.clock, 1⟩], buffer := buf }
    out := .isais k (headBeat 7 0 tag 0 0 0 []) [] :: s.out }) ∧
  (∀ s k tag st t n, s.stores = [] → k < s.isais.length → st ≤ 5 → (portOf s k).outstanding = [⟨tag, t, n⟩] →
    exec (.isaisReply k tag st) s = .next { s with isais := s.isais.set k { portOf s k with
      outstanding := [], audit := (portOf s k).audit.map fun a => (a.1, a.2 + 1), buffer := (portOf s k).buffer.filter fun m => m.1 != tag } }) ∧
  (∀ s k, s.stores = [] → k < 8 →
    let beat := leBytes 16 ((portOf s k).held.length % 2 ^ 16)
    exec (.isaisAuditMarker k) s = .next { s with out := .isais k (headBeat 11 0 0 0 0 0 beat) beat :: s.out }) ∧
  (∀ s k o h r, s.stores = [] → k < s.isais.length → (portOf s k).audit = some (h, r) → h + r + o = s.glowtotal.getD (14 + k) 0 →
    exec (.isaisAuditEcho k o) s = .next { s with isais := s.isais.set k { portOf s k with audit := none } }) ∧
  (∀ s k tag t n head beats (f : List Byte), s.stores = [] → k < 8 → k < s.isais.length → (portOf s k).outstanding = [⟨tag, t, n⟩] →
    ((portOf s k).buffer.find? fun m => m.1 == tag) = some (tag, head, beats) →
    (n < 8 → exec (.crcFailureReplay (14 + k, tag, f)) s = .next { s with
      isais := s.isais.set k { portOf s k with outstanding := [⟨tag, t, n + 1⟩] }, out := .isais k head beats :: s.out }) ∧
    (8 ≤ n → s.frozen = false → exec (.crcFailureReplay (14 + k, tag, f)) s =
      .next { s with frozen := true, restarting := none, out := .msix 5 :: s.out })) ∧
  ∀ s k tag t n, s.stores = [] → (portOf s k).outstanding = [⟨tag, t, n⟩] → t + 15000 ≤ s.clock → s.frozen = false →
    exec (.isaisRequestTimeout k tag) s = .next { s with frozen := true, restarting := none, out := .msix 5 :: s.out }

/-- R418 to R423 and R438: poison and scrub reports, calibration steps, the Weevil's patrol and its compare-write, and uncorrectable errors in a
group's state. That a report which marks a new word logs one error for it is the model's reading (log entry 62). Where the bursts of a row lie, and
what a report of corrected errors logs, are the model's (log entries 11 and 40). -/
def Obligations.ErrorsAndScrubbing : Prop :=
  (∀ s k a (m : BitVec 16), s.stores = [] → k < 8 → a % 64 = 0 → ∃ ps rs lg es o,
    exec (.poisonReport k a m) s = .next { s with poison := ps, raws := rs, errlog := lg, errstat := es, out := o } ∧
    (m ≠ 0 → (⟨a, s.mem.bytes a 64, false⟩ : RawError) ∈ rs) ∧
    (∀ i : Fin 16, m.getLsbD i = true → a + 4 * i.val ∈ ps) ∧
    (∀ w, (∀ i : Fin 16, m.getLsbD i = true → w ≠ a + 4 * i.val) → (w ∈ ps ↔ w ∈ s.poison)) ∧
    ((∀ i : Fin 16, m.getLsbD i = true → a + 4 * i.val ∈ s.poison) → lg = s.errlog ∧ es = s.errstat ∧ o = s.out) ∧
    ((∃ i : Fin 16, m.getLsbD i = true ∧ a + 4 * i.val ∉ s.poison) → LogFree s →
      ∃ i : Fin 16, m.getLsbD i = true ∧ a + 4 * i.val ∉ s.poison ∧
        lg.slots.getD s.errlog.pos (0, 0) = (BitVec.ofNat 64 ((a + 4 * i.val) % 2 ^ 52 + 2 ^ 63), BitVec.ofNat 64 s.clock))) ∧
  (∀ s k a row n kind, s.stores = [] → k < 8 → n < 2 ^ 16 →
    (0 < n → exec (.scrubReport k (a, row) n kind) s = .next { s with
      errstat := BitVec.ofNat 64 (min (s.errstat.toNat % 2 ^ 32 + n) (2 ^ 32 - 1) + s.errstat.toNat / 2 ^ 32 * 2 ^ 32) }) ∧
    (kind ≤ 2 → LogFree s → ∃ t, exec (.scrubReport k (a, row) 0 kind) s = .next t ∧
      t.errlog.slots.getD s.errlog.pos (0, 0) = (BitVec.ofNat 64 (a % 2 ^ 52 + kind * 2 ^ 56 + 2 ^ 63), BitVec.ofNat 64 s.clock))) ∧
  (∀ s k tag len, s.stores = [] → CanRequest s k tag → len ≤ 4 →
    exec (.calibration k (none, len)) s = .next s ∧ Replied (.calibration k (some tag, len)) k tag 0 0 0 [] s s) ∧
  (∀ s k tag a (bs ex raw : List Byte), s.stores = [] → k < 8 → a % 64 = 0 → a < 2 ^ 48 → bs.length = 64 → ex.length = 80 → Present s k a → Sound s k →
    s.raws = [⟨a, raw, true⟩] → (∀ e ∈ s.l2, e.line = a / 256 → e.dirty = false) →
    let after : State := if ex = raw then { s with raws := [], mem := s.mem.writes a bs } else s
    exec (.compareWrite k none a (bs, ex)) s = .next after ∧
    (CanRequest s k tag → Replied (.compareWrite k (some tag) a (bs, ex)) k tag (if ex = raw then 0 else 4) a 0 [] s after)) ∧
  (∀ s (ch : Fin 256), s.stores = [] → (look s.weevil ch 0x118).getLsbD 8 = true →
    let row := fld (look s.weevil ch 0x118) 32 32
    let at_ := Config.burstAt ch row (look s.weevilAt ch 0)
    let a := at_ / 64 * 64
    (∃ w n, exec (.weevilBurst ch false false) s = .next { s with weevil := w, weevilAt := n } ∧
      let last := Config.burstsPerRow ≤ look s.weevilAt ch 0 + 1
      look n ch 0 = (if last then 0 else look s.weevilAt ch 0 + 1) ∧
      fld (look w ch 0x118) 32 32 = (if last then (row + 1) % Config.rowsPerChannel % 2 ^ 32 else row)) ∧
    (s.raws = [] → ∃ t raw, exec (.weevilBurst ch true false) s = .next t ∧ t.raws = [⟨a, raw, true⟩] ∧ t.mem = s.mem ∧
      t.out = .isais (ch.val / 32) (headBeat 3 (ch.val % 32) 0 (at_ % 2 ^ 52) 0 0 (s.mem.bytes a 64 ++ raw)) (s.mem.bytes a 64 ++ raw) :: s.out ∧
      t.errstat = BitVec.ofNat 64 (min (s.errstat.toNat % 2 ^ 32 + 1) (2 ^ 32 - 1) + s.errstat.toNat / 2 ^ 32 * 2 ^ 32)) ∧
    (LogFree s → ∀ corrected, ∃ t, exec (.weevilBurst ch corrected true) s = .next t ∧ (∀ i : Fin 16, a + 4 * i.val ∈ t.poison) ∧ t.mem = s.mem ∧
      (t.errlog.slots.getD s.errlog.pos (0, 0)).1.getLsbD 63 = true)) ∧
  ∀ s uid i, s.stores = [] → Focused s uid →
    (∃ t, exec (.uncorrectableStateError uid 3 i) s = .next t ∧ i / 4 * 4 ∈ t.grp.scratchPoison ∧ t.grp.stop = s.grp.stop) ∧
    (∃ t, exec (.uncorrectableStateError uid 4 i) s = .next t ∧ i ∈ t.grp.obufPoison ∧ t.grp.stop = s.grp.stop) ∧
    ∀ array, array = 5 ∨ array = 6 →
      (s.grp.task.repl = false → ∃ t, exec (.uncorrectableStateError uid array i) s = .next t ∧ t.grp.stop = some (s.grp.stop.getD 3) ∧
        ∀ w ∈ t.grp.all, w.ended = true) ∧
      (s.grp.task.repl = true → ∃ t, exec (.uncorrectableStateError uid array i) s = .next t ∧
        t.discards = s.discards ++ [(s.grp.task.ctx, s.grp.task.launch)] ∧ t.grp = s.grp)

end

namespace Sys2Proof.Claims
open Sys2Proof Sys2Proof.Machine

/-- A signed object that boot accepts (R444, R445): verified, and its body is of its KIND. -/
def Genuine (o : SignedObject) : Prop := Config.verifies o = true ∧ kindFits o = true

/-- GLOWTOTAL of the 14 links, the sums of their permits, and of the 8 ports (R433, R436, R439). -/
def permitSums (c : ConfigRecord) : List Nat := (List.range 22).map fun i => if i < 14 then (c.permits.getD i []).sum else 2048

/-- What a boot leaves, memory apart, whose objects are an image for slot A and the configuration record of its manifest (R444, R446, R447): every
register at its Reset value or as the record gives it, the image running, every link trained at its totals; what has been sent stands. -/
def booted (image record : SignedObject) (m : List (Nat × Nat)) (c : ConfigRecord) (s : State) : State :=
  { State.reset with
    poison := s.poison, raws := s.raws, out := s.out, inbox := s.inbox, nextUid := s.nextUid, nfree := s.nfree + 1
    bootstat := 6, applied := [image, record], minVersions := m, slots := [(0, image.version)], hostlanes := 16, glowtotal := permitSums c
    links := (List.range 14).map fun i => { Link.blank with
      up := true, totals := c.permits.getD i [0, 0, 0, 0], permits := c.permits.getD i [0, 0, 0, 0], export_ := c.exports.getD i 0 }
    isais := (List.range 8).map fun k => { Isais.blank with capability := c.capability.getD k 0 }
    frameTable := c.frameTable, poolBase := c.poolBase, poolPerCore := c.poolPerCore, caphead := BitVec.ofNat 32 c.capHead
    caps := c.capList }

/-- The bytes of the frame table of a configuration record: 8 for each 512 KiB of the stacks' capacities (R398, R442). -/
def InFrameTable (c : ConfigRecord) (a : Nat) : Prop :=
  c.frameTable ≤ a ∧ a < c.frameTable + 8 * (((List.range 8).map fun k => (c.capability.getD k 0).toNat / 2 ^ 12 % 2 ^ 12).sum * 2 ^ 11)

/-- A line of device memory that the die's own L2 holds dirty: its bytes are lost at a reset (R426). -/
def Lost (e : L2Line) : Prop := e.dirty = true ∧ e.guest = false ∧ e.line < 2 ^ 40

/-- The machine of a reset before the boot's objects have come (R444): memory, and what has been sent, stand. -/
def unbooted (s : State) : State :=
  { State.reset with mem := s.mem, poison := s.poison, raws := s.raws, out := s.out, inbox := s.inbox, nextUid := s.nextUid, nfree := s.nfree, bootstat := 1 }

/-- A verified image or record of its KIND, not below the lowest VERSION that the image accepts (R445). -/
def Accepted (s : State) (kind : Nat) (o : SignedObject) : Prop := Genuine o ∧ o.kind = kind ∧ look s.minVersions kind 0 ≤ o.version

/-- VER of an entry that a configuration record lists (R449): the record's for a new entry, one higher where the body changes. The bodies of the core map,
the stacks, the firmware slots and the attestation follow the machine. -/
def renewed (s : State) (e : Nat × Nat × Nat × List Byte) : Nat :=
  match s.caps.find? fun o => decide (o.1 = e.1 ∧ o.2.1 = e.2.1) with
  | some o => if o.2.2.2 = e.2.2.2 ∨ e.2.1 = 2 ∨ (e.2.1 = 3 ∧ s.isais ≠ []) ∨ e.2.1 = 6 ∨ e.2.1 = 7 then o.2.2.1 else (o.2.2.1 + 1) % 256
  | none => e.2.2.1

/-- A capability list as before, but that VER of the entries whose bodies have changed is one higher (R449). -/
def Renewed (changed : Nat → Nat × Nat × Nat × List Byte → Prop) (caps new : List (Nat × Nat × Nat × List Byte)) : Prop :=
  new.length = caps.length ∧ ∀ n e, caps[n]? = some e → ∃ v, new[n]? = some (e.1, e.2.1, v, e.2.2.2) ∧
    (changed n e → v = (e.2.2.1 + 1) % 256) ∧ (¬ changed n e → v = e.2.2.1)

/-- A change of the body of an entry of an ID, of which the list gives the first LEN bytes. -/
def bodyOf (id : Nat) (old new : List Byte) (_ : Nat) (e : Nat × Nat × Nat × List Byte) : Prop :=
  e.2.1 = id ∧ old.take e.2.2.2.length ≠ new.take e.2.2.2.length

/-- A change of the beat of a stack: the body of the entry of ID 3 that is the stack's. -/
def beatOf (caps : List (Nat × Nat × Nat × List Byte)) (k : Nat) (old new : BitVec 128) (n : Nat) (e : Nat × Nat × Nat × List Byte) : Prop :=
  bodyOf 3 (leBytes 16 old.toNat) (leBytes 16 new.toNat) n e ∧ ((caps.take n).filter fun c => decide (c.2.1 = 3)).length = k

/-- The bodies of the firmware slots and of the core map (R2, R449). -/
def slotBytes (slots : List (Nat × Nat)) : List Byte := leBytes 4 (look slots 0 0) ++ leBytes 4 (look slots 1 0)
def mapBytes (m : List (List Nat)) : List Byte := (List.range 288).map fun c => BitVec.ofNat 8 ((m.getD (c / 144) []).getD (c % 144) (c % 144))

end Sys2Proof.Claims

section
open Sys2Proof Sys2Proof.Machine Sys2Proof.Claims

/-- R11, R398, R425, R426, R444, R446 and R447: a device fault, FREEZE# and FREEZE freeze the device and signal the host; a reset boots from the image
of slot A with the configuration record that its manifest names, which fills the fields whose Reset is L; the frame records take their Reset value 0, and
lines dirty in L2 are lost; ERR and a later retry where a step fails; DEVCMD in the window. The slots of a boot's objects, that memory outlives the reset, and that a boot needs a configuration record are the model's
choices (log entries 4, 43 and 84). -/
def Obligations.FreezeResetAndBoot : Prop :=
  (∀ s, s.stores = [] → s.frozen = false → ∀ i ∈ [Instr.freezeL, .devcmdFreeze, .deviceFault 1 0, .deviceFault 2 0, .registerWrite true 0x10 2],
    exec i s = .next { s with frozen := true, restarting := none, out := .msix 5 :: s.out }) ∧
  (∀ s, s.stores = [] → s.frozen = false → (∀ e ∈ s.l2, ¬ Lost e) →
    exec (.registerWrite true 0x10 1) s = .next { unbooted s with retryAt := some 0 } ∧
    exec (.registerWrite true 0x10 3) s = .next { unbooted s with retryAt := some 0, out := .msix 5 :: s.out }) ∧
  (∀ s x, s.stores = [] → s.frozen = false → ∃ t, exec (.deviceFault 0 x) s = .next t ∧ t.frozen = true) ∧
  (∀ s (image record : SignedObject) m c, MemOk s → Genuine image → image.kind = 1 → image.body = .image m [(2, record.version)] → Genuine record → record.kind = 2 →
    record.body = .configuration c → look m 2 0 ≤ record.version → Config.trains s.nfree = true →
    (∀ i ∈ [Instr.deviceReset [image, record], .devcmdReset [image, record]], ∃ mem, exec i s = .next { booted image record m c s with mem := mem } ∧
      (∀ a, (InFrameTable c a → mem.read a = 0) ∧ (¬ InFrameTable c a → (∀ e ∈ s.l2, Lost e → e.line ≠ a / 256) → mem.read a = s.mem.read a)) ∧
      ∀ e ∈ s.l2, Lost e → (∀ f ∈ s.l2, Lost f → f.line = e.line → f = e) → e.old.length = 256 →
        ∀ n < 256, ¬ InFrameTable c (e.line * 256 + n) → mem.read (e.line * 256 + n) = e.old.getD n 0) ∧
    (∀ t, s.retryAt = some t → t ≤ s.clock → s.bootstat.toNat % 8 < 6 → s.linksOut = [] → ∃ u, exec (.bootRetry [image, record]) s = .next u ∧
      u.bootstat = 6 ∧ u.retryAt = none ∧ u.applied = (s.applied.filter fun o => decide (o.kind ≠ 1)) ++ [image, record] ∧ u.frameTable = c.frameTable ∧
      ∀ l ∈ u.links, l.up = true ∧ l.permits = l.totals)) ∧
  (∀ s, s.stores = [] → (∀ e ∈ s.l2, ¬ Lost e) → ∀ i ∈ [Instr.deviceReset [], .devcmdReset []],
    exec i s = .next { unbooted s with bootstat := 0x11, retryAt := some 15000000000 }) ∧
  ∀ s (image : SignedObject), s.stores = [] → image.kind = 1 → Config.verifies image = false →
    ∃ t, exec (.deviceReset [image]) s = .next t ∧ t.bootstat = 0x22 ∧ t.links = State.reset.links

/-- R445, R446, R449 to R451: images, configuration and repair records, and spare maps are applied in operation, a new image after the four control cores
have restarted; attestation reports. The order of the report's fields is the model's (log entry 7), and so is the first VER of a new entry and what the
bodies of the firmware slots and the core map look like (log entry 70), and how SPARES counts a spare row (log entry 85). -/
def Obligations.ServiceAndAttestation : Prop :=
  (∀ s (o : SignedObject), s.stores = [] → s.inbox = [] → Accepted s 1 o →
    let slots := put s.slots (1 - s.bootstat.toNat / 8 % 2) o.version
    ∃ caps, Renewed (bodyOf 6 (slotBytes s.slots) (slotBytes slots)) s.caps caps ∧
      exec (.firmwareUpdate o) s = .next { s with slots := slots, restarting := some (4, o), caps := caps }) ∧
  (∀ s (o : SignedObject) m f n, o.kind = 1 → o.body = .image m f → s.restarting = some (n, o) → restartNext s =
    if 1 < n then { s with restarting := some (n - 1, o) }
    else { s with
      restarting := none, minVersions := m, applied := (s.applied.filter fun a => decide (a.kind ≠ 1)) ++ [o]
      bootstat := BitVec.ofNat 32 (s.bootstat.toNat % 8 + (1 - s.bootstat.toNat / 8 % 2) * 8) }) ∧
  (∀ s (o : SignedObject) (c : ConfigRecord), s.stores = [] → s.inbox = [] → Accepted s 2 o →
    (∀ p, (s.applied.filter fun a => decide (a.kind = 2)).getLast? = some p → p.version < o.version) → 0 < o.version → o.body = .configuration c →
    ∃ ls is, exec (.configurationRecord o) s = .next { s with
      applied := s.applied ++ [o], links := ls, isais := is, frameTable := c.frameTable, poolBase := c.poolBase, poolPerCore := c.poolPerCore
      caphead := BitVec.ofNat 32 c.capHead, caps := c.capList.map (fun e => (e.1, e.2.1, renewed s e, e.2.2.2)), glowtotal := permitSums c } ∧
      ∀ i l, ls[i]? = some l → l.totals = c.permits.getD i [0, 0, 0, 0] ∧ l.export_ = c.exports.getD i 0) ∧
  (∀ s (o : SignedObject) channel row (k : Fin 8), s.stores = [] → s.inbox = [] → Accepted s 4 o → o.body = .repair [(channel, row)] [] [] → channel / 32 = k.val →
    s.isais.length = 8 → (portOf s k).retired = [] → (portOf s k).spared = [] → row < 2 ^ 32 → (portOf s k).capability.toNat / 2 ^ 64 % 2 ^ 16 < 2 ^ 16 - 1 →
    let key := channel % 32 * 2 ^ 32 + row
    let cap := (portOf s k).capability
    let p : Isais := if cap.toNat / 2 ^ 80 % 256 = 0 ∨ cap.toNat / 2 ^ 56 % 256 = 0
      then { portOf s k with retired := [key], capability := BitVec.ofNat 128 (cap.toNat + 2 ^ 64) }
      else { portOf s k with spared := [key], capability := BitVec.ofNat 128 (cap.toNat - 2 ^ 56) }
    ∃ caps, Renewed (beatOf s.caps k cap p.capability) s.caps caps ∧
      exec (.rowSparing o) s = .next { s with applied := s.applied ++ [o], linksOut := [], lanesOut := [], isais := s.isais.set k p, caps := caps }) ∧
  (∀ s (o : SignedObject) core m n, s.stores = [] → s.inbox = [] → Accepted s 3 o → o.body = .spareMap m n → (∀ g ∈ s.grp :: s.rest, g.live = true → g.core ≠ core) →
    ∃ t, exec (.spareCoreSwap core o) s = .next t ∧ t.spareMap = [m, n] ∧ t.applied = s.applied ++ [o] ∧
      Renewed (bodyOf 2 (mapBytes s.spareMap) (mapBytes [m, n])) s.caps t.caps ∧ (t.core core).open_ = true) ∧
  (∀ s nonce, s.stores = [] → exec (.attestationNonce nonce) s = .next { s with attestation := ⟨nonce, true, false, []⟩ }) ∧
  ∀ s, s.stores = [] → s.attestation.busy = true →
    let head := leBytes 32 s.attestation.nonce.toNat ++ (s.applied.flatMap fun o => leBytes 4 o.kind ++ leBytes 4 o.version ++ Config.digest o) ++
      leBytes 8 s.serial
    exec .attestationReportReady s = .next { s with
      nfree := s.nfree + 1, attestation := ⟨s.attestation.nonce, false, true, head ++ Config.signature s.identity s.nfree head⟩ }

end

namespace Sys2Proof.Claims
open Sys2Proof Sys2Proof.Machine

/-- n bytes at a virtual address of a context lie within one coherent granule of device memory that the L3 banks of both dies hold (R385). -/
def HostPage (ctx n va pa : Nat) (s : State) : Prop :=
  va + n ≤ 2 ^ 56 ∧ va % 2 ^ 19 + n ≤ 2 ^ 19 ∧ pa + n ≤ 2 ^ 48 ∧ ∀ die < 2, ∃ e,
    (s.tlb.find? fun e => e.unit == bankOf die va && e.ctx == ctx && e.page ≤ va && va < e.page + e.size) = some e ∧
    e.nc = false ∧ e.lease = none ∧ pa = e.pa + (va - e.page)

/-- An event tries the host's submission of a descriptor in a context (R429). -/
def Tries (i : Instr) (ctx : Nat) (desc : DWord) (s : State) : Prop :=
  (∃ v : DWord, i = .hostsub v ∧ desc = BitVec.ofNat 64 (fld v 6 50 * 64) ∧ ctx = s.hostctx ∧ s.hostbusy = none) ∨
    (i = .hostSubmitRetry ∧ s.hostbusy = some ⟨desc, ctx, none, []⟩)

/-- The state once a host submission has its result (R429). -/
def hostDone (code : Nat) (s : State) : State := { s with hostresult := code, hostbusy := none, out := .msix 4 :: s.out }

/-- A write of the window changes one thing. -/
def Sets (off : Nat) (v : DWord) (s t : State) : Prop := exec (.registerWrite true off v) s = .next t

/-- SCHEDCFG (R331) and WEEVILCFG (R422) after a write: BALTHR and PERIOD at least 1, RESV at most 144, FLOOR and ROWPTR kept. -/
def schedWord (old v : DWord) : DWord := BitVec.ofNat 64
  (max 1 (fld v 0 8) + min 144 (fld v 8 8) * 2 ^ 8 + fld v 16 2 * 2 ^ 16 + fld old 18 1 * 2 ^ 18 + fld v 32 16 * 2 ^ 32)
def weevilWord (old v : DWord) : DWord := BitVec.ofNat 64 (max 1 (fld v 0 8) + fld v 8 1 * 2 ^ 8 + fld old 32 32 * 2 ^ 32)

/-- Offset of a word of a context block (R447). -/
def blockAt (ctx word : Nat) : Nat := 0x1000000 + 64 * ctx + 8 * word

/-- No command, group or migration of a context is under way (R448). -/
def Drained (s : State) (ctx : Nat) : Prop :=
  (∀ g ∈ s.grp :: s.rest, g.live = true → g.task.ctx ≠ ctx) ∧ (∀ f ∈ s.fabrics, f.ctx ≠ ctx) ∧ (∀ g ∈ s.gathers, g.ctx ≠ ctx) ∧
    ∀ m ∈ s.die0.migrations ++ s.die1.migrations, m.ctx ≠ ctx

end Sys2Proof.Claims

section
open Sys2Proof Sys2Proof.Machine Sys2Proof.Claims

/-- R10, R331, R364, R367, R380, R388, R398, R410, R416, R421, R422 and R447: privileged writes of the management window, and what a write without
privilege leaves. That a write of DEFHANDLER drops bit 0, that ROOT and FQBASE keep the bits written, and the layout of GLOWTOTAL are the model's
choices (log entries 48 and 71). Where the CXL.mem ranges stand is so too (log entry 46). -/
def Obligations.WindowWrites : Prop :=
  (∀ s (v : DWord), s.stores = [] →
    (∀ die < 2, Sets (0x100000 * (die + 1)) v s (s.modDie die fun d => { d with schedcfg := schedWord d.schedcfg v })) ∧
    Sets 0x300100 v s { s with contstat := BitVec.ofNat 32 (s.contstat.toNat % 2 ^ 14 + fld v 16 8 * 2 ^ 16) } ∧
    Sets 0x300108 v s { s with errstat := v &&& 0xFFFFFFFFFFFFFF } ∧
    (∀ k < 16, v.getLsbD 63 = true → Sets (0x300000 + 16 * k) v s { s with
      contlog := ⟨modAt s.contlog.slots k fun e => (e.1 &&& 0x7FFFFFFFFFFFFFFF, e.2), s.contlog.pos⟩ }) ∧
    (∀ k < 22, Sets (0x300400 + 2 * k) v s { s with glowtotal := modAt s.glowtotal k fun _ => fld v 0 16 }) ∧
    (∀ n < 16, ∀ word < 2, ∃ rs, Sets (0x2000 + 16 * n + 8 * word) v s { s with cxlRanges := rs } ∧ ∀ k, rs.getD k (0, 0) =
      let old := s.cxlRanges.getD k (0, 0)
      if k ≠ n then old else if word = 0 then (v.toNat, old.2) else (old.1, v.toNat)) ∧
    (∀ ch < 256, Sets (0x400000 + 8 * ch) v s { s with weevil := put s.weevil ch (weevilWord (look s.weevil ch 0x118) v) }) ∧
    ∀ ctx < 65536,
      Sets (blockAt ctx 0) v s (s.modCtx ctx fun c => { c with root := v }) ∧ Sets (blockAt ctx 1) v s (s.modCtx ctx fun c => { c with comb := v }) ∧
      Sets (blockAt ctx 2) v s (s.modCtx ctx fun c => { c with fqbase := v, fqprod := 0, fqcount := 0 }) ∧
      Sets (blockAt ctx 3) v s (s.modCtx ctx fun c => { c with fqsize := fld v 0 4, fqprod := 0, fqcount := 0 }) ∧
      (let ceiling := max 1 (min (fld v 33 17) 81920)
      Sets (blockAt ctx 4) v s (s.modCtx ctx fun c =>
        { c with hot := max 1 (fld v 0 8), basedie := v.getLsbD 8, ceiling := ceiling, quota := min c.quota ceiling })) ∧
      Sets (blockAt ctx 5) v s (s.modCtx ctx fun c => { c with defhandler := v.setWidth 56 &&& ~~~1 })) ∧
  (∀ s (v : DWord) frame, Still s → NoMigration s → frame * 2 ^ 19 < (s.isais.map fun p => p.capability.toNat / 2 ^ 12 % 2 ^ 12).sum * 2 ^ 30 →
    let old := s.num (s.frameTable + 8 * frame) 8
    Writes (.registerWrite true (0x2400000 + 8 * frame) v) s { s with
      mem := s.mem.writes (s.frameTable + 8 * frame) (leBytes 8 (fld v 0 17 + old / 2 ^ 17 % 2 ^ 13 * 2 ^ 17)) }) ∧
  ∀ s (v : DWord) off, s.stores = [] → off = 0x10 ∨ (0x2000 ≤ off ∧ off < 0x2100) ∨ off = 0x100000 ∨ off = 0x200000 ∨ off = 0x100008 ∨ off = 0x300100 ∨ off = 0x300108 ∨ 0x300400 ≤ off →
    exec (.registerWrite false off v) s = .next s

/-- R307, R361, R362, R427 and R428: host reads, writes and AtomicOps of device memory perform at the home slice and are answered under their tag; a
fenced host is refused until it rejoins. Where the CXL.mem ranges stand, that an access outside them is refused, and the numbers of the kinds are the
model's choices (log entry 46). -/
def Sys2Proof.Claims.HostAccesses : Prop :=
  (∀ s tag kind addr (bs : List Byte), s.stores = [] → s.contstat.getLsbD 1 = true → addr + bs.length ≤ 2 ^ 48 →
    exec (.hostAccess (tag, kind) addr bs) s = .next { s with out := .host (tag % 2 ^ 14) 3 [] :: s.out }) ∧
  (∀ s tag kind addr (bs : List Byte), s.stores = [] → (∀ r ∈ s.cxlRanges, addr < r.1 ∨ r.1 + r.2 < addr + bs.length / 2 ∨ (kind ≠ 4 ∧ r.1 + r.2 < addr + bs.length)) →
    addr + bs.length ≤ 2 ^ 48 →
    exec (.hostAccess (tag, kind) addr bs) s = .next { s with out := .host (tag % 2 ^ 14) 3 [] :: s.out }) ∧
  (∀ s tag addr (bs : List Byte), Still s → NoMigration s → s.contstat.getLsbD 1 = false → bs ≠ [] → addr + bs.length < 2 ^ 48 →
    (∃ r ∈ s.cxlRanges, r.1 ≤ addr ∧ addr + bs.length ≤ r.1 + r.2) →
    let answers (st : Nat) (data : List Byte) : State := { s with out := .host (tag % 2 ^ 14) st data :: s.out }
    Reads (.hostAccess (tag, 0) addr bs) s (answers 0 (s.mem.bytes addr bs.length)) ∧
    Writes (.hostAccess (tag, 1) addr bs) s { answers 1 [] with nextUid := s.nextUid + 1, mem := s.mem.writes addr bs } ∧
    (bs.length = 4 ∨ bs.length = 8 →
      let n := bs.length
      let old := s.num addr n
      let performs (i : Instr) (new : Nat) : Prop := Writes i s { answers 0 (leBytes n old) with nextUid := s.nextUid + 1, mem := s.mem.writes addr (leBytes n new) }
      performs (.hostAccess (tag, 2) addr bs) ((old + leNat bs) % 2 ^ (8 * n)) ∧ performs (.hostAccess (tag, 3) addr bs) (leNat bs) ∧
      ∀ new : List Byte, new.length = n → performs (.hostAccess (tag, 4) addr (bs ++ new)) (if old = leNat bs then leNat new else old))) ∧
  (∀ s tag kind addr (bs : List Byte), 2 ^ 48 < addr + (if kind = 4 then bs.length / 2 else bs.length) → exec (.hostAccess (tag, kind) addr bs) s = .fault .noSuchAddress) ∧
  ∀ s, s.stores = [] → s.hostlanes ≠ 0 → exec .hoststatRejoin s = .next { s with contstat := s.contstat &&& ~~~2 }

/-- R271, R429 and R451: a submission of the host is accepted with RESULT 0, or refused with RESULT 2 or 3, and the host is signalled; a write while BUSY
is 1 is ignored, and while the control cores restart a submission waits with BUSY. -/
def Sys2Proof.Claims.HostSubmissions : Prop :=
  (∀ s v, s.stores = [] → s.hostbusy ≠ none → exec (.hostsub v) s = .next s) ∧
  (∀ s v, s.stores = [] → s.hostbusy = none → s.restarting ≠ none →
    exec (.hostsub v) s = .next { s with hostbusy := some ⟨BitVec.ofNat 64 (fld v 6 50 * 64), s.hostctx, none, []⟩ }) ∧
  ∀ s i ctx desc pa, Tries i ctx desc s → Still s → NoMigration s → s.restarting = none → s.pokes = [] → desc.toNat < 2 ^ 56 → desc.toNat % 64 = 0 →
    ((s.ctx ctx).state ≠ .live → exec i s = .next (hostDone 2 s)) ∧
    ((s.ctx ctx).state = .live → HostPage ctx 64 desc.toNat pa s →
      let b := s.mem.bytes pa 64
      let low := at' b 0 4
      (¬ Wellformed b → Reads i s (hostDone 2 s)) ∧
      (Wellformed b → low % 8 = 4 → low / 64 % 2 = 0 → ∃ t o, exec i s = .next t ∧ t.hostresult = 0 ∧ t.hostbusy = none ∧ t.out = .msix 4 :: s.out ∧
        t.owned = (s.owned.filter fun q => !decide (q.ctx = ctx ∧ q.desc = desc)) ++ [o] ∧ o.desc = desc ∧ o.ctx = ctx ∧ o.level = 4 ∧ o.running = true ∧
        o.count = at' b 4 4 ∧ t.mem = s.mem.writes pa (leBytes 4 (low + 8) ++ leBytes 4 (at' b 4 4))))

/-- R379, R380 and R448: a context is created with its words at their Reset values; a teardown waits for its groups and commands, then its
translations, walker state, kernels and shadows go and it is free. Which pages a teardown works on is the model's reading (log entry 44). -/
def Obligations.Contexts : Prop :=
  (∀ s ctx, s.stores = [] → ctx < 65536 → (s.ctx ctx).state = .free → exec (.ctxctlCreate ctx) s = .next (s.modCtx ctx fun _ =>
    ⟨0, 0, 0, 0, 0, 0, 0, 8, true, 4096, 4096, 0, .live, []⟩)) ∧
  (∀ s ctx, s.stores = [] → (s.ctx ctx).state = .live → (∀ o ∈ s.owned, o.ctx = ctx → o.running = false) →
    exec (.ctxctlTearDown ctx) s = .next (s.modCtx ctx fun c => { c with state := .tearing })) ∧
  ∀ s ctx, s.stores = [] → (s.ctx ctx).state = .tearing → Drained s ctx → AllPerformed s → s.fanOuts = [] → s.bands = [] → s.aliases = [] →
    (∀ l ∈ s.links, l.leasesOut = []) → s.leases = [] → s.leaseUses = [] → (∀ e ∈ s.tlb, e.ctx = ctx → e.nc = false) →
    let cut (d : Die) : Die := { d with kernels := d.kernels.filter fun k => decide (k.ctx ≠ ctx) }
    exec (.contextTeardownDone ctx) s = .next { s.modCtx ctx (fun c => { c with shadows := [], state := .free }) with
      tlb := s.tlb.filter fun e => decide (e.ctx ≠ ctx), combs := s.combs.filter fun c => decide (c.ctx ≠ ctx), die0 := cut s.die0, die1 := cut s.die1 }

end

namespace Sys2Proof.Claims
open Sys2Proof Sys2Proof.Machine

/-- The page at the run's PC is cached as an executable page of device memory, the core's instruction cache holds nothing of it, and no store since the
core's last icinv is hidden from it: the bytes at the PC are those at a physical address (R46, R47, R385). -/
def FetchesAt (s : State) (pa n : Nat) : Prop :=
  (s.core s.grp.core).icache = [] ∧ pa + n ≤ 2 ^ 48 ∧ (∀ e ∈ s.l2, e.line < 2 ^ 40) ∧ s.iss.pc.toNat + n < 2 ^ 56 ∧
    (∀ e ∈ s.codeLog.drop (s.core s.grp.core).icSeq, pa ≤ e.1 → e.1 < pa + n → e.2 = none) ∧ ∃ e, cached s s.iss.pc.toNat = some e ∧ e.x = true ∧
    e.lease = none ∧ pa = e.pa + (s.iss.pc.toNat - e.page) ∧ s.iss.pc.toNat + n ≤ e.page + e.size ∧ ∀ k < n, cached s (s.iss.pc.toNat + k) = some e

/-- Cores as in a state but for what their caches of data and of instructions hold. -/
def FetchedCores (cs : List (Nat × Core)) (s : State) : Prop := ∀ c, ∃ l ic, look cs c Core.blank = { s.core c with l1 := l, icache := ic }

/-- The wave in focus takes the issue: the run it chooses, as the instruction sees it. An issue takes its identity when its run is chosen. -/
def Issues (s t : State) : Prop :=
  ∃ w iss, nextIssue s.w = some (w, iss) ∧ t = { (s.modW fun _ => { w with issues := w.issues + 1 }) with
    iss := { iss with id := if iss.id = 0 then s.nextUid else iss.id }, nextUid := if iss.id = 0 then s.nextUid + 1 else s.nextUid }

/-- A word spelt out by its bits, the highest first. -/
def ofBits (l : List Bool) : Nat := l.foldl (fun n b => 2 * n + b.toNat) 0

/-- The fields of a wave that stand for the order of PCs (R134): the ready lanes that are not set aside by a yield. -/
def Ready (w : Wave) (l : Fin 32) : Prop := w.st[l] = .ready
def Candidate (w : Wave) (l : Fin 32) : Prop := Ready w l ∧ (bit w.yieldMask l = false ∨ ∀ j, Ready w j → bit w.yieldMask j = true)

end Sys2Proof.Claims

section
open Sys2Proof Sys2Proof.Machine Sys2Proof.Claims

/-- R44, R52 to R54, R63 and R64: the bytes of every well-formed instruction decode to it, with every operand at every value, and the bytes after it
are left. -/
def Obligations.DecodeOfEncode : Prop :=
  ∀ (i : Instr) (rest : List Byte), i.wellFormed = true → decode (encodeBytes i ++ rest) = .ok (i, rest)

/-- R44 and R66: bytes that decode are the bytes of the instruction read, which is well formed; no bit of them is ignored. -/
def Obligations.EncodeOfDecode : Prop :=
  ∀ (bs rest : List Byte) (i : Instr), decode bs = .ok (i, rest) → i.wellFormed = true ∧ bs = encodeBytes i ++ rest

/-- R44, R51 and R134: when the deed of a step is an issue and the bytes at the PC of the chosen run decode to an instruction, the step is that
instruction executed with its length, the release that a replay owes, the group pipe's turn (R466), and the passing of time. -/
def Obligations.StepRunsTheDecodedInstruction : Prop :=
  ∀ (s t : State) (a : Action) (pa : Nat) (i : Instr), s.inbox = [] → running s = true → nextDeed s = some a → a.deed = .issue →
    Issues (focusOn a (chosen s)) t → mustWait {} t = false → t.stores = [] → t.bands = [] → t.aliases = [] → t.provs = [] → t.grp.failed = false →
    (∀ n, n = 2 ∨ n = 4 → FetchesAt t pa n → decode (t.mem.bytes pa n) = .ok (i, []) →
      ∃ cs os ls, FetchedCores cs t ∧ step s = thenTime (match runInstr i { t with cores := cs, owners := os, l2 := ls, iss := { t.iss with len := n } } with
        | .next u =>
          let v := endIssue u
          .next (if nextIsGroup (focusOn a (chosen s)) = true ∧ v.w.chosen = none then servePipe t.grp.core t.w.slot v else v)
        | .fault f => .fault f
        | .refused r => .refused r)) ∧
    (∀ u, exec i t = .next u → u.latch = none → runInstr i t = .next u)

/-- R134: the run that a wave chooses has lanes of one PC and one class, all of them ready; unless the promise is due it is at the lowest PC of the
lanes that no yield sets aside; a wave chooses while a lane is ready. -/
def Obligations.ChoiceOfTheRun : Prop :=
  ∀ w : Wave, ((∃ l, Ready w l) ↔ (chooseRun w).isSome = true) ∧
    ∀ w' iss, chooseRun w = some (w', iss) → iss.replay = none ∧ iss.run ≠ 0 ∧
      (∀ l, bit iss.run l = true → Ready w l ∧ w.pc[l] = iss.pc ∧ bit w'.yieldMask l = false) ∧
      (∀ l j, bit iss.run l = true → bit iss.run j = true → bit w.handlerLanes l = bit w.handlerLanes j) ∧
      (w.promise = false ∨ w.count < w.fairness → (∃ l, Candidate w l ∧ w.pc[l] = iss.pc) ∧ ∀ l, Candidate w l → iss.pc.toNat ≤ w.pc[l].toNat)

/-- Memory keeps its canonical form at every step, and no store of a step is left over. -/
def Obligations.StepKeepsMemory : Prop := ∀ s t : State, MemOk s → step s = .next t → MemOk t

/-- R426 and R444: while the compute dies are in reset or frozen, a step without an input leaves every group, memory and what has been sent as they
are, and an input of the compute dies is lost; time passes. That an input of the compute dies is lost is the model's reading (log entry 55). -/
def Obligations.StandstillWhileFrozen : Prop :=
  ∀ s : State, MemOk s → running s = false →
    (s.inbox = [] ∨ ∃ i t, s.inbox = i :: t ∧ offDie i = false) →
    ∃ t, step s = .next t ∧ t.grp = s.grp ∧ t.rest = s.rest ∧ t.mem = s.mem ∧ t.cores = s.cores ∧ t.out = s.out ∧ t.inbox = s.inbox.drop 1 ∧
      s.clock < t.clock

/-- R331 and R363: after reset SCHEDCFG holds BALTHR 8, RESV 24, STEAL 1, MIDGE 1, FLOOR 1 and STARVE 100 and COHCFG holds INVTO 20, WASTE 4 and
LINEGRAIN 1 on both dies; no group, descriptor or context is live, no agent is fenced, and memory is in its canonical form. Where the manual gives no
reset value the model starts empty (log entry 1). -/
def Obligations.ResetState : Prop :=
  let s := State.reset
  MemOk s ∧ s.grp.live = false ∧ s.rest = [] ∧ s.owned = [] ∧ s.ctxs = [] ∧ s.bootstat = 0 ∧ s.contstat = 0 ∧ s.errstat = 0 ∧ s.glowstat = 0 ∧ s.frozen = false ∧
    ∀ d ∈ [s.die0, s.die1], [fld d.schedcfg 0 8, fld d.schedcfg 8 8, fld d.schedcfg 16 1, fld d.schedcfg 17 1, fld d.schedcfg 18 1, fld d.schedcfg 32 16] =
      [8, 24, 1, 1, 1, 100] ∧ d.cohcfg = 20 + 4 * 256 + 4096

end

section
open Sys2Proof Sys2Proof.Machine Sys2Proof.Claims

/-- R44 and the encodings worked out in the manual: a few words and what they decode to. -/
def Obligations.DecodeOfWrittenWords : Prop :=
  decode [0x05, 0x40, 0x24, 0x06] = .ok (.addB32 5 3 9, []) ∧
  ∀ e ∈ ([(0x44020001, .addi 2 0 1), (0x50050411, .xlaneBack 5 2 4), (0x4D01041D, .cmpLtN32 1 2 7), (0x52060200, .ballot 6 1), (0xE60A0100, .votec 10 1 0),
    (0xE38B05F0, .rdlane 11 2 31 0), (0xD2800000, .exit), (0x59080403, .fsqrtF32 8 2 0 3), (0x55091008, .fmulF32 9 8 2 0), (0x75830000, .gets 3 0),
    (0x74118093, .mma 2 1 4 9 3)] : List (Nat × Instr)), decodeWord e.1 = .ok e.2

end

section
open Sys2Proof Sys2Proof.Machine Sys2Proof.Claims

/-- R103: the arithmetic family, per enabled lane in the lane set and once in the group set. R105 and the immediate forms of R104: logic and shifts
in both sets. -/
def Obligations.IntegerAndLogic : Prop :=
  IntegerArithmetic ∧ LogicShiftsAndImmediates

/-- R106, R107 and R108: bit counts, field extracts and the field insert in both sets. R109, R110 and R117: sums of pairs, constants and moves. The
higher register of a lane pair is within the allotment as well. -/
def Obligations.BitsAndMoves : Prop :=
  BitCountsAndFields ∧ PairsConstantsAndMoves

/-- R111 and R112: compares. A lane compare writes the predicate bits of the enabled lanes, a group compare the word 1 or 0. R113 to R116: selects,
the byte permute and the nibble lookup. -/
def Obligations.ComparesSelectsAndLookups : Prop :=
  Compares ∧ SelectsAndLookups

/-- R150, R151 and R152: the sums and products of FP32 rounded once, the minima and maxima, and the sign operations. R88, R89 and R150: a NaN
operand, the difference of infinities and zero times infinity give 0x7FC00000, and an exact sum of opposite zeros is +0 but for rounding down, where
it is -0. -/
def Obligations.FloatArithmeticAndSpecials : Prop :=
  FloatArithmetic ∧ FloatSpecialResults

/-- R153 and R154: the long-latency functions complete with their value, at once with lookahead 0 and pending otherwise; the inputs that R154 names
have the results that it names. R157 and R158: a conversion writes each destination element of each enabled lane as the conversion of its source
element, and no other register. -/
def Obligations.RootsAndConversions : Prop :=
  RootsAndApproximations ∧ Conversions

/-- R159 and R160: sbpack spreads two encoded blocks over the lanes, sbunp decodes the stream that the lowest lanes hold. R161 and R164: ck.acc
folds the words of the enabled lanes in ascending order; ck.chk has no effect where the compared parts are equal, and else parks the run after it
with cause 0x30 and the difference in its trap record. -/
def Obligations.BlocksAndChecksums : Prop :=
  SharedExponentBlocks ∧ Checksums

/-- R118, R122 and R146: moves between the register sets and the read of another lane. R123 and R124: tests of a predicate over the enabled lanes,
and the ballot word. -/
def Obligations.MovesAndTests : Prop :=
  MovesBetweenSets ∧ PredicateTests

/-- R137 to R142 and R145: yield, join, leave, wait and kmov. R409: exit, yield, the mask instructions and the barriers stop the group with STATUS 3
in a trap handler. What %trapaddr holds after the trap of a mask instruction in a handler is the model's choice (log entry 68). -/
def Obligations.YieldAndMaskRegisters : Prop :=
  YieldAndMasks ∧ MaskInstructionsInHandlerStopGroup

/-- R62: guard and guard.n open a window over the next n per-lane instructions of every lane of the run; nop has no effect; both leave the guard
windows of the run uncounted. R282: sleep holds the wave for the ticks of its source, and halt, in a privileged wave, parks every ready lane with the
halt cause in its trap record, enters no handler and signals the host. R282 and R451: a wave sleeps until its time; the lanes that a halt parked go on
at their entries on a resume, and a cancel stops their group. What a halt leaves in the trap record, and that a cancel of a halted group gives no
STATUS, are the model's readings (log entries 47 and 60). -/
def Obligations.GuardSleepAndHalt : Prop :=
  GuardAndNop ∧ SleepAndHalt ∧ SleepAndHaltOrders

/-- R280 and R407: trap and bkpt park every lane of the run with their cause: after trap the entries stand behind it and %trapaddr will hold its
operand, at bkpt they stay at it. R281 and R411: rett. The handler's lanes go on as their entries say, with their guard windows; with RESTART 1 the
wave owes the replay of the instruction at %trappc, in the lanes that were enabled at its issue; a handler that is left with a reserved entry ends the
group with STATUS 3. -/
def Obligations.TrapsAndReturns : Prop :=
  TrapAndBreakpoint ∧ ReturnFromTrap

/-- R206 and R207: a wave that arrives at bar.g waits until every wave of its group that has not ended has arrived, and then all go on; so does bar.c
for a group that is alone in its launch, and the group counts the barrier. R187, R204, R206 and R282: what the fences and icinv do once no ordered
instruction of the wave is pending: an acquire invalidates the core's unowned words of coherent pages, a release settles the wave's provisional cells,
icinv empties the instruction cache, and the core's fetches then find every store performed before. -/
def Obligations.BarriersAndFences : Prop :=
  Barriers ∧ FencesAndIcinv

/-- R128 to R131 with R54: branches, calls, jumps and returns go to their targets in the enabled lanes; a target above 56 bits, or an odd one of jmp
or ret, is an address fault. R132: exit. The enabled lanes are exited, their bits leave the masks and the yield mask, and release is evaluated;
nothing else changes while the wave has lanes left and no barrier waits. The wave ends with its last lane. That an exited lane's PC stands behind the
exit is the model's reading of R26 (log entry 60). -/
def Obligations.ControlFlow : Prop :=
  BranchesCallsAndReturns ∧ ExitOfLanes

/-- R28 and R267: gets reads every special register, into the enabled lanes or, for the run's lowest lane, into a group register or pair. R33 to
R35, R37, R138 and R268: what sets writes. A read-only register ignores it; release of a mask is evaluated at once outside a handler. -/
def Obligations.SpecialRegisters : Prop :=
  SpecialRegisterReads ∧ SpecialRegisterWrites

/-- R10, R66, R67 and R266: without privilege, or outside a handler, the instructions that need it raise the privilege trap at decode, with every lane
predicated off as well, and have no other effect. R14 and R67: an instruction that names a lane register or a tile beyond the allotment raises the
register-allotment fault at decode and has no other effect, whether or not a lane is enabled. That a fault at decode counts every lane of its run as
enabled, and the order of the checks, are the model's choices (log entries 28 and 67). -/
def Obligations.PrivilegeAndAllotment : Prop :=
  PrivilegeTrap ∧ AllotmentFault

/-- R7, R168, R170, R171 and R175: a lane store writes the little-endian bytes of each enabled lane at its address, in ascending lane order; a
non-temporal store waits in order until it performs. Apart from the caches, the word owners and what instruction fetch and read-only loads keep of the
bytes overwritten (R47, R298) nothing else changes. R175: drain.nt performs the wave's non-temporal stores in order. That a store performs in the step
of its issue is the model's choice (log entry 12). -/
def Obligations.StoresAndDrain : Prop :=
  LaneStores ∧ DrainOfNonTemporalStores

/-- R195 to R198: the atomics of the enabled lanes take place one after another in ascending lane order; each lane receives the former value of its
word, and its cell settles. With the release bit of ORD the wave's cells settle before them, and with the acquire bit the core's unowned words of
coherent pages are invalid after them. R200 and R201: red.f32 adds into the words in ascending lane order; a narrow reduction leaves memory as it is
and adds into the FP32 shadow of its element in the side band of the line. That they perform in the step of their issue, and that an ORD releases and
acquires as the fences do, are the model's choices (log entries 12 and 31). -/
def Obligations.AtomicsAndReductions : Prop :=
  LaneAtomics ∧ Reductions

/-- R8, R21, R221 and R222: tiles are cleared, moved, read and written a column at a time in the enabled rows; the header is written once, in a handler, and
its reserved bits stay 0. R223 to R226: epi.st places the converted rows of the enabled lanes in an entry of the core and leaves memory alone; the
rows of the entry are stored whole afterwards, and it is freed. -/
def Obligations.TilesAndEpilogue : Prop :=
  TileMoves ∧ TileStores

/-- R238 to R243: a copy within one line, to bytes apart from its source and from every live entry, is recorded as one alias entry of the context and
changes no byte of memory; with the context's quota used up it is performed at once. relayout does the same for the rows of its descriptor. R238 to
R243: cpy and relayout complete for every length and layout whose operands pass the checks of R238, with no lane parked and the group's registers as
they were; cpy with LEN 0 does nothing. R244 to R246: pub.open declares a buffer with no shadow bytes, pub makes every shadow byte visible and empties
the shadow, pub.drop empties it, pub.close ends the buffer; a pointer that names no buffer of the context faults. A pub is stated once no engine of
the device has a command of the group left. R366, R368 and R369: bytes under a live entry are read from its source, the read counts once, and the read
that brings READS above HOT materialises the entry after its answer; a source-filter counter of 0 proves that no live entry draws on the line. That
kind 0 of a host access is a read, and what the CXL.mem ranges are, are the model's choices (log entry 46). That one access counts one read, and that
a copy is recorded or performed in the step of its issue, are the model's readings (log entries 12 and 63). -/
def Obligations.AliasesAndShadows : Prop :=
  CopiesByAlias ∧ CopiesComplete ∧ ShadowedBuffers ∧ RedirectedReads

/-- R257, R259 and R400: a gather command with a misaligned handle is refused; one between resident blocks makes both of its destination's entries
references, and its completion word is the destination's block number. A fabric command that is done completes with its tag and status, whatever
status the event brings, which is the model's choice (log entry 22). R180, R259, R387 to R389 and R432: fabric rows that arrive are written in the
exported context and acknowledged, an acknowledgement takes its message off its command, a copy moves its bytes into scratch and sets its tag's bit, a
served walk is tried again, and an owed fault record is written. The layout of the fabric's messages is the model's (log entry 20). -/
def Obligations.EnginesAndCompletions : Prop :=
  QueueCompletions ∧ EngineEvents

/-- R179 to R181: cp.sc starts a copy and clears its tag's bit; wait.any and wait.all go on when the tags of their mask that the group holds allow it,
and else wait; ffr.tag finds the lowest completed or held tag. R176 to R178 and R182: over one dirty word of a non-coherent page, wb.range writes its
dirty bytes to memory and keeps the word, inv.range also invalidates it; prefetch requests the missing words of a line, and a prefetch into L2 leaves
all but the caches as it is. That a copy's fault has RESTART 0 and one of a range operation or a prefetch RESTART 1 is the model's reading (log entry
30). -/
def Obligations.CopiesTagsAndRanges : Prop :=
  CopiesAndTags ∧ RangesAndPrefetch

/-- R250 to R252: attention over positions whose blocks the walker holds. Every row of the run goes through the positions from NEXTPOS on as the
online softmax of R251, or adds the weighted values of R252, and the header is left with ACTIVE and NEXTPOS 0. R250, R253 and R254: comb.sum writes
the bound of each block that has a valid summary and minus infinity beyond the blocks, and keeps the side registers and the header; N of 0 changes
nothing, and an N above 32 is an attention-operand fault. That attn.pv may name one tile twice, that handles move modulo 2^24, that the loads take
their values in the step of the issue, and that an N of 0 takes every check, are the model's choices (log entries 10, 12, 74 and 87). -/
def Obligations.AttentionAndBounds : Prop :=
  Attention ∧ BlockBounds

/-- R51: a dictionary code executes the word of its entry, with LOOK in place of its lookahead where LOOK is below 15; an INDEX at or above DICTLEN, a
SET that differs and an entry whose bit 30 is 0 are illegal instructions. R56, R61, R279, R405 and R407: a pending instruction that completes writes
its results and parks its faulting lanes, with those of its issue, with RESTART 1; the first queued sub-wave enters the handler with the trap
registers set, or ends its group with STATUS 3 where there is no handler. -/
def Obligations.CodesCompletionsAndHandlers : Prop :=
  DictionaryCodes ∧ CompletionsAndHandlerEntry

/-- R210 to R212, R214 and R215: obres writes a record that passes its checks and faults on another; obrel frees the ranges of its mask; obfill
copies the 32 lines of an operand from the group's scratch, obfill.x from the scratch of the group of the launch on a core of the cluster. R216 to
R220: the multiply writes the cells of the enabled rows and keeps their side registers; a multiply whose range checks fail parks its run with the
operand-buffer fault. -/
def Obligations.RangesAndMatrices : Prop :=
  OperandBufferRanges ∧ MatrixMultiply

/-- R39, R40, R168 and R170: loads and stores of scratch within the group's allotment, in lanes and in the group set. R168 to R171 and R194 to R196:
the loads, stores and atomics of the group set. That an access takes effect in the step of its issue is the model's choice (log entry 12). -/
def Obligations.GroupAndScratchAccesses : Prop :=
  ScratchAccesses ∧ GroupAccesses

/-- R307, R361, R362, R427 and R428: host reads, writes and AtomicOps of device memory perform at the home slice and are answered under their tag; a
fenced host is refused until it rejoins. Where the CXL.mem ranges stand, that an access outside them is refused, and the numbers of the kinds are the
model's choices (log entry 46). R271, R429 and R451: a submission of the host is accepted with RESULT 0, or refused with RESULT 2 or 3, and the host
is signalled; a write while BUSY is 1 is ignored, and while the control cores restart a submission waits with BUSY. The die of a submission is the
model's (log entry 46). -/
def Obligations.HostInterface : Prop :=
  HostAccesses ∧ HostSubmissions

/-- R293, R350, R353, R355 to R358, R361 to R363, R372 and R374: fills, revocations, guest copies, fan-outs with their answers and time-outs, rejoins,
COHCFG, and entries materialised by a probe or by the base die. R390 to R392 and R398: a lease request of a peer is translated in the context that its
link exports, the translation cached in its L3 bank, granted with the frame's REFS and LEASES raised, or refused; an answer stands for the accesses
that wait; a recall drops the leased translations and is acknowledged; an acknowledgement and a release end the lease. That the base die's
materialisation is over in one step, that a link that goes down is logged with LINE 0, how L2 replaces its lines, and that a leased page is kept in
the bank of die 0, are the model's choices (log entries 13, 37, 77 and 79). -/
def Obligations.CoherenceAndLeases : Prop :=
  CoherenceEvents ∧ Leases

end
end

