-- ==== Sys2Proof/Laws/Memory.lean ====
section
/-! SUPPORT. Memory: every operation keeps the canonical form, a read after a write gives the byte written, and a write leaves every other
address alone. -/

namespace Sys2Proof.Machine

theorem Mem.wf_cons (c : Host.Cell) (m : Mem) :
    Mem.wf (c :: m) = true ↔ c.2 ≠ Mem.blank ∧ (∀ d ∈ m, c.1 < d.1) ∧ Mem.wf m = true := by
  induction m generalizing c with
  | nil => simp [Mem.wf]
  | cons d t ih =>
    simp only [Mem.wf, Bool.and_eq_true, bne_iff_ne, decide_eq_true_eq, List.mem_cons, forall_eq_or_imp]
    constructor
    · rintro ⟨⟨h1, h2⟩, h3⟩
      exact ⟨h1, ⟨h2, fun e he => lt_trans h2 (((ih d).mp h3).2.1 e he)⟩, h3⟩
    · rintro ⟨h1, ⟨h2, -⟩, h3⟩
      exact ⟨⟨h1, h2⟩, h3⟩

theorem Mem.read_of_below (m : Mem) (a : Nat) (h : ∀ d ∈ m, a < d.1) : m.read a = Mem.blank := by
  induction m with
  | nil => rfl
  | cons c t ih =>
    have := h c (by simp)
    rw [Mem.read, if_neg (by omega)]
    exact ih fun d hd => h d (by simp [hd])

theorem Mem.mem_erase (m : Mem) (a : Nat) (c : Host.Cell) (h : c ∈ m.erase a) : c ∈ m := by
  induction m with
  | nil => exact h
  | cons d t ih =>
    unfold Mem.erase at h
    split at h
    · simp [h]
    · rcases List.mem_cons.mp h with h | h
      · simp [h]
      · simp [ih h]

theorem Mem.mem_insert (m : Mem) (a : Nat) (b : Byte) (c : Host.Cell) (h : c ∈ m.insert a b) : c = (a, b) ∨ c ∈ m := by
  induction m with
  | nil => simpa [Mem.insert] using h
  | cons d t ih =>
    unfold Mem.insert at h
    split at h
    · rcases List.mem_cons.mp h with h | h
      · exact .inl h
      · simp [h]
    · split at h
      · rcases List.mem_cons.mp h with h | h
        · exact .inl h
        · exact .inr h
      · rcases List.mem_cons.mp h with h | h
        · simp [h]
        · rcases ih h with h | h
          · exact .inl h
          · simp [h]

theorem Mem.wf_erase (m : Mem) (a : Nat) (h : Mem.wf m = true) : Mem.wf (m.erase a) = true := by
  induction m with
  | nil => rfl
  | cons c t ih =>
    obtain ⟨h1, h2, h3⟩ := (Mem.wf_cons c t).mp h
    unfold Mem.erase
    split
    · exact h3
    · exact (Mem.wf_cons _ _).mpr ⟨h1, fun d hd => h2 d (Mem.mem_erase _ _ _ hd), ih h3⟩

theorem Mem.wf_insert (m : Mem) (a : Nat) (b : Byte) (hb : b ≠ Mem.blank) (h : Mem.wf m = true) : Mem.wf (m.insert a b) = true := by
  induction m with
  | nil => simpa [Mem.insert, Mem.wf] using hb
  | cons c t ih =>
    obtain ⟨h1, h2, h3⟩ := (Mem.wf_cons c t).mp h
    unfold Mem.insert
    split
    · rename_i e
      exact (Mem.wf_cons _ _).mpr ⟨hb, fun d hd => by have := h2 d hd; simp only; omega, h3⟩
    · split
      · rename_i e
        exact (Mem.wf_cons _ _).mpr ⟨hb, fun d hd => by
          rcases List.mem_cons.mp hd with hd | hd
          · simp only [hd]; exact e
          · have := h2 d hd; simp only; omega, h⟩
      · refine (Mem.wf_cons _ _).mpr ⟨h1, fun d hd => ?_, ih h3⟩
        rcases Mem.mem_insert _ _ _ _ hd with hd | hd
        · simp only [hd]; omega
        · exact h2 d hd

/-- A write keeps the canonical form. -/
theorem Mem.wf_write (m : Mem) (a : Nat) (b : Byte) (h : Mem.wf m = true) : Mem.wf (m.write a b) = true := by
  unfold Mem.write
  split
  · exact Mem.wf_erase m a h
  · rename_i e; exact Mem.wf_insert m a b e h

theorem Mem.wf_writes (bs : List Byte) (m : Mem) (a : Nat) (h : Mem.wf m = true) : Mem.wf (m.writes a bs) = true := by
  induction bs generalizing m a with
  | nil => exact h
  | cons b t ih => exact ih _ _ (Mem.wf_write m a b h)

theorem Mem.wf_lay (l : List Host.Cell) (m : Mem) (h : Mem.wf m = true) : Mem.wf (m.lay l) = true := by
  induction l with
  | nil => exact h
  | cons c t ih => exact Mem.wf_write _ _ _ ih

theorem Mem.wf_filter (m : Mem) (p : Host.Cell → Bool) (h : Mem.wf m = true) : Mem.wf (m.filter p) = true := by
  induction m with
  | nil => rfl
  | cons c t ih =>
    obtain ⟨h1, h2, h3⟩ := (Mem.wf_cons c t).mp h
    rw [List.filter_cons]
    split
    · exact (Mem.wf_cons _ _).mpr ⟨h1, fun d hd => h2 d (List.mem_filter.mp hd).1, ih h3⟩
    · exact ih h3

theorem Mem.wf_clear (m : Mem) (a n : Nat) (h : Mem.wf m = true) : Mem.wf (m.clear a n) = true := Mem.wf_filter m _ h

theorem Mem.read_erase (m : Mem) (a x : Nat) (h : Mem.wf m = true) : (m.erase a).read x = if x = a then Mem.blank else m.read x := by
  induction m with
  | nil => simp [Mem.erase, Mem.read]
  | cons c t ih =>
    obtain ⟨h1, h2, h3⟩ := (Mem.wf_cons c t).mp h
    unfold Mem.erase
    by_cases e : c.1 = a
    · rw [if_pos e]
      by_cases k : x = a
      · rw [if_pos k]; exact Mem.read_of_below _ _ fun d hd => by have := h2 d hd; omega
      · rw [if_neg k, Mem.read, if_neg (by omega)]
    · rw [if_neg e, Mem.read, ih h3, Mem.read]
      by_cases k : x = a
      · simp [k, e]
      · simp [k]

theorem Mem.read_insert (m : Mem) (a x : Nat) (b : Byte) : (m.insert a b).read x = if x = a then b else m.read x := by
  induction m with
  | nil => simp only [Mem.insert, Mem.read, eq_comm]
  | cons c t ih =>
    unfold Mem.insert
    by_cases e : c.1 = a
    · rw [if_pos e]
      simp only [Mem.read]
      by_cases k : x = a
      · simp [k]
      · rw [if_neg (by omega), if_neg k, if_neg (by omega)]
    · rw [if_neg e]
      split
      · simp only [Mem.read]
        by_cases k : x = a
        · simp [k]
        · rw [if_neg (by omega), if_neg k]
      · rw [Mem.read, ih, Mem.read]
        by_cases k : x = a
        · simp [k, e]
        · simp [k]

/-- A read after a write: the byte written at its address, the old byte elsewhere. -/
theorem Mem.read_write (m : Mem) (a x : Nat) (b : Byte) (h : Mem.wf m = true) : (m.write a b).read x = if x = a then b else m.read x := by
  unfold Mem.write
  split
  · rename_i e; rw [Mem.read_erase m a x h, e]
  · exact Mem.read_insert m a x b

/-- Memory with a log laid into it reads as memory under the log. -/
theorem Mem.read_lay (l : List Host.Cell) (m : Mem) (x : Nat) (h : Mem.wf m = true) : (m.lay l).read x = logRead m x l := by
  induction l with
  | nil => rfl
  | cons c t ih =>
    rw [Mem.lay, Mem.read_write _ _ _ _ (Mem.wf_lay t m h), ih, logRead]
    simp only [eq_comm]

/-- A store changes the bytes stored and no other. -/
theorem logRead_logBytes (bs : List Byte) (m : Mem) (l : List Host.Cell) (a x : Nat) (h : x < a ∨ a + bs.length ≤ x) :
    logRead m x (logBytes l a bs) = logRead m x l := by
  induction bs generalizing l a with
  | nil => rfl
  | cons b t ih =>
    rw [List.length_cons] at h
    rw [logBytes, ih _ _ (by omega), logRead, if_neg (by simp only; omega)]

theorem State.byte_poke (s : State) (a x : Nat) (bs : List Byte) (h : x < a ∨ a + bs.length ≤ x) : (s.poke a bs).byte x = s.byte x :=
  logRead_logBytes bs s.mem s.stores a x h

theorem logRead_logBytes_in (bs : List Byte) (m : Mem) (l : List Host.Cell) (a i : Nat) (h : i < bs.length) :
    logRead m (a + i) (logBytes l a bs) = bs[i] := by
  induction bs generalizing l a i with
  | nil => simp at h
  | cons b t ih =>
    cases i with
    | zero =>
      rw [logBytes, logRead_logBytes _ _ _ _ _ (by omega)]
      simp [logRead]
    | succ j =>
      rw [logBytes, show a + (j + 1) = a + 1 + j by omega, ih]
      · simp
      · simpa using h

/-- A store's bytes read as they were stored. -/
theorem State.byte_poke_in (s : State) (a i : Nat) (bs : List Byte) (h : i < bs.length) : (s.poke a bs).byte (a + i) = bs[i] :=
  logRead_logBytes_in bs s.mem s.stores a i h

/-- The end of a step: no store waits, and memory is the memory before with the stores laid into it. -/
theorem next_mem (f : State → State) (s t : State) (h : next f s = .next t) : t.mem = s.mem.lay (f s).stores ∧ t.stores = [] := by
  simp only [next, Host.Outcome.next.injEq] at h
  subst h
  exact ⟨rfl, rfl⟩

/-- A meaning keeps the canonical form, whatever its effect. -/
theorem next_wf (f : State → State) (s t : State) (h : next f s = .next t) (w : Mem.wf s.mem = true) : Mem.wf t.mem = true := by
  rw [(next_mem f s t h).1]; exact Mem.wf_lay _ _ w

/-- A meaning's effect that stores nothing is the next state. -/
theorem next_of (f : State → State) (s t : State) (e : f s = t) (h1 : t.stores = []) (h2 : t.mem = s.mem) :
    next f s = .next t := by
  subst e
  unfold next finish
  rw [h1, ← h2]; simp only [Mem.lay]
  conv_rhs => rw [show f s = { f s with stores := [] } by rw [← h1]]

theorem reset_mem_wf : Mem.wf State.reset.mem = true := rfl

end Sys2Proof.Machine
end

