-- ==== Sys2Proof/Laws/State.lean ====
section
/-! SUPPORT. One lemma for each field of the state under each update: what an update leaves alone and what it sets. -/

namespace Sys2Proof.Machine

/-! ## The state under a change of its issuing wave or group -/

@[simp] theorem State.modW_rest (s : State) (f : Wave → Wave) : (s.modW f).rest = s.rest := rfl
@[simp] theorem State.modW_iss (s : State) (f : Wave → Wave) : (s.modW f).iss = s.iss := rfl
@[simp] theorem State.modW_latch (s : State) (f : Wave → Wave) : (s.modW f).latch = s.latch := rfl
@[simp] theorem State.modW_mem (s : State) (f : Wave → Wave) : (s.modW f).mem = s.mem := rfl
@[simp] theorem State.modW_stores (s : State) (f : Wave → Wave) : (s.modW f).stores = s.stores := rfl
@[simp] theorem State.modW_poison (s : State) (f : Wave → Wave) : (s.modW f).poison = s.poison := rfl
@[simp] theorem State.modW_owners (s : State) (f : Wave → Wave) : (s.modW f).owners = s.owners := rfl
@[simp] theorem State.modW_l2 (s : State) (f : Wave → Wave) : (s.modW f).l2 = s.l2 := rfl
@[simp] theorem State.modW_provs (s : State) (f : Wave → Wave) : (s.modW f).provs = s.provs := rfl
@[simp] theorem State.modW_bands (s : State) (f : Wave → Wave) : (s.modW f).bands = s.bands := rfl
@[simp] theorem State.modW_aliases (s : State) (f : Wave → Wave) : (s.modW f).aliases = s.aliases := rfl
@[simp] theorem State.modW_regions (s : State) (f : Wave → Wave) : (s.modW f).regions = s.regions := rfl
@[simp] theorem State.modW_fanOuts (s : State) (f : Wave → Wave) : (s.modW f).fanOuts = s.fanOuts := rfl
@[simp] theorem State.modW_fills (s : State) (f : Wave → Wave) : (s.modW f).fills = s.fills := rfl
@[simp] theorem State.modW_proxies (s : State) (f : Wave → Wave) : (s.modW f).proxies = s.proxies := rfl
@[simp] theorem State.modW_exclusive (s : State) (f : Wave → Wave) : (s.modW f).exclusive = s.exclusive := rfl
@[simp] theorem State.modW_asked (s : State) (f : Wave → Wave) : (s.modW f).asked = s.asked := rfl
@[simp] theorem State.modW_noLines (s : State) (f : Wave → Wave) : (s.modW f).noLines = s.noLines := rfl
@[simp] theorem State.modW_remotes (s : State) (f : Wave → Wave) : (s.modW f).remotes = s.remotes := rfl
@[simp] theorem State.modW_cores (s : State) (f : Wave → Wave) : (s.modW f).cores = s.cores := rfl
@[simp] theorem State.modW_die0 (s : State) (f : Wave → Wave) : (s.modW f).die0 = s.die0 := rfl
@[simp] theorem State.modW_die1 (s : State) (f : Wave → Wave) : (s.modW f).die1 = s.die1 := rfl
@[simp] theorem State.modW_ctxs (s : State) (f : Wave → Wave) : (s.modW f).ctxs = s.ctxs := rfl
@[simp] theorem State.modW_owned (s : State) (f : Wave → Wave) : (s.modW f).owned = s.owned := rfl
@[simp] theorem State.modW_merges (s : State) (f : Wave → Wave) : (s.modW f).merges = s.merges := rfl
@[simp] theorem State.modW_discards (s : State) (f : Wave → Wave) : (s.modW f).discards = s.discards := rfl
@[simp] theorem State.modW_pokes (s : State) (f : Wave → Wave) : (s.modW f).pokes = s.pokes := rfl
@[simp] theorem State.modW_roLog (s : State) (f : Wave → Wave) : (s.modW f).roLog = s.roLog := rfl
@[simp] theorem State.modW_codeLog (s : State) (f : Wave → Wave) : (s.modW f).codeLog = s.codeLog := rfl
@[simp] theorem State.modW_tlb (s : State) (f : Wave → Wave) : (s.modW f).tlb = s.tlb := rfl
@[simp] theorem State.modW_combs (s : State) (f : Wave → Wave) : (s.modW f).combs = s.combs := rfl
@[simp] theorem State.modW_waits (s : State) (f : Wave → Wave) : (s.modW f).waits = s.waits := rfl
@[simp] theorem State.modW_gathers (s : State) (f : Wave → Wave) : (s.modW f).gathers = s.gathers := rfl
@[simp] theorem State.modW_fabrics (s : State) (f : Wave → Wave) : (s.modW f).fabrics = s.fabrics := rfl
@[simp] theorem State.modW_fabIn (s : State) (f : Wave → Wave) : (s.modW f).fabIn = s.fabIn := rfl
@[simp] theorem State.modW_ringIn (s : State) (f : Wave → Wave) : (s.modW f).ringIn = s.ringIn := rfl
@[simp] theorem State.modW_rowsIn (s : State) (f : Wave → Wave) : (s.modW f).rowsIn = s.rowsIn := rfl
@[simp] theorem State.modW_refsAt (s : State) (f : Wave → Wave) : (s.modW f).refsAt = s.refsAt := rfl
@[simp] theorem State.modW_recalls (s : State) (f : Wave → Wave) : (s.modW f).recalls = s.recalls := rfl
@[simp] theorem State.modW_leases (s : State) (f : Wave → Wave) : (s.modW f).leases = s.leases := rfl
@[simp] theorem State.modW_leaseAsked (s : State) (f : Wave → Wave) : (s.modW f).leaseAsked = s.leaseAsked := rfl
@[simp] theorem State.modW_refused (s : State) (f : Wave → Wave) : (s.modW f).refused = s.refused := rfl
@[simp] theorem State.modW_leaseWaits (s : State) (f : Wave → Wave) : (s.modW f).leaseWaits = s.leaseWaits := rfl
@[simp] theorem State.modW_leaseUses (s : State) (f : Wave → Wave) : (s.modW f).leaseUses = s.leaseUses := rfl
@[simp] theorem State.modW_recalled (s : State) (f : Wave → Wave) : (s.modW f).recalled = s.recalled := rfl
@[simp] theorem State.modW_purposes (s : State) (f : Wave → Wave) : (s.modW f).purposes = s.purposes := rfl
@[simp] theorem State.modW_links (s : State) (f : Wave → Wave) : (s.modW f).links = s.links := rfl
@[simp] theorem State.modW_isais (s : State) (f : Wave → Wave) : (s.modW f).isais = s.isais := rfl
@[simp] theorem State.modW_raws (s : State) (f : Wave → Wave) : (s.modW f).raws = s.raws := rfl
@[simp] theorem State.modW_weevil (s : State) (f : Wave → Wave) : (s.modW f).weevil = s.weevil := rfl
@[simp] theorem State.modW_weevilAt (s : State) (f : Wave → Wave) : (s.modW f).weevilAt = s.weevilAt := rfl
@[simp] theorem State.modW_contlog (s : State) (f : Wave → Wave) : (s.modW f).contlog = s.contlog := rfl
@[simp] theorem State.modW_contstat (s : State) (f : Wave → Wave) : (s.modW f).contstat = s.contstat := rfl
@[simp] theorem State.modW_errlog (s : State) (f : Wave → Wave) : (s.modW f).errlog = s.errlog := rfl
@[simp] theorem State.modW_errstat (s : State) (f : Wave → Wave) : (s.modW f).errstat = s.errstat := rfl
@[simp] theorem State.modW_glowstat (s : State) (f : Wave → Wave) : (s.modW f).glowstat = s.glowstat := rfl
@[simp] theorem State.modW_glowtotal (s : State) (f : Wave → Wave) : (s.modW f).glowtotal = s.glowtotal := rfl
@[simp] theorem State.modW_bootstat (s : State) (f : Wave → Wave) : (s.modW f).bootstat = s.bootstat := rfl
@[simp] theorem State.modW_caphead (s : State) (f : Wave → Wave) : (s.modW f).caphead = s.caphead := rfl
@[simp] theorem State.modW_caps (s : State) (f : Wave → Wave) : (s.modW f).caps = s.caps := rfl
@[simp] theorem State.modW_applied (s : State) (f : Wave → Wave) : (s.modW f).applied = s.applied := rfl
@[simp] theorem State.modW_minVersions (s : State) (f : Wave → Wave) : (s.modW f).minVersions = s.minVersions := rfl
@[simp] theorem State.modW_slots (s : State) (f : Wave → Wave) : (s.modW f).slots = s.slots := rfl
@[simp] theorem State.modW_spareMap (s : State) (f : Wave → Wave) : (s.modW f).spareMap = s.spareMap := rfl
@[simp] theorem State.modW_swaps (s : State) (f : Wave → Wave) : (s.modW f).swaps = s.swaps := rfl
@[simp] theorem State.modW_linksOut (s : State) (f : Wave → Wave) : (s.modW f).linksOut = s.linksOut := rfl
@[simp] theorem State.modW_lanesOut (s : State) (f : Wave → Wave) : (s.modW f).lanesOut = s.lanesOut := rfl
@[simp] theorem State.modW_identity (s : State) (f : Wave → Wave) : (s.modW f).identity = s.identity := rfl
@[simp] theorem State.modW_serial (s : State) (f : Wave → Wave) : (s.modW f).serial = s.serial := rfl
@[simp] theorem State.modW_restarting (s : State) (f : Wave → Wave) : (s.modW f).restarting = s.restarting := rfl
@[simp] theorem State.modW_retryAt (s : State) (f : Wave → Wave) : (s.modW f).retryAt = s.retryAt := rfl
@[simp] theorem State.modW_attestation (s : State) (f : Wave → Wave) : (s.modW f).attestation = s.attestation := rfl
@[simp] theorem State.modW_hostctx (s : State) (f : Wave → Wave) : (s.modW f).hostctx = s.hostctx := rfl
@[simp] theorem State.modW_hostresult (s : State) (f : Wave → Wave) : (s.modW f).hostresult = s.hostresult := rfl
@[simp] theorem State.modW_hostbusy (s : State) (f : Wave → Wave) : (s.modW f).hostbusy = s.hostbusy := rfl
@[simp] theorem State.modW_hostlanes (s : State) (f : Wave → Wave) : (s.modW f).hostlanes = s.hostlanes := rfl
@[simp] theorem State.modW_cxlRanges (s : State) (f : Wave → Wave) : (s.modW f).cxlRanges = s.cxlRanges := rfl
@[simp] theorem State.modW_frameTable (s : State) (f : Wave → Wave) : (s.modW f).frameTable = s.frameTable := rfl
@[simp] theorem State.modW_poolBase (s : State) (f : Wave → Wave) : (s.modW f).poolBase = s.poolBase := rfl
@[simp] theorem State.modW_poolPerCore (s : State) (f : Wave → Wave) : (s.modW f).poolPerCore = s.poolPerCore := rfl
@[simp] theorem State.modW_frozen (s : State) (f : Wave → Wave) : (s.modW f).frozen = s.frozen := rfl
@[simp] theorem State.modW_clock (s : State) (f : Wave → Wave) : (s.modW f).clock = s.clock := rfl
@[simp] theorem State.modW_out (s : State) (f : Wave → Wave) : (s.modW f).out = s.out := rfl
@[simp] theorem State.modW_inbox (s : State) (f : Wave → Wave) : (s.modW f).inbox = s.inbox := rfl
@[simp] theorem State.modW_nextUid (s : State) (f : Wave → Wave) : (s.modW f).nextUid = s.nextUid := rfl
@[simp] theorem State.modW_nfree (s : State) (f : Wave → Wave) : (s.modW f).nfree = s.nfree := rfl
@[simp] theorem State.modW_grp_live (s : State) (f : Wave → Wave) : (s.modW f).grp.live = s.grp.live := rfl
@[simp] theorem State.modW_grp_uid (s : State) (f : Wave → Wave) : (s.modW f).grp.uid = s.grp.uid := rfl
@[simp] theorem State.modW_grp_core (s : State) (f : Wave → Wave) : (s.modW f).grp.core = s.grp.core := rfl
@[simp] theorem State.modW_grp_slot (s : State) (f : Wave → Wave) : (s.modW f).grp.slot = s.grp.slot := rfl
@[simp] theorem State.modW_grp_task (s : State) (f : Wave → Wave) : (s.modW f).grp.task = s.grp.task := rfl
@[simp] theorem State.modW_grp_handler (s : State) (f : Wave → Wave) : (s.modW f).grp.handler = s.grp.handler := rfl
@[simp] theorem State.modW_grp_sys (s : State) (f : Wave → Wave) : (s.modW f).grp.sys = s.grp.sys := rfl
@[simp] theorem State.modW_grp_s (s : State) (f : Wave → Wave) : (s.modW f).grp.s = s.grp.s := rfl
@[simp] theorem State.modW_grp_ob (s : State) (f : Wave → Wave) : (s.modW f).grp.ob = s.grp.ob := rfl
@[simp] theorem State.modW_grp_obuf (s : State) (f : Wave → Wave) : (s.modW f).grp.obuf = s.grp.obuf := rfl
@[simp] theorem State.modW_grp_scratch (s : State) (f : Wave → Wave) : (s.modW f).grp.scratch = s.grp.scratch := rfl
@[simp] theorem State.modW_grp_allot (s : State) (f : Wave → Wave) : (s.modW f).grp.allot = s.grp.allot := rfl
@[simp] theorem State.modW_grp_tags (s : State) (f : Wave → Wave) : (s.modW f).grp.tags = s.grp.tags := rfl
@[simp] theorem State.modW_grp_kernel (s : State) (f : Wave → Wave) : (s.modW f).grp.kernel = s.grp.kernel := rfl
@[simp] theorem State.modW_grp_dict (s : State) (f : Wave → Wave) : (s.modW f).grp.dict = s.grp.dict := rfl
@[simp] theorem State.modW_grp_failed (s : State) (f : Wave → Wave) : (s.modW f).grp.failed = s.grp.failed := rfl
@[simp] theorem State.modW_grp_barG (s : State) (f : Wave → Wave) : (s.modW f).grp.barG = s.grp.barG := rfl
@[simp] theorem State.modW_grp_barC (s : State) (f : Wave → Wave) : (s.modW f).grp.barC = s.grp.barC := rfl
@[simp] theorem State.modW_grp_arrivedC (s : State) (f : Wave → Wave) : (s.modW f).grp.arrivedC = s.grp.arrivedC := rfl
@[simp] theorem State.modW_grp_barsC (s : State) (f : Wave → Wave) : (s.modW f).grp.barsC = s.grp.barsC := rfl
@[simp] theorem State.modW_grp_merges (s : State) (f : Wave → Wave) : (s.modW f).grp.merges = s.grp.merges := rfl
@[simp] theorem State.modW_grp_picks (s : State) (f : Wave → Wave) : (s.modW f).grp.picks = s.grp.picks := rfl
@[simp] theorem State.modW_grp_acquire (s : State) (f : Wave → Wave) : (s.modW f).grp.acquire = s.grp.acquire := rfl
@[simp] theorem State.modW_grp_copies (s : State) (f : Wave → Wave) : (s.modW f).grp.copies = s.grp.copies := rfl
@[simp] theorem State.modW_grp_failedTags (s : State) (f : Wave → Wave) : (s.modW f).grp.failedTags = s.grp.failedTags := rfl
@[simp] theorem State.modW_grp_epilogues (s : State) (f : Wave → Wave) : (s.modW f).grp.epilogues = s.grp.epilogues := rfl
@[simp] theorem State.modW_grp_started (s : State) (f : Wave → Wave) : (s.modW f).grp.started = s.grp.started := rfl
@[simp] theorem State.modW_grp_drainBy (s : State) (f : Wave → Wave) : (s.modW f).grp.drainBy = s.grp.drainBy := rfl
@[simp] theorem State.modW_grp_saving (s : State) (f : Wave → Wave) : (s.modW f).grp.saving = s.grp.saving := rfl
@[simp] theorem State.modW_grp_stop (s : State) (f : Wave → Wave) : (s.modW f).grp.stop = s.grp.stop := rfl
@[simp] theorem State.modW_grp_scratchPoison (s : State) (f : Wave → Wave) : (s.modW f).grp.scratchPoison = s.grp.scratchPoison := rfl
@[simp] theorem State.modW_grp_obufPoison (s : State) (f : Wave → Wave) : (s.modW f).grp.obufPoison = s.grp.obufPoison := rfl
@[simp] theorem State.modW_grp_wave (s : State) (f : Wave → Wave) : (s.modW f).grp.wave = f s.grp.wave := rfl
@[simp] theorem State.modW_grp_waves (s : State) (f : Wave → Wave) : (s.modW f).grp.waves = s.grp.waves := rfl
theorem State.modW_modW (s : State) (f g : Wave → Wave) : (s.modW f).modW g = s.modW fun w => g (f w) := rfl
@[simp] theorem State.modG_grp (s : State) (f : Group → Group) : (s.modG f).grp = f s.grp := rfl
@[simp] theorem State.modG_rest (s : State) (f : Group → Group) : (s.modG f).rest = s.rest := rfl
@[simp] theorem State.modG_iss (s : State) (f : Group → Group) : (s.modG f).iss = s.iss := rfl
@[simp] theorem State.modG_latch (s : State) (f : Group → Group) : (s.modG f).latch = s.latch := rfl
@[simp] theorem State.modG_mem (s : State) (f : Group → Group) : (s.modG f).mem = s.mem := rfl
@[simp] theorem State.modG_stores (s : State) (f : Group → Group) : (s.modG f).stores = s.stores := rfl
@[simp] theorem State.modG_poison (s : State) (f : Group → Group) : (s.modG f).poison = s.poison := rfl
@[simp] theorem State.modG_owners (s : State) (f : Group → Group) : (s.modG f).owners = s.owners := rfl
@[simp] theorem State.modG_l2 (s : State) (f : Group → Group) : (s.modG f).l2 = s.l2 := rfl
@[simp] theorem State.modG_provs (s : State) (f : Group → Group) : (s.modG f).provs = s.provs := rfl
@[simp] theorem State.modG_bands (s : State) (f : Group → Group) : (s.modG f).bands = s.bands := rfl
@[simp] theorem State.modG_aliases (s : State) (f : Group → Group) : (s.modG f).aliases = s.aliases := rfl
@[simp] theorem State.modG_regions (s : State) (f : Group → Group) : (s.modG f).regions = s.regions := rfl
@[simp] theorem State.modG_fanOuts (s : State) (f : Group → Group) : (s.modG f).fanOuts = s.fanOuts := rfl
@[simp] theorem State.modG_fills (s : State) (f : Group → Group) : (s.modG f).fills = s.fills := rfl
@[simp] theorem State.modG_proxies (s : State) (f : Group → Group) : (s.modG f).proxies = s.proxies := rfl
@[simp] theorem State.modG_exclusive (s : State) (f : Group → Group) : (s.modG f).exclusive = s.exclusive := rfl
@[simp] theorem State.modG_asked (s : State) (f : Group → Group) : (s.modG f).asked = s.asked := rfl
@[simp] theorem State.modG_noLines (s : State) (f : Group → Group) : (s.modG f).noLines = s.noLines := rfl
@[simp] theorem State.modG_remotes (s : State) (f : Group → Group) : (s.modG f).remotes = s.remotes := rfl
@[simp] theorem State.modG_cores (s : State) (f : Group → Group) : (s.modG f).cores = s.cores := rfl
@[simp] theorem State.modG_die0 (s : State) (f : Group → Group) : (s.modG f).die0 = s.die0 := rfl
@[simp] theorem State.modG_die1 (s : State) (f : Group → Group) : (s.modG f).die1 = s.die1 := rfl
@[simp] theorem State.modG_ctxs (s : State) (f : Group → Group) : (s.modG f).ctxs = s.ctxs := rfl
@[simp] theorem State.modG_owned (s : State) (f : Group → Group) : (s.modG f).owned = s.owned := rfl
@[simp] theorem State.modG_merges (s : State) (f : Group → Group) : (s.modG f).merges = s.merges := rfl
@[simp] theorem State.modG_discards (s : State) (f : Group → Group) : (s.modG f).discards = s.discards := rfl
@[simp] theorem State.modG_pokes (s : State) (f : Group → Group) : (s.modG f).pokes = s.pokes := rfl
@[simp] theorem State.modG_roLog (s : State) (f : Group → Group) : (s.modG f).roLog = s.roLog := rfl
@[simp] theorem State.modG_codeLog (s : State) (f : Group → Group) : (s.modG f).codeLog = s.codeLog := rfl
@[simp] theorem State.modG_tlb (s : State) (f : Group → Group) : (s.modG f).tlb = s.tlb := rfl
@[simp] theorem State.modG_combs (s : State) (f : Group → Group) : (s.modG f).combs = s.combs := rfl
@[simp] theorem State.modG_waits (s : State) (f : Group → Group) : (s.modG f).waits = s.waits := rfl
@[simp] theorem State.modG_gathers (s : State) (f : Group → Group) : (s.modG f).gathers = s.gathers := rfl
@[simp] theorem State.modG_fabrics (s : State) (f : Group → Group) : (s.modG f).fabrics = s.fabrics := rfl
@[simp] theorem State.modG_fabIn (s : State) (f : Group → Group) : (s.modG f).fabIn = s.fabIn := rfl
@[simp] theorem State.modG_ringIn (s : State) (f : Group → Group) : (s.modG f).ringIn = s.ringIn := rfl
@[simp] theorem State.modG_rowsIn (s : State) (f : Group → Group) : (s.modG f).rowsIn = s.rowsIn := rfl
@[simp] theorem State.modG_refsAt (s : State) (f : Group → Group) : (s.modG f).refsAt = s.refsAt := rfl
@[simp] theorem State.modG_recalls (s : State) (f : Group → Group) : (s.modG f).recalls = s.recalls := rfl
@[simp] theorem State.modG_leases (s : State) (f : Group → Group) : (s.modG f).leases = s.leases := rfl
@[simp] theorem State.modG_leaseAsked (s : State) (f : Group → Group) : (s.modG f).leaseAsked = s.leaseAsked := rfl
@[simp] theorem State.modG_refused (s : State) (f : Group → Group) : (s.modG f).refused = s.refused := rfl
@[simp] theorem State.modG_leaseWaits (s : State) (f : Group → Group) : (s.modG f).leaseWaits = s.leaseWaits := rfl
@[simp] theorem State.modG_leaseUses (s : State) (f : Group → Group) : (s.modG f).leaseUses = s.leaseUses := rfl
@[simp] theorem State.modG_recalled (s : State) (f : Group → Group) : (s.modG f).recalled = s.recalled := rfl
@[simp] theorem State.modG_purposes (s : State) (f : Group → Group) : (s.modG f).purposes = s.purposes := rfl
@[simp] theorem State.modG_links (s : State) (f : Group → Group) : (s.modG f).links = s.links := rfl
@[simp] theorem State.modG_isais (s : State) (f : Group → Group) : (s.modG f).isais = s.isais := rfl
@[simp] theorem State.modG_raws (s : State) (f : Group → Group) : (s.modG f).raws = s.raws := rfl
@[simp] theorem State.modG_weevil (s : State) (f : Group → Group) : (s.modG f).weevil = s.weevil := rfl
@[simp] theorem State.modG_weevilAt (s : State) (f : Group → Group) : (s.modG f).weevilAt = s.weevilAt := rfl
@[simp] theorem State.modG_contlog (s : State) (f : Group → Group) : (s.modG f).contlog = s.contlog := rfl
@[simp] theorem State.modG_contstat (s : State) (f : Group → Group) : (s.modG f).contstat = s.contstat := rfl
@[simp] theorem State.modG_errlog (s : State) (f : Group → Group) : (s.modG f).errlog = s.errlog := rfl
@[simp] theorem State.modG_errstat (s : State) (f : Group → Group) : (s.modG f).errstat = s.errstat := rfl
@[simp] theorem State.modG_glowstat (s : State) (f : Group → Group) : (s.modG f).glowstat = s.glowstat := rfl
@[simp] theorem State.modG_glowtotal (s : State) (f : Group → Group) : (s.modG f).glowtotal = s.glowtotal := rfl
@[simp] theorem State.modG_bootstat (s : State) (f : Group → Group) : (s.modG f).bootstat = s.bootstat := rfl
@[simp] theorem State.modG_caphead (s : State) (f : Group → Group) : (s.modG f).caphead = s.caphead := rfl
@[simp] theorem State.modG_caps (s : State) (f : Group → Group) : (s.modG f).caps = s.caps := rfl
@[simp] theorem State.modG_applied (s : State) (f : Group → Group) : (s.modG f).applied = s.applied := rfl
@[simp] theorem State.modG_minVersions (s : State) (f : Group → Group) : (s.modG f).minVersions = s.minVersions := rfl
@[simp] theorem State.modG_slots (s : State) (f : Group → Group) : (s.modG f).slots = s.slots := rfl
@[simp] theorem State.modG_spareMap (s : State) (f : Group → Group) : (s.modG f).spareMap = s.spareMap := rfl
@[simp] theorem State.modG_swaps (s : State) (f : Group → Group) : (s.modG f).swaps = s.swaps := rfl
@[simp] theorem State.modG_linksOut (s : State) (f : Group → Group) : (s.modG f).linksOut = s.linksOut := rfl
@[simp] theorem State.modG_lanesOut (s : State) (f : Group → Group) : (s.modG f).lanesOut = s.lanesOut := rfl
@[simp] theorem State.modG_identity (s : State) (f : Group → Group) : (s.modG f).identity = s.identity := rfl
@[simp] theorem State.modG_serial (s : State) (f : Group → Group) : (s.modG f).serial = s.serial := rfl
@[simp] theorem State.modG_restarting (s : State) (f : Group → Group) : (s.modG f).restarting = s.restarting := rfl
@[simp] theorem State.modG_retryAt (s : State) (f : Group → Group) : (s.modG f).retryAt = s.retryAt := rfl
@[simp] theorem State.modG_attestation (s : State) (f : Group → Group) : (s.modG f).attestation = s.attestation := rfl
@[simp] theorem State.modG_hostctx (s : State) (f : Group → Group) : (s.modG f).hostctx = s.hostctx := rfl
@[simp] theorem State.modG_hostresult (s : State) (f : Group → Group) : (s.modG f).hostresult = s.hostresult := rfl
@[simp] theorem State.modG_hostbusy (s : State) (f : Group → Group) : (s.modG f).hostbusy = s.hostbusy := rfl
@[simp] theorem State.modG_hostlanes (s : State) (f : Group → Group) : (s.modG f).hostlanes = s.hostlanes := rfl
@[simp] theorem State.modG_cxlRanges (s : State) (f : Group → Group) : (s.modG f).cxlRanges = s.cxlRanges := rfl
@[simp] theorem State.modG_frameTable (s : State) (f : Group → Group) : (s.modG f).frameTable = s.frameTable := rfl
@[simp] theorem State.modG_poolBase (s : State) (f : Group → Group) : (s.modG f).poolBase = s.poolBase := rfl
@[simp] theorem State.modG_poolPerCore (s : State) (f : Group → Group) : (s.modG f).poolPerCore = s.poolPerCore := rfl
@[simp] theorem State.modG_frozen (s : State) (f : Group → Group) : (s.modG f).frozen = s.frozen := rfl
@[simp] theorem State.modG_clock (s : State) (f : Group → Group) : (s.modG f).clock = s.clock := rfl
@[simp] theorem State.modG_out (s : State) (f : Group → Group) : (s.modG f).out = s.out := rfl
@[simp] theorem State.modG_inbox (s : State) (f : Group → Group) : (s.modG f).inbox = s.inbox := rfl
@[simp] theorem State.modG_nextUid (s : State) (f : Group → Group) : (s.modG f).nextUid = s.nextUid := rfl
@[simp] theorem State.modG_nfree (s : State) (f : Group → Group) : (s.modG f).nfree = s.nfree := rfl

/-! ## The state under a change of a core, a context, a die -/

@[simp] theorem State.modCore_grp (s : State) (c : Nat) (f : Core → Core) : (s.modCore c f).grp = s.grp := rfl
@[simp] theorem State.modCore_rest (s : State) (c : Nat) (f : Core → Core) : (s.modCore c f).rest = s.rest := rfl
@[simp] theorem State.modCore_iss (s : State) (c : Nat) (f : Core → Core) : (s.modCore c f).iss = s.iss := rfl
@[simp] theorem State.modCore_latch (s : State) (c : Nat) (f : Core → Core) : (s.modCore c f).latch = s.latch := rfl
@[simp] theorem State.modCore_mem (s : State) (c : Nat) (f : Core → Core) : (s.modCore c f).mem = s.mem := rfl
@[simp] theorem State.modCore_stores (s : State) (c : Nat) (f : Core → Core) : (s.modCore c f).stores = s.stores := rfl
@[simp] theorem State.modCore_poison (s : State) (c : Nat) (f : Core → Core) : (s.modCore c f).poison = s.poison := rfl
@[simp] theorem State.modCore_owners (s : State) (c : Nat) (f : Core → Core) : (s.modCore c f).owners = s.owners := rfl
@[simp] theorem State.modCore_l2 (s : State) (c : Nat) (f : Core → Core) : (s.modCore c f).l2 = s.l2 := rfl
@[simp] theorem State.modCore_provs (s : State) (c : Nat) (f : Core → Core) : (s.modCore c f).provs = s.provs := rfl
@[simp] theorem State.modCore_bands (s : State) (c : Nat) (f : Core → Core) : (s.modCore c f).bands = s.bands := rfl
@[simp] theorem State.modCore_aliases (s : State) (c : Nat) (f : Core → Core) : (s.modCore c f).aliases = s.aliases := rfl
@[simp] theorem State.modCore_regions (s : State) (c : Nat) (f : Core → Core) : (s.modCore c f).regions = s.regions := rfl
@[simp] theorem State.modCore_fanOuts (s : State) (c : Nat) (f : Core → Core) : (s.modCore c f).fanOuts = s.fanOuts := rfl
@[simp] theorem State.modCore_fills (s : State) (c : Nat) (f : Core → Core) : (s.modCore c f).fills = s.fills := rfl
@[simp] theorem State.modCore_proxies (s : State) (c : Nat) (f : Core → Core) : (s.modCore c f).proxies = s.proxies := rfl
@[simp] theorem State.modCore_exclusive (s : State) (c : Nat) (f : Core → Core) : (s.modCore c f).exclusive = s.exclusive := rfl
@[simp] theorem State.modCore_asked (s : State) (c : Nat) (f : Core → Core) : (s.modCore c f).asked = s.asked := rfl
@[simp] theorem State.modCore_noLines (s : State) (c : Nat) (f : Core → Core) : (s.modCore c f).noLines = s.noLines := rfl
@[simp] theorem State.modCore_remotes (s : State) (c : Nat) (f : Core → Core) : (s.modCore c f).remotes = s.remotes := rfl
@[simp] theorem State.modCore_die0 (s : State) (c : Nat) (f : Core → Core) : (s.modCore c f).die0 = s.die0 := rfl
@[simp] theorem State.modCore_die1 (s : State) (c : Nat) (f : Core → Core) : (s.modCore c f).die1 = s.die1 := rfl
@[simp] theorem State.modCore_ctxs (s : State) (c : Nat) (f : Core → Core) : (s.modCore c f).ctxs = s.ctxs := rfl
@[simp] theorem State.modCore_owned (s : State) (c : Nat) (f : Core → Core) : (s.modCore c f).owned = s.owned := rfl
@[simp] theorem State.modCore_merges (s : State) (c : Nat) (f : Core → Core) : (s.modCore c f).merges = s.merges := rfl
@[simp] theorem State.modCore_discards (s : State) (c : Nat) (f : Core → Core) : (s.modCore c f).discards = s.discards := rfl
@[simp] theorem State.modCore_pokes (s : State) (c : Nat) (f : Core → Core) : (s.modCore c f).pokes = s.pokes := rfl
@[simp] theorem State.modCore_roLog (s : State) (c : Nat) (f : Core → Core) : (s.modCore c f).roLog = s.roLog := rfl
@[simp] theorem State.modCore_codeLog (s : State) (c : Nat) (f : Core → Core) : (s.modCore c f).codeLog = s.codeLog := rfl
@[simp] theorem State.modCore_tlb (s : State) (c : Nat) (f : Core → Core) : (s.modCore c f).tlb = s.tlb := rfl
@[simp] theorem State.modCore_combs (s : State) (c : Nat) (f : Core → Core) : (s.modCore c f).combs = s.combs := rfl
@[simp] theorem State.modCore_waits (s : State) (c : Nat) (f : Core → Core) : (s.modCore c f).waits = s.waits := rfl
@[simp] theorem State.modCore_gathers (s : State) (c : Nat) (f : Core → Core) : (s.modCore c f).gathers = s.gathers := rfl
@[simp] theorem State.modCore_fabrics (s : State) (c : Nat) (f : Core → Core) : (s.modCore c f).fabrics = s.fabrics := rfl
@[simp] theorem State.modCore_fabIn (s : State) (c : Nat) (f : Core → Core) : (s.modCore c f).fabIn = s.fabIn := rfl
@[simp] theorem State.modCore_ringIn (s : State) (c : Nat) (f : Core → Core) : (s.modCore c f).ringIn = s.ringIn := rfl
@[simp] theorem State.modCore_rowsIn (s : State) (c : Nat) (f : Core → Core) : (s.modCore c f).rowsIn = s.rowsIn := rfl
@[simp] theorem State.modCore_refsAt (s : State) (c : Nat) (f : Core → Core) : (s.modCore c f).refsAt = s.refsAt := rfl
@[simp] theorem State.modCore_recalls (s : State) (c : Nat) (f : Core → Core) : (s.modCore c f).recalls = s.recalls := rfl
@[simp] theorem State.modCore_leases (s : State) (c : Nat) (f : Core → Core) : (s.modCore c f).leases = s.leases := rfl
@[simp] theorem State.modCore_leaseAsked (s : State) (c : Nat) (f : Core → Core) : (s.modCore c f).leaseAsked = s.leaseAsked := rfl
@[simp] theorem State.modCore_refused (s : State) (c : Nat) (f : Core → Core) : (s.modCore c f).refused = s.refused := rfl
@[simp] theorem State.modCore_leaseWaits (s : State) (c : Nat) (f : Core → Core) : (s.modCore c f).leaseWaits = s.leaseWaits := rfl
@[simp] theorem State.modCore_leaseUses (s : State) (c : Nat) (f : Core → Core) : (s.modCore c f).leaseUses = s.leaseUses := rfl
@[simp] theorem State.modCore_recalled (s : State) (c : Nat) (f : Core → Core) : (s.modCore c f).recalled = s.recalled := rfl
@[simp] theorem State.modCore_purposes (s : State) (c : Nat) (f : Core → Core) : (s.modCore c f).purposes = s.purposes := rfl
@[simp] theorem State.modCore_links (s : State) (c : Nat) (f : Core → Core) : (s.modCore c f).links = s.links := rfl
@[simp] theorem State.modCore_isais (s : State) (c : Nat) (f : Core → Core) : (s.modCore c f).isais = s.isais := rfl
@[simp] theorem State.modCore_raws (s : State) (c : Nat) (f : Core → Core) : (s.modCore c f).raws = s.raws := rfl
@[simp] theorem State.modCore_weevil (s : State) (c : Nat) (f : Core → Core) : (s.modCore c f).weevil = s.weevil := rfl
@[simp] theorem State.modCore_weevilAt (s : State) (c : Nat) (f : Core → Core) : (s.modCore c f).weevilAt = s.weevilAt := rfl
@[simp] theorem State.modCore_contlog (s : State) (c : Nat) (f : Core → Core) : (s.modCore c f).contlog = s.contlog := rfl
@[simp] theorem State.modCore_contstat (s : State) (c : Nat) (f : Core → Core) : (s.modCore c f).contstat = s.contstat := rfl
@[simp] theorem State.modCore_errlog (s : State) (c : Nat) (f : Core → Core) : (s.modCore c f).errlog = s.errlog := rfl
@[simp] theorem State.modCore_errstat (s : State) (c : Nat) (f : Core → Core) : (s.modCore c f).errstat = s.errstat := rfl
@[simp] theorem State.modCore_glowstat (s : State) (c : Nat) (f : Core → Core) : (s.modCore c f).glowstat = s.glowstat := rfl
@[simp] theorem State.modCore_glowtotal (s : State) (c : Nat) (f : Core → Core) : (s.modCore c f).glowtotal = s.glowtotal := rfl
@[simp] theorem State.modCore_bootstat (s : State) (c : Nat) (f : Core → Core) : (s.modCore c f).bootstat = s.bootstat := rfl
@[simp] theorem State.modCore_caphead (s : State) (c : Nat) (f : Core → Core) : (s.modCore c f).caphead = s.caphead := rfl
@[simp] theorem State.modCore_caps (s : State) (c : Nat) (f : Core → Core) : (s.modCore c f).caps = s.caps := rfl
@[simp] theorem State.modCore_applied (s : State) (c : Nat) (f : Core → Core) : (s.modCore c f).applied = s.applied := rfl
@[simp] theorem State.modCore_minVersions (s : State) (c : Nat) (f : Core → Core) : (s.modCore c f).minVersions = s.minVersions := rfl
@[simp] theorem State.modCore_slots (s : State) (c : Nat) (f : Core → Core) : (s.modCore c f).slots = s.slots := rfl
@[simp] theorem State.modCore_spareMap (s : State) (c : Nat) (f : Core → Core) : (s.modCore c f).spareMap = s.spareMap := rfl
@[simp] theorem State.modCore_swaps (s : State) (c : Nat) (f : Core → Core) : (s.modCore c f).swaps = s.swaps := rfl
@[simp] theorem State.modCore_linksOut (s : State) (c : Nat) (f : Core → Core) : (s.modCore c f).linksOut = s.linksOut := rfl
@[simp] theorem State.modCore_lanesOut (s : State) (c : Nat) (f : Core → Core) : (s.modCore c f).lanesOut = s.lanesOut := rfl
@[simp] theorem State.modCore_identity (s : State) (c : Nat) (f : Core → Core) : (s.modCore c f).identity = s.identity := rfl
@[simp] theorem State.modCore_serial (s : State) (c : Nat) (f : Core → Core) : (s.modCore c f).serial = s.serial := rfl
@[simp] theorem State.modCore_restarting (s : State) (c : Nat) (f : Core → Core) : (s.modCore c f).restarting = s.restarting := rfl
@[simp] theorem State.modCore_retryAt (s : State) (c : Nat) (f : Core → Core) : (s.modCore c f).retryAt = s.retryAt := rfl
@[simp] theorem State.modCore_attestation (s : State) (c : Nat) (f : Core → Core) : (s.modCore c f).attestation = s.attestation := rfl
@[simp] theorem State.modCore_hostctx (s : State) (c : Nat) (f : Core → Core) : (s.modCore c f).hostctx = s.hostctx := rfl
@[simp] theorem State.modCore_hostresult (s : State) (c : Nat) (f : Core → Core) : (s.modCore c f).hostresult = s.hostresult := rfl
@[simp] theorem State.modCore_hostbusy (s : State) (c : Nat) (f : Core → Core) : (s.modCore c f).hostbusy = s.hostbusy := rfl
@[simp] theorem State.modCore_hostlanes (s : State) (c : Nat) (f : Core → Core) : (s.modCore c f).hostlanes = s.hostlanes := rfl
@[simp] theorem State.modCore_cxlRanges (s : State) (c : Nat) (f : Core → Core) : (s.modCore c f).cxlRanges = s.cxlRanges := rfl
@[simp] theorem State.modCore_frameTable (s : State) (c : Nat) (f : Core → Core) : (s.modCore c f).frameTable = s.frameTable := rfl
@[simp] theorem State.modCore_poolBase (s : State) (c : Nat) (f : Core → Core) : (s.modCore c f).poolBase = s.poolBase := rfl
@[simp] theorem State.modCore_poolPerCore (s : State) (c : Nat) (f : Core → Core) : (s.modCore c f).poolPerCore = s.poolPerCore := rfl
@[simp] theorem State.modCore_frozen (s : State) (c : Nat) (f : Core → Core) : (s.modCore c f).frozen = s.frozen := rfl
@[simp] theorem State.modCore_clock (s : State) (c : Nat) (f : Core → Core) : (s.modCore c f).clock = s.clock := rfl
@[simp] theorem State.modCore_out (s : State) (c : Nat) (f : Core → Core) : (s.modCore c f).out = s.out := rfl
@[simp] theorem State.modCore_inbox (s : State) (c : Nat) (f : Core → Core) : (s.modCore c f).inbox = s.inbox := rfl
@[simp] theorem State.modCore_nextUid (s : State) (c : Nat) (f : Core → Core) : (s.modCore c f).nextUid = s.nextUid := rfl
@[simp] theorem State.modCore_nfree (s : State) (c : Nat) (f : Core → Core) : (s.modCore c f).nfree = s.nfree := rfl
@[simp] theorem State.modCtx_grp (s : State) (c : Nat) (f : Context → Context) : (s.modCtx c f).grp = s.grp := rfl
@[simp] theorem State.modCtx_rest (s : State) (c : Nat) (f : Context → Context) : (s.modCtx c f).rest = s.rest := rfl
@[simp] theorem State.modCtx_iss (s : State) (c : Nat) (f : Context → Context) : (s.modCtx c f).iss = s.iss := rfl
@[simp] theorem State.modCtx_latch (s : State) (c : Nat) (f : Context → Context) : (s.modCtx c f).latch = s.latch := rfl
@[simp] theorem State.modCtx_mem (s : State) (c : Nat) (f : Context → Context) : (s.modCtx c f).mem = s.mem := rfl
@[simp] theorem State.modCtx_stores (s : State) (c : Nat) (f : Context → Context) : (s.modCtx c f).stores = s.stores := rfl
@[simp] theorem State.modCtx_poison (s : State) (c : Nat) (f : Context → Context) : (s.modCtx c f).poison = s.poison := rfl
@[simp] theorem State.modCtx_owners (s : State) (c : Nat) (f : Context → Context) : (s.modCtx c f).owners = s.owners := rfl
@[simp] theorem State.modCtx_l2 (s : State) (c : Nat) (f : Context → Context) : (s.modCtx c f).l2 = s.l2 := rfl
@[simp] theorem State.modCtx_provs (s : State) (c : Nat) (f : Context → Context) : (s.modCtx c f).provs = s.provs := rfl
@[simp] theorem State.modCtx_bands (s : State) (c : Nat) (f : Context → Context) : (s.modCtx c f).bands = s.bands := rfl
@[simp] theorem State.modCtx_aliases (s : State) (c : Nat) (f : Context → Context) : (s.modCtx c f).aliases = s.aliases := rfl
@[simp] theorem State.modCtx_regions (s : State) (c : Nat) (f : Context → Context) : (s.modCtx c f).regions = s.regions := rfl
@[simp] theorem State.modCtx_fanOuts (s : State) (c : Nat) (f : Context → Context) : (s.modCtx c f).fanOuts = s.fanOuts := rfl
@[simp] theorem State.modCtx_fills (s : State) (c : Nat) (f : Context → Context) : (s.modCtx c f).fills = s.fills := rfl
@[simp] theorem State.modCtx_proxies (s : State) (c : Nat) (f : Context → Context) : (s.modCtx c f).proxies = s.proxies := rfl
@[simp] theorem State.modCtx_exclusive (s : State) (c : Nat) (f : Context → Context) : (s.modCtx c f).exclusive = s.exclusive := rfl
@[simp] theorem State.modCtx_asked (s : State) (c : Nat) (f : Context → Context) : (s.modCtx c f).asked = s.asked := rfl
@[simp] theorem State.modCtx_noLines (s : State) (c : Nat) (f : Context → Context) : (s.modCtx c f).noLines = s.noLines := rfl
@[simp] theorem State.modCtx_remotes (s : State) (c : Nat) (f : Context → Context) : (s.modCtx c f).remotes = s.remotes := rfl
@[simp] theorem State.modCtx_cores (s : State) (c : Nat) (f : Context → Context) : (s.modCtx c f).cores = s.cores := rfl
@[simp] theorem State.modCtx_die0 (s : State) (c : Nat) (f : Context → Context) : (s.modCtx c f).die0 = s.die0 := rfl
@[simp] theorem State.modCtx_die1 (s : State) (c : Nat) (f : Context → Context) : (s.modCtx c f).die1 = s.die1 := rfl
@[simp] theorem State.modCtx_owned (s : State) (c : Nat) (f : Context → Context) : (s.modCtx c f).owned = s.owned := rfl
@[simp] theorem State.modCtx_merges (s : State) (c : Nat) (f : Context → Context) : (s.modCtx c f).merges = s.merges := rfl
@[simp] theorem State.modCtx_discards (s : State) (c : Nat) (f : Context → Context) : (s.modCtx c f).discards = s.discards := rfl
@[simp] theorem State.modCtx_pokes (s : State) (c : Nat) (f : Context → Context) : (s.modCtx c f).pokes = s.pokes := rfl
@[simp] theorem State.modCtx_roLog (s : State) (c : Nat) (f : Context → Context) : (s.modCtx c f).roLog = s.roLog := rfl
@[simp] theorem State.modCtx_codeLog (s : State) (c : Nat) (f : Context → Context) : (s.modCtx c f).codeLog = s.codeLog := rfl
@[simp] theorem State.modCtx_tlb (s : State) (c : Nat) (f : Context → Context) : (s.modCtx c f).tlb = s.tlb := rfl
@[simp] theorem State.modCtx_combs (s : State) (c : Nat) (f : Context → Context) : (s.modCtx c f).combs = s.combs := rfl
@[simp] theorem State.modCtx_waits (s : State) (c : Nat) (f : Context → Context) : (s.modCtx c f).waits = s.waits := rfl
@[simp] theorem State.modCtx_gathers (s : State) (c : Nat) (f : Context → Context) : (s.modCtx c f).gathers = s.gathers := rfl
@[simp] theorem State.modCtx_fabrics (s : State) (c : Nat) (f : Context → Context) : (s.modCtx c f).fabrics = s.fabrics := rfl
@[simp] theorem State.modCtx_fabIn (s : State) (c : Nat) (f : Context → Context) : (s.modCtx c f).fabIn = s.fabIn := rfl
@[simp] theorem State.modCtx_ringIn (s : State) (c : Nat) (f : Context → Context) : (s.modCtx c f).ringIn = s.ringIn := rfl
@[simp] theorem State.modCtx_rowsIn (s : State) (c : Nat) (f : Context → Context) : (s.modCtx c f).rowsIn = s.rowsIn := rfl
@[simp] theorem State.modCtx_refsAt (s : State) (c : Nat) (f : Context → Context) : (s.modCtx c f).refsAt = s.refsAt := rfl
@[simp] theorem State.modCtx_recalls (s : State) (c : Nat) (f : Context → Context) : (s.modCtx c f).recalls = s.recalls := rfl
@[simp] theorem State.modCtx_leases (s : State) (c : Nat) (f : Context → Context) : (s.modCtx c f).leases = s.leases := rfl
@[simp] theorem State.modCtx_leaseAsked (s : State) (c : Nat) (f : Context → Context) : (s.modCtx c f).leaseAsked = s.leaseAsked := rfl
@[simp] theorem State.modCtx_refused (s : State) (c : Nat) (f : Context → Context) : (s.modCtx c f).refused = s.refused := rfl
@[simp] theorem State.modCtx_leaseWaits (s : State) (c : Nat) (f : Context → Context) : (s.modCtx c f).leaseWaits = s.leaseWaits := rfl
@[simp] theorem State.modCtx_leaseUses (s : State) (c : Nat) (f : Context → Context) : (s.modCtx c f).leaseUses = s.leaseUses := rfl
@[simp] theorem State.modCtx_recalled (s : State) (c : Nat) (f : Context → Context) : (s.modCtx c f).recalled = s.recalled := rfl
@[simp] theorem State.modCtx_purposes (s : State) (c : Nat) (f : Context → Context) : (s.modCtx c f).purposes = s.purposes := rfl
@[simp] theorem State.modCtx_links (s : State) (c : Nat) (f : Context → Context) : (s.modCtx c f).links = s.links := rfl
@[simp] theorem State.modCtx_isais (s : State) (c : Nat) (f : Context → Context) : (s.modCtx c f).isais = s.isais := rfl
@[simp] theorem State.modCtx_raws (s : State) (c : Nat) (f : Context → Context) : (s.modCtx c f).raws = s.raws := rfl
@[simp] theorem State.modCtx_weevil (s : State) (c : Nat) (f : Context → Context) : (s.modCtx c f).weevil = s.weevil := rfl
@[simp] theorem State.modCtx_weevilAt (s : State) (c : Nat) (f : Context → Context) : (s.modCtx c f).weevilAt = s.weevilAt := rfl
@[simp] theorem State.modCtx_contlog (s : State) (c : Nat) (f : Context → Context) : (s.modCtx c f).contlog = s.contlog := rfl
@[simp] theorem State.modCtx_contstat (s : State) (c : Nat) (f : Context → Context) : (s.modCtx c f).contstat = s.contstat := rfl
@[simp] theorem State.modCtx_errlog (s : State) (c : Nat) (f : Context → Context) : (s.modCtx c f).errlog = s.errlog := rfl
@[simp] theorem State.modCtx_errstat (s : State) (c : Nat) (f : Context → Context) : (s.modCtx c f).errstat = s.errstat := rfl
@[simp] theorem State.modCtx_glowstat (s : State) (c : Nat) (f : Context → Context) : (s.modCtx c f).glowstat = s.glowstat := rfl
@[simp] theorem State.modCtx_glowtotal (s : State) (c : Nat) (f : Context → Context) : (s.modCtx c f).glowtotal = s.glowtotal := rfl
@[simp] theorem State.modCtx_bootstat (s : State) (c : Nat) (f : Context → Context) : (s.modCtx c f).bootstat = s.bootstat := rfl
@[simp] theorem State.modCtx_caphead (s : State) (c : Nat) (f : Context → Context) : (s.modCtx c f).caphead = s.caphead := rfl
@[simp] theorem State.modCtx_caps (s : State) (c : Nat) (f : Context → Context) : (s.modCtx c f).caps = s.caps := rfl
@[simp] theorem State.modCtx_applied (s : State) (c : Nat) (f : Context → Context) : (s.modCtx c f).applied = s.applied := rfl
@[simp] theorem State.modCtx_minVersions (s : State) (c : Nat) (f : Context → Context) : (s.modCtx c f).minVersions = s.minVersions := rfl
@[simp] theorem State.modCtx_slots (s : State) (c : Nat) (f : Context → Context) : (s.modCtx c f).slots = s.slots := rfl
@[simp] theorem State.modCtx_spareMap (s : State) (c : Nat) (f : Context → Context) : (s.modCtx c f).spareMap = s.spareMap := rfl
@[simp] theorem State.modCtx_swaps (s : State) (c : Nat) (f : Context → Context) : (s.modCtx c f).swaps = s.swaps := rfl
@[simp] theorem State.modCtx_linksOut (s : State) (c : Nat) (f : Context → Context) : (s.modCtx c f).linksOut = s.linksOut := rfl
@[simp] theorem State.modCtx_lanesOut (s : State) (c : Nat) (f : Context → Context) : (s.modCtx c f).lanesOut = s.lanesOut := rfl
@[simp] theorem State.modCtx_identity (s : State) (c : Nat) (f : Context → Context) : (s.modCtx c f).identity = s.identity := rfl
@[simp] theorem State.modCtx_serial (s : State) (c : Nat) (f : Context → Context) : (s.modCtx c f).serial = s.serial := rfl
@[simp] theorem State.modCtx_restarting (s : State) (c : Nat) (f : Context → Context) : (s.modCtx c f).restarting = s.restarting := rfl
@[simp] theorem State.modCtx_retryAt (s : State) (c : Nat) (f : Context → Context) : (s.modCtx c f).retryAt = s.retryAt := rfl
@[simp] theorem State.modCtx_attestation (s : State) (c : Nat) (f : Context → Context) : (s.modCtx c f).attestation = s.attestation := rfl
@[simp] theorem State.modCtx_hostctx (s : State) (c : Nat) (f : Context → Context) : (s.modCtx c f).hostctx = s.hostctx := rfl
@[simp] theorem State.modCtx_hostresult (s : State) (c : Nat) (f : Context → Context) : (s.modCtx c f).hostresult = s.hostresult := rfl
@[simp] theorem State.modCtx_hostbusy (s : State) (c : Nat) (f : Context → Context) : (s.modCtx c f).hostbusy = s.hostbusy := rfl
@[simp] theorem State.modCtx_hostlanes (s : State) (c : Nat) (f : Context → Context) : (s.modCtx c f).hostlanes = s.hostlanes := rfl
@[simp] theorem State.modCtx_cxlRanges (s : State) (c : Nat) (f : Context → Context) : (s.modCtx c f).cxlRanges = s.cxlRanges := rfl
@[simp] theorem State.modCtx_frameTable (s : State) (c : Nat) (f : Context → Context) : (s.modCtx c f).frameTable = s.frameTable := rfl
@[simp] theorem State.modCtx_poolBase (s : State) (c : Nat) (f : Context → Context) : (s.modCtx c f).poolBase = s.poolBase := rfl
@[simp] theorem State.modCtx_poolPerCore (s : State) (c : Nat) (f : Context → Context) : (s.modCtx c f).poolPerCore = s.poolPerCore := rfl
@[simp] theorem State.modCtx_frozen (s : State) (c : Nat) (f : Context → Context) : (s.modCtx c f).frozen = s.frozen := rfl
@[simp] theorem State.modCtx_clock (s : State) (c : Nat) (f : Context → Context) : (s.modCtx c f).clock = s.clock := rfl
@[simp] theorem State.modCtx_out (s : State) (c : Nat) (f : Context → Context) : (s.modCtx c f).out = s.out := rfl
@[simp] theorem State.modCtx_inbox (s : State) (c : Nat) (f : Context → Context) : (s.modCtx c f).inbox = s.inbox := rfl
@[simp] theorem State.modCtx_nextUid (s : State) (c : Nat) (f : Context → Context) : (s.modCtx c f).nextUid = s.nextUid := rfl
@[simp] theorem State.modCtx_nfree (s : State) (c : Nat) (f : Context → Context) : (s.modCtx c f).nfree = s.nfree := rfl
@[simp] theorem State.modCore_cores (s : State) (c : Nat) (f : Core → Core) : (s.modCore c f).cores = put s.cores c (f (s.core c)) := rfl
@[simp] theorem State.modCtx_ctxs (s : State) (c : Nat) (f : Context → Context) : (s.modCtx c f).ctxs = put s.ctxs c (f (s.ctx c)) := rfl
@[simp] theorem State.modDie_grp (s : State) (d : Nat) (f : Die → Die) : (s.modDie d f).grp = s.grp := by unfold State.modDie; split <;> rfl
@[simp] theorem State.modDie_rest (s : State) (d : Nat) (f : Die → Die) : (s.modDie d f).rest = s.rest := by unfold State.modDie; split <;> rfl
@[simp] theorem State.modDie_iss (s : State) (d : Nat) (f : Die → Die) : (s.modDie d f).iss = s.iss := by unfold State.modDie; split <;> rfl
@[simp] theorem State.modDie_latch (s : State) (d : Nat) (f : Die → Die) : (s.modDie d f).latch = s.latch := by unfold State.modDie; split <;> rfl
@[simp] theorem State.modDie_mem (s : State) (d : Nat) (f : Die → Die) : (s.modDie d f).mem = s.mem := by unfold State.modDie; split <;> rfl
@[simp] theorem State.modDie_stores (s : State) (d : Nat) (f : Die → Die) : (s.modDie d f).stores = s.stores := by unfold State.modDie; split <;> rfl
@[simp] theorem State.modDie_poison (s : State) (d : Nat) (f : Die → Die) : (s.modDie d f).poison = s.poison := by unfold State.modDie; split <;> rfl
@[simp] theorem State.modDie_owners (s : State) (d : Nat) (f : Die → Die) : (s.modDie d f).owners = s.owners := by unfold State.modDie; split <;> rfl
@[simp] theorem State.modDie_l2 (s : State) (d : Nat) (f : Die → Die) : (s.modDie d f).l2 = s.l2 := by unfold State.modDie; split <;> rfl
@[simp] theorem State.modDie_provs (s : State) (d : Nat) (f : Die → Die) : (s.modDie d f).provs = s.provs := by unfold State.modDie; split <;> rfl
@[simp] theorem State.modDie_bands (s : State) (d : Nat) (f : Die → Die) : (s.modDie d f).bands = s.bands := by unfold State.modDie; split <;> rfl
@[simp] theorem State.modDie_aliases (s : State) (d : Nat) (f : Die → Die) : (s.modDie d f).aliases = s.aliases := by unfold State.modDie; split <;> rfl
@[simp] theorem State.modDie_regions (s : State) (d : Nat) (f : Die → Die) : (s.modDie d f).regions = s.regions := by unfold State.modDie; split <;> rfl
@[simp] theorem State.modDie_fanOuts (s : State) (d : Nat) (f : Die → Die) : (s.modDie d f).fanOuts = s.fanOuts := by unfold State.modDie; split <;> rfl
@[simp] theorem State.modDie_fills (s : State) (d : Nat) (f : Die → Die) : (s.modDie d f).fills = s.fills := by unfold State.modDie; split <;> rfl
@[simp] theorem State.modDie_proxies (s : State) (d : Nat) (f : Die → Die) : (s.modDie d f).proxies = s.proxies := by unfold State.modDie; split <;> rfl
@[simp] theorem State.modDie_exclusive (s : State) (d : Nat) (f : Die → Die) : (s.modDie d f).exclusive = s.exclusive := by unfold State.modDie; split <;> rfl
@[simp] theorem State.modDie_asked (s : State) (d : Nat) (f : Die → Die) : (s.modDie d f).asked = s.asked := by unfold State.modDie; split <;> rfl
@[simp] theorem State.modDie_noLines (s : State) (d : Nat) (f : Die → Die) : (s.modDie d f).noLines = s.noLines := by unfold State.modDie; split <;> rfl
@[simp] theorem State.modDie_remotes (s : State) (d : Nat) (f : Die → Die) : (s.modDie d f).remotes = s.remotes := by unfold State.modDie; split <;> rfl
@[simp] theorem State.modDie_cores (s : State) (d : Nat) (f : Die → Die) : (s.modDie d f).cores = s.cores := by unfold State.modDie; split <;> rfl
@[simp] theorem State.modDie_ctxs (s : State) (d : Nat) (f : Die → Die) : (s.modDie d f).ctxs = s.ctxs := by unfold State.modDie; split <;> rfl
@[simp] theorem State.modDie_owned (s : State) (d : Nat) (f : Die → Die) : (s.modDie d f).owned = s.owned := by unfold State.modDie; split <;> rfl
@[simp] theorem State.modDie_merges (s : State) (d : Nat) (f : Die → Die) : (s.modDie d f).merges = s.merges := by unfold State.modDie; split <;> rfl
@[simp] theorem State.modDie_discards (s : State) (d : Nat) (f : Die → Die) : (s.modDie d f).discards = s.discards := by unfold State.modDie; split <;> rfl
@[simp] theorem State.modDie_pokes (s : State) (d : Nat) (f : Die → Die) : (s.modDie d f).pokes = s.pokes := by unfold State.modDie; split <;> rfl
@[simp] theorem State.modDie_roLog (s : State) (d : Nat) (f : Die → Die) : (s.modDie d f).roLog = s.roLog := by unfold State.modDie; split <;> rfl
@[simp] theorem State.modDie_codeLog (s : State) (d : Nat) (f : Die → Die) : (s.modDie d f).codeLog = s.codeLog := by unfold State.modDie; split <;> rfl
@[simp] theorem State.modDie_tlb (s : State) (d : Nat) (f : Die → Die) : (s.modDie d f).tlb = s.tlb := by unfold State.modDie; split <;> rfl
@[simp] theorem State.modDie_combs (s : State) (d : Nat) (f : Die → Die) : (s.modDie d f).combs = s.combs := by unfold State.modDie; split <;> rfl
@[simp] theorem State.modDie_waits (s : State) (d : Nat) (f : Die → Die) : (s.modDie d f).waits = s.waits := by unfold State.modDie; split <;> rfl
@[simp] theorem State.modDie_gathers (s : State) (d : Nat) (f : Die → Die) : (s.modDie d f).gathers = s.gathers := by unfold State.modDie; split <;> rfl
@[simp] theorem State.modDie_fabrics (s : State) (d : Nat) (f : Die → Die) : (s.modDie d f).fabrics = s.fabrics := by unfold State.modDie; split <;> rfl
@[simp] theorem State.modDie_fabIn (s : State) (d : Nat) (f : Die → Die) : (s.modDie d f).fabIn = s.fabIn := by unfold State.modDie; split <;> rfl
@[simp] theorem State.modDie_ringIn (s : State) (d : Nat) (f : Die → Die) : (s.modDie d f).ringIn = s.ringIn := by unfold State.modDie; split <;> rfl
@[simp] theorem State.modDie_rowsIn (s : State) (d : Nat) (f : Die → Die) : (s.modDie d f).rowsIn = s.rowsIn := by unfold State.modDie; split <;> rfl
@[simp] theorem State.modDie_refsAt (s : State) (d : Nat) (f : Die → Die) : (s.modDie d f).refsAt = s.refsAt := by unfold State.modDie; split <;> rfl
@[simp] theorem State.modDie_recalls (s : State) (d : Nat) (f : Die → Die) : (s.modDie d f).recalls = s.recalls := by unfold State.modDie; split <;> rfl
@[simp] theorem State.modDie_leases (s : State) (d : Nat) (f : Die → Die) : (s.modDie d f).leases = s.leases := by unfold State.modDie; split <;> rfl
@[simp] theorem State.modDie_leaseAsked (s : State) (d : Nat) (f : Die → Die) : (s.modDie d f).leaseAsked = s.leaseAsked := by unfold State.modDie; split <;> rfl
@[simp] theorem State.modDie_refused (s : State) (d : Nat) (f : Die → Die) : (s.modDie d f).refused = s.refused := by unfold State.modDie; split <;> rfl
@[simp] theorem State.modDie_leaseWaits (s : State) (d : Nat) (f : Die → Die) : (s.modDie d f).leaseWaits = s.leaseWaits := by unfold State.modDie; split <;> rfl
@[simp] theorem State.modDie_leaseUses (s : State) (d : Nat) (f : Die → Die) : (s.modDie d f).leaseUses = s.leaseUses := by unfold State.modDie; split <;> rfl
@[simp] theorem State.modDie_recalled (s : State) (d : Nat) (f : Die → Die) : (s.modDie d f).recalled = s.recalled := by unfold State.modDie; split <;> rfl
@[simp] theorem State.modDie_purposes (s : State) (d : Nat) (f : Die → Die) : (s.modDie d f).purposes = s.purposes := by unfold State.modDie; split <;> rfl
@[simp] theorem State.modDie_links (s : State) (d : Nat) (f : Die → Die) : (s.modDie d f).links = s.links := by unfold State.modDie; split <;> rfl
@[simp] theorem State.modDie_isais (s : State) (d : Nat) (f : Die → Die) : (s.modDie d f).isais = s.isais := by unfold State.modDie; split <;> rfl
@[simp] theorem State.modDie_raws (s : State) (d : Nat) (f : Die → Die) : (s.modDie d f).raws = s.raws := by unfold State.modDie; split <;> rfl
@[simp] theorem State.modDie_weevil (s : State) (d : Nat) (f : Die → Die) : (s.modDie d f).weevil = s.weevil := by unfold State.modDie; split <;> rfl
@[simp] theorem State.modDie_weevilAt (s : State) (d : Nat) (f : Die → Die) : (s.modDie d f).weevilAt = s.weevilAt := by unfold State.modDie; split <;> rfl
@[simp] theorem State.modDie_contlog (s : State) (d : Nat) (f : Die → Die) : (s.modDie d f).contlog = s.contlog := by unfold State.modDie; split <;> rfl
@[simp] theorem State.modDie_contstat (s : State) (d : Nat) (f : Die → Die) : (s.modDie d f).contstat = s.contstat := by unfold State.modDie; split <;> rfl
@[simp] theorem State.modDie_errlog (s : State) (d : Nat) (f : Die → Die) : (s.modDie d f).errlog = s.errlog := by unfold State.modDie; split <;> rfl
@[simp] theorem State.modDie_errstat (s : State) (d : Nat) (f : Die → Die) : (s.modDie d f).errstat = s.errstat := by unfold State.modDie; split <;> rfl
@[simp] theorem State.modDie_glowstat (s : State) (d : Nat) (f : Die → Die) : (s.modDie d f).glowstat = s.glowstat := by unfold State.modDie; split <;> rfl
@[simp] theorem State.modDie_glowtotal (s : State) (d : Nat) (f : Die → Die) : (s.modDie d f).glowtotal = s.glowtotal := by unfold State.modDie; split <;> rfl
@[simp] theorem State.modDie_bootstat (s : State) (d : Nat) (f : Die → Die) : (s.modDie d f).bootstat = s.bootstat := by unfold State.modDie; split <;> rfl
@[simp] theorem State.modDie_caphead (s : State) (d : Nat) (f : Die → Die) : (s.modDie d f).caphead = s.caphead := by unfold State.modDie; split <;> rfl
@[simp] theorem State.modDie_caps (s : State) (d : Nat) (f : Die → Die) : (s.modDie d f).caps = s.caps := by unfold State.modDie; split <;> rfl
@[simp] theorem State.modDie_applied (s : State) (d : Nat) (f : Die → Die) : (s.modDie d f).applied = s.applied := by unfold State.modDie; split <;> rfl
@[simp] theorem State.modDie_minVersions (s : State) (d : Nat) (f : Die → Die) : (s.modDie d f).minVersions = s.minVersions := by unfold State.modDie; split <;> rfl
@[simp] theorem State.modDie_slots (s : State) (d : Nat) (f : Die → Die) : (s.modDie d f).slots = s.slots := by unfold State.modDie; split <;> rfl
@[simp] theorem State.modDie_spareMap (s : State) (d : Nat) (f : Die → Die) : (s.modDie d f).spareMap = s.spareMap := by unfold State.modDie; split <;> rfl
@[simp] theorem State.modDie_swaps (s : State) (d : Nat) (f : Die → Die) : (s.modDie d f).swaps = s.swaps := by unfold State.modDie; split <;> rfl
@[simp] theorem State.modDie_linksOut (s : State) (d : Nat) (f : Die → Die) : (s.modDie d f).linksOut = s.linksOut := by unfold State.modDie; split <;> rfl
@[simp] theorem State.modDie_lanesOut (s : State) (d : Nat) (f : Die → Die) : (s.modDie d f).lanesOut = s.lanesOut := by unfold State.modDie; split <;> rfl
@[simp] theorem State.modDie_identity (s : State) (d : Nat) (f : Die → Die) : (s.modDie d f).identity = s.identity := by unfold State.modDie; split <;> rfl
@[simp] theorem State.modDie_serial (s : State) (d : Nat) (f : Die → Die) : (s.modDie d f).serial = s.serial := by unfold State.modDie; split <;> rfl
@[simp] theorem State.modDie_restarting (s : State) (d : Nat) (f : Die → Die) : (s.modDie d f).restarting = s.restarting := by unfold State.modDie; split <;> rfl
@[simp] theorem State.modDie_retryAt (s : State) (d : Nat) (f : Die → Die) : (s.modDie d f).retryAt = s.retryAt := by unfold State.modDie; split <;> rfl
@[simp] theorem State.modDie_attestation (s : State) (d : Nat) (f : Die → Die) : (s.modDie d f).attestation = s.attestation := by unfold State.modDie; split <;> rfl
@[simp] theorem State.modDie_hostctx (s : State) (d : Nat) (f : Die → Die) : (s.modDie d f).hostctx = s.hostctx := by unfold State.modDie; split <;> rfl
@[simp] theorem State.modDie_hostresult (s : State) (d : Nat) (f : Die → Die) : (s.modDie d f).hostresult = s.hostresult := by unfold State.modDie; split <;> rfl
@[simp] theorem State.modDie_hostbusy (s : State) (d : Nat) (f : Die → Die) : (s.modDie d f).hostbusy = s.hostbusy := by unfold State.modDie; split <;> rfl
@[simp] theorem State.modDie_hostlanes (s : State) (d : Nat) (f : Die → Die) : (s.modDie d f).hostlanes = s.hostlanes := by unfold State.modDie; split <;> rfl
@[simp] theorem State.modDie_cxlRanges (s : State) (d : Nat) (f : Die → Die) : (s.modDie d f).cxlRanges = s.cxlRanges := by unfold State.modDie; split <;> rfl
@[simp] theorem State.modDie_frameTable (s : State) (d : Nat) (f : Die → Die) : (s.modDie d f).frameTable = s.frameTable := by unfold State.modDie; split <;> rfl
@[simp] theorem State.modDie_poolBase (s : State) (d : Nat) (f : Die → Die) : (s.modDie d f).poolBase = s.poolBase := by unfold State.modDie; split <;> rfl
@[simp] theorem State.modDie_poolPerCore (s : State) (d : Nat) (f : Die → Die) : (s.modDie d f).poolPerCore = s.poolPerCore := by unfold State.modDie; split <;> rfl
@[simp] theorem State.modDie_frozen (s : State) (d : Nat) (f : Die → Die) : (s.modDie d f).frozen = s.frozen := by unfold State.modDie; split <;> rfl
@[simp] theorem State.modDie_clock (s : State) (d : Nat) (f : Die → Die) : (s.modDie d f).clock = s.clock := by unfold State.modDie; split <;> rfl
@[simp] theorem State.modDie_out (s : State) (d : Nat) (f : Die → Die) : (s.modDie d f).out = s.out := by unfold State.modDie; split <;> rfl
@[simp] theorem State.modDie_inbox (s : State) (d : Nat) (f : Die → Die) : (s.modDie d f).inbox = s.inbox := by unfold State.modDie; split <;> rfl
@[simp] theorem State.modDie_nextUid (s : State) (d : Nat) (f : Die → Die) : (s.modDie d f).nextUid = s.nextUid := by unfold State.modDie; split <;> rfl
@[simp] theorem State.modDie_nfree (s : State) (d : Nat) (f : Die → Die) : (s.modDie d f).nfree = s.nfree := by unfold State.modDie; split <;> rfl
@[simp] theorem State.modDie_die0 (s : State) (d : Nat) (f : Die → Die) : (s.modDie d f).die0 = if d = 0 then f s.die0 else s.die0 := by
  unfold State.modDie; split <;> rfl
@[simp] theorem State.modDie_die1 (s : State) (d : Nat) (f : Die → Die) : (s.modDie d f).die1 = if d = 0 then s.die1 else f s.die1 := by
  unfold State.modDie; split <;> rfl

/-! ## The state under a store, a fresh identity, a choice -/

@[simp] theorem State.poke_grp (s : State) (a : Nat) (b : List Byte) : (s.poke a b).grp = s.grp := rfl
@[simp] theorem State.poke_rest (s : State) (a : Nat) (b : List Byte) : (s.poke a b).rest = s.rest := rfl
@[simp] theorem State.poke_iss (s : State) (a : Nat) (b : List Byte) : (s.poke a b).iss = s.iss := rfl
@[simp] theorem State.poke_latch (s : State) (a : Nat) (b : List Byte) : (s.poke a b).latch = s.latch := rfl
@[simp] theorem State.poke_mem (s : State) (a : Nat) (b : List Byte) : (s.poke a b).mem = s.mem := rfl
@[simp] theorem State.poke_stores (s : State) (a : Nat) (b : List Byte) : (s.poke a b).stores = logBytes s.stores a b := rfl
@[simp] theorem State.poke_poison (s : State) (a : Nat) (b : List Byte) : (s.poke a b).poison = s.poison := rfl
@[simp] theorem State.poke_owners (s : State) (a : Nat) (b : List Byte) : (s.poke a b).owners = s.owners := rfl
@[simp] theorem State.poke_l2 (s : State) (a : Nat) (b : List Byte) : (s.poke a b).l2 = s.l2 := rfl
@[simp] theorem State.poke_provs (s : State) (a : Nat) (b : List Byte) : (s.poke a b).provs = s.provs := rfl
@[simp] theorem State.poke_bands (s : State) (a : Nat) (b : List Byte) : (s.poke a b).bands = s.bands := rfl
@[simp] theorem State.poke_aliases (s : State) (a : Nat) (b : List Byte) : (s.poke a b).aliases = s.aliases := rfl
@[simp] theorem State.poke_regions (s : State) (a : Nat) (b : List Byte) : (s.poke a b).regions = s.regions := rfl
@[simp] theorem State.poke_fanOuts (s : State) (a : Nat) (b : List Byte) : (s.poke a b).fanOuts = s.fanOuts := rfl
@[simp] theorem State.poke_fills (s : State) (a : Nat) (b : List Byte) : (s.poke a b).fills = s.fills := rfl
@[simp] theorem State.poke_proxies (s : State) (a : Nat) (b : List Byte) : (s.poke a b).proxies = s.proxies := rfl
@[simp] theorem State.poke_exclusive (s : State) (a : Nat) (b : List Byte) : (s.poke a b).exclusive = s.exclusive := rfl
@[simp] theorem State.poke_asked (s : State) (a : Nat) (b : List Byte) : (s.poke a b).asked = s.asked := rfl
@[simp] theorem State.poke_noLines (s : State) (a : Nat) (b : List Byte) : (s.poke a b).noLines = s.noLines := rfl
@[simp] theorem State.poke_remotes (s : State) (a : Nat) (b : List Byte) : (s.poke a b).remotes = s.remotes := rfl
@[simp] theorem State.poke_cores (s : State) (a : Nat) (b : List Byte) : (s.poke a b).cores = s.cores := rfl
@[simp] theorem State.poke_die0 (s : State) (a : Nat) (b : List Byte) : (s.poke a b).die0 = s.die0 := rfl
@[simp] theorem State.poke_die1 (s : State) (a : Nat) (b : List Byte) : (s.poke a b).die1 = s.die1 := rfl
@[simp] theorem State.poke_ctxs (s : State) (a : Nat) (b : List Byte) : (s.poke a b).ctxs = s.ctxs := rfl
@[simp] theorem State.poke_owned (s : State) (a : Nat) (b : List Byte) : (s.poke a b).owned = s.owned := rfl
@[simp] theorem State.poke_merges (s : State) (a : Nat) (b : List Byte) : (s.poke a b).merges = s.merges := rfl
@[simp] theorem State.poke_discards (s : State) (a : Nat) (b : List Byte) : (s.poke a b).discards = s.discards := rfl
@[simp] theorem State.poke_pokes (s : State) (a : Nat) (b : List Byte) : (s.poke a b).pokes = s.pokes := rfl
@[simp] theorem State.poke_roLog (s : State) (a : Nat) (b : List Byte) : (s.poke a b).roLog = s.roLog := rfl
@[simp] theorem State.poke_codeLog (s : State) (a : Nat) (b : List Byte) : (s.poke a b).codeLog = s.codeLog := rfl
@[simp] theorem State.poke_tlb (s : State) (a : Nat) (b : List Byte) : (s.poke a b).tlb = s.tlb := rfl
@[simp] theorem State.poke_combs (s : State) (a : Nat) (b : List Byte) : (s.poke a b).combs = s.combs := rfl
@[simp] theorem State.poke_waits (s : State) (a : Nat) (b : List Byte) : (s.poke a b).waits = s.waits := rfl
@[simp] theorem State.poke_gathers (s : State) (a : Nat) (b : List Byte) : (s.poke a b).gathers = s.gathers := rfl
@[simp] theorem State.poke_fabrics (s : State) (a : Nat) (b : List Byte) : (s.poke a b).fabrics = s.fabrics := rfl
@[simp] theorem State.poke_fabIn (s : State) (a : Nat) (b : List Byte) : (s.poke a b).fabIn = s.fabIn := rfl
@[simp] theorem State.poke_ringIn (s : State) (a : Nat) (b : List Byte) : (s.poke a b).ringIn = s.ringIn := rfl
@[simp] theorem State.poke_rowsIn (s : State) (a : Nat) (b : List Byte) : (s.poke a b).rowsIn = s.rowsIn := rfl
@[simp] theorem State.poke_refsAt (s : State) (a : Nat) (b : List Byte) : (s.poke a b).refsAt = s.refsAt := rfl
@[simp] theorem State.poke_recalls (s : State) (a : Nat) (b : List Byte) : (s.poke a b).recalls = s.recalls := rfl
@[simp] theorem State.poke_leases (s : State) (a : Nat) (b : List Byte) : (s.poke a b).leases = s.leases := rfl
@[simp] theorem State.poke_leaseAsked (s : State) (a : Nat) (b : List Byte) : (s.poke a b).leaseAsked = s.leaseAsked := rfl
@[simp] theorem State.poke_refused (s : State) (a : Nat) (b : List Byte) : (s.poke a b).refused = s.refused := rfl
@[simp] theorem State.poke_leaseWaits (s : State) (a : Nat) (b : List Byte) : (s.poke a b).leaseWaits = s.leaseWaits := rfl
@[simp] theorem State.poke_leaseUses (s : State) (a : Nat) (b : List Byte) : (s.poke a b).leaseUses = s.leaseUses := rfl
@[simp] theorem State.poke_recalled (s : State) (a : Nat) (b : List Byte) : (s.poke a b).recalled = s.recalled := rfl
@[simp] theorem State.poke_purposes (s : State) (a : Nat) (b : List Byte) : (s.poke a b).purposes = s.purposes := rfl
@[simp] theorem State.poke_links (s : State) (a : Nat) (b : List Byte) : (s.poke a b).links = s.links := rfl
@[simp] theorem State.poke_isais (s : State) (a : Nat) (b : List Byte) : (s.poke a b).isais = s.isais := rfl
@[simp] theorem State.poke_raws (s : State) (a : Nat) (b : List Byte) : (s.poke a b).raws = s.raws := rfl
@[simp] theorem State.poke_weevil (s : State) (a : Nat) (b : List Byte) : (s.poke a b).weevil = s.weevil := rfl
@[simp] theorem State.poke_weevilAt (s : State) (a : Nat) (b : List Byte) : (s.poke a b).weevilAt = s.weevilAt := rfl
@[simp] theorem State.poke_contlog (s : State) (a : Nat) (b : List Byte) : (s.poke a b).contlog = s.contlog := rfl
@[simp] theorem State.poke_contstat (s : State) (a : Nat) (b : List Byte) : (s.poke a b).contstat = s.contstat := rfl
@[simp] theorem State.poke_errlog (s : State) (a : Nat) (b : List Byte) : (s.poke a b).errlog = s.errlog := rfl
@[simp] theorem State.poke_errstat (s : State) (a : Nat) (b : List Byte) : (s.poke a b).errstat = s.errstat := rfl
@[simp] theorem State.poke_glowstat (s : State) (a : Nat) (b : List Byte) : (s.poke a b).glowstat = s.glowstat := rfl
@[simp] theorem State.poke_glowtotal (s : State) (a : Nat) (b : List Byte) : (s.poke a b).glowtotal = s.glowtotal := rfl
@[simp] theorem State.poke_bootstat (s : State) (a : Nat) (b : List Byte) : (s.poke a b).bootstat = s.bootstat := rfl
@[simp] theorem State.poke_caphead (s : State) (a : Nat) (b : List Byte) : (s.poke a b).caphead = s.caphead := rfl
@[simp] theorem State.poke_caps (s : State) (a : Nat) (b : List Byte) : (s.poke a b).caps = s.caps := rfl
@[simp] theorem State.poke_applied (s : State) (a : Nat) (b : List Byte) : (s.poke a b).applied = s.applied := rfl
@[simp] theorem State.poke_minVersions (s : State) (a : Nat) (b : List Byte) : (s.poke a b).minVersions = s.minVersions := rfl
@[simp] theorem State.poke_slots (s : State) (a : Nat) (b : List Byte) : (s.poke a b).slots = s.slots := rfl
@[simp] theorem State.poke_spareMap (s : State) (a : Nat) (b : List Byte) : (s.poke a b).spareMap = s.spareMap := rfl
@[simp] theorem State.poke_swaps (s : State) (a : Nat) (b : List Byte) : (s.poke a b).swaps = s.swaps := rfl
@[simp] theorem State.poke_linksOut (s : State) (a : Nat) (b : List Byte) : (s.poke a b).linksOut = s.linksOut := rfl
@[simp] theorem State.poke_lanesOut (s : State) (a : Nat) (b : List Byte) : (s.poke a b).lanesOut = s.lanesOut := rfl
@[simp] theorem State.poke_identity (s : State) (a : Nat) (b : List Byte) : (s.poke a b).identity = s.identity := rfl
@[simp] theorem State.poke_serial (s : State) (a : Nat) (b : List Byte) : (s.poke a b).serial = s.serial := rfl
@[simp] theorem State.poke_restarting (s : State) (a : Nat) (b : List Byte) : (s.poke a b).restarting = s.restarting := rfl
@[simp] theorem State.poke_retryAt (s : State) (a : Nat) (b : List Byte) : (s.poke a b).retryAt = s.retryAt := rfl
@[simp] theorem State.poke_attestation (s : State) (a : Nat) (b : List Byte) : (s.poke a b).attestation = s.attestation := rfl
@[simp] theorem State.poke_hostctx (s : State) (a : Nat) (b : List Byte) : (s.poke a b).hostctx = s.hostctx := rfl
@[simp] theorem State.poke_hostresult (s : State) (a : Nat) (b : List Byte) : (s.poke a b).hostresult = s.hostresult := rfl
@[simp] theorem State.poke_hostbusy (s : State) (a : Nat) (b : List Byte) : (s.poke a b).hostbusy = s.hostbusy := rfl
@[simp] theorem State.poke_hostlanes (s : State) (a : Nat) (b : List Byte) : (s.poke a b).hostlanes = s.hostlanes := rfl
@[simp] theorem State.poke_cxlRanges (s : State) (a : Nat) (b : List Byte) : (s.poke a b).cxlRanges = s.cxlRanges := rfl
@[simp] theorem State.poke_frameTable (s : State) (a : Nat) (b : List Byte) : (s.poke a b).frameTable = s.frameTable := rfl
@[simp] theorem State.poke_poolBase (s : State) (a : Nat) (b : List Byte) : (s.poke a b).poolBase = s.poolBase := rfl
@[simp] theorem State.poke_poolPerCore (s : State) (a : Nat) (b : List Byte) : (s.poke a b).poolPerCore = s.poolPerCore := rfl
@[simp] theorem State.poke_frozen (s : State) (a : Nat) (b : List Byte) : (s.poke a b).frozen = s.frozen := rfl
@[simp] theorem State.poke_clock (s : State) (a : Nat) (b : List Byte) : (s.poke a b).clock = s.clock := rfl
@[simp] theorem State.poke_out (s : State) (a : Nat) (b : List Byte) : (s.poke a b).out = s.out := rfl
@[simp] theorem State.poke_inbox (s : State) (a : Nat) (b : List Byte) : (s.poke a b).inbox = s.inbox := rfl
@[simp] theorem State.poke_nextUid (s : State) (a : Nat) (b : List Byte) : (s.poke a b).nextUid = s.nextUid := rfl
@[simp] theorem State.poke_nfree (s : State) (a : Nat) (b : List Byte) : (s.poke a b).nfree = s.nfree := rfl
@[simp] theorem State.fresh_grp (s : State) : s.fresh.grp = s.grp := rfl
@[simp] theorem State.fresh_rest (s : State) : s.fresh.rest = s.rest := rfl
@[simp] theorem State.fresh_iss (s : State) : s.fresh.iss = s.iss := rfl
@[simp] theorem State.fresh_latch (s : State) : s.fresh.latch = s.latch := rfl
@[simp] theorem State.fresh_mem (s : State) : s.fresh.mem = s.mem := rfl
@[simp] theorem State.fresh_stores (s : State) : s.fresh.stores = s.stores := rfl
@[simp] theorem State.fresh_poison (s : State) : s.fresh.poison = s.poison := rfl
@[simp] theorem State.fresh_owners (s : State) : s.fresh.owners = s.owners := rfl
@[simp] theorem State.fresh_l2 (s : State) : s.fresh.l2 = s.l2 := rfl
@[simp] theorem State.fresh_provs (s : State) : s.fresh.provs = s.provs := rfl
@[simp] theorem State.fresh_bands (s : State) : s.fresh.bands = s.bands := rfl
@[simp] theorem State.fresh_aliases (s : State) : s.fresh.aliases = s.aliases := rfl
@[simp] theorem State.fresh_regions (s : State) : s.fresh.regions = s.regions := rfl
@[simp] theorem State.fresh_fanOuts (s : State) : s.fresh.fanOuts = s.fanOuts := rfl
@[simp] theorem State.fresh_fills (s : State) : s.fresh.fills = s.fills := rfl
@[simp] theorem State.fresh_proxies (s : State) : s.fresh.proxies = s.proxies := rfl
@[simp] theorem State.fresh_exclusive (s : State) : s.fresh.exclusive = s.exclusive := rfl
@[simp] theorem State.fresh_asked (s : State) : s.fresh.asked = s.asked := rfl
@[simp] theorem State.fresh_noLines (s : State) : s.fresh.noLines = s.noLines := rfl
@[simp] theorem State.fresh_remotes (s : State) : s.fresh.remotes = s.remotes := rfl
@[simp] theorem State.fresh_cores (s : State) : s.fresh.cores = s.cores := rfl
@[simp] theorem State.fresh_die0 (s : State) : s.fresh.die0 = s.die0 := rfl
@[simp] theorem State.fresh_die1 (s : State) : s.fresh.die1 = s.die1 := rfl
@[simp] theorem State.fresh_ctxs (s : State) : s.fresh.ctxs = s.ctxs := rfl
@[simp] theorem State.fresh_owned (s : State) : s.fresh.owned = s.owned := rfl
@[simp] theorem State.fresh_merges (s : State) : s.fresh.merges = s.merges := rfl
@[simp] theorem State.fresh_discards (s : State) : s.fresh.discards = s.discards := rfl
@[simp] theorem State.fresh_pokes (s : State) : s.fresh.pokes = s.pokes := rfl
@[simp] theorem State.fresh_roLog (s : State) : s.fresh.roLog = s.roLog := rfl
@[simp] theorem State.fresh_codeLog (s : State) : s.fresh.codeLog = s.codeLog := rfl
@[simp] theorem State.fresh_tlb (s : State) : s.fresh.tlb = s.tlb := rfl
@[simp] theorem State.fresh_combs (s : State) : s.fresh.combs = s.combs := rfl
@[simp] theorem State.fresh_waits (s : State) : s.fresh.waits = s.waits := rfl
@[simp] theorem State.fresh_gathers (s : State) : s.fresh.gathers = s.gathers := rfl
@[simp] theorem State.fresh_fabrics (s : State) : s.fresh.fabrics = s.fabrics := rfl
@[simp] theorem State.fresh_fabIn (s : State) : s.fresh.fabIn = s.fabIn := rfl
@[simp] theorem State.fresh_ringIn (s : State) : s.fresh.ringIn = s.ringIn := rfl
@[simp] theorem State.fresh_rowsIn (s : State) : s.fresh.rowsIn = s.rowsIn := rfl
@[simp] theorem State.fresh_refsAt (s : State) : s.fresh.refsAt = s.refsAt := rfl
@[simp] theorem State.fresh_recalls (s : State) : s.fresh.recalls = s.recalls := rfl
@[simp] theorem State.fresh_leases (s : State) : s.fresh.leases = s.leases := rfl
@[simp] theorem State.fresh_leaseAsked (s : State) : s.fresh.leaseAsked = s.leaseAsked := rfl
@[simp] theorem State.fresh_refused (s : State) : s.fresh.refused = s.refused := rfl
@[simp] theorem State.fresh_leaseWaits (s : State) : s.fresh.leaseWaits = s.leaseWaits := rfl
@[simp] theorem State.fresh_leaseUses (s : State) : s.fresh.leaseUses = s.leaseUses := rfl
@[simp] theorem State.fresh_recalled (s : State) : s.fresh.recalled = s.recalled := rfl
@[simp] theorem State.fresh_purposes (s : State) : s.fresh.purposes = s.purposes := rfl
@[simp] theorem State.fresh_links (s : State) : s.fresh.links = s.links := rfl
@[simp] theorem State.fresh_isais (s : State) : s.fresh.isais = s.isais := rfl
@[simp] theorem State.fresh_raws (s : State) : s.fresh.raws = s.raws := rfl
@[simp] theorem State.fresh_weevil (s : State) : s.fresh.weevil = s.weevil := rfl
@[simp] theorem State.fresh_weevilAt (s : State) : s.fresh.weevilAt = s.weevilAt := rfl
@[simp] theorem State.fresh_contlog (s : State) : s.fresh.contlog = s.contlog := rfl
@[simp] theorem State.fresh_contstat (s : State) : s.fresh.contstat = s.contstat := rfl
@[simp] theorem State.fresh_errlog (s : State) : s.fresh.errlog = s.errlog := rfl
@[simp] theorem State.fresh_errstat (s : State) : s.fresh.errstat = s.errstat := rfl
@[simp] theorem State.fresh_glowstat (s : State) : s.fresh.glowstat = s.glowstat := rfl
@[simp] theorem State.fresh_glowtotal (s : State) : s.fresh.glowtotal = s.glowtotal := rfl
@[simp] theorem State.fresh_bootstat (s : State) : s.fresh.bootstat = s.bootstat := rfl
@[simp] theorem State.fresh_caphead (s : State) : s.fresh.caphead = s.caphead := rfl
@[simp] theorem State.fresh_caps (s : State) : s.fresh.caps = s.caps := rfl
@[simp] theorem State.fresh_applied (s : State) : s.fresh.applied = s.applied := rfl
@[simp] theorem State.fresh_minVersions (s : State) : s.fresh.minVersions = s.minVersions := rfl
@[simp] theorem State.fresh_slots (s : State) : s.fresh.slots = s.slots := rfl
@[simp] theorem State.fresh_spareMap (s : State) : s.fresh.spareMap = s.spareMap := rfl
@[simp] theorem State.fresh_swaps (s : State) : s.fresh.swaps = s.swaps := rfl
@[simp] theorem State.fresh_linksOut (s : State) : s.fresh.linksOut = s.linksOut := rfl
@[simp] theorem State.fresh_lanesOut (s : State) : s.fresh.lanesOut = s.lanesOut := rfl
@[simp] theorem State.fresh_identity (s : State) : s.fresh.identity = s.identity := rfl
@[simp] theorem State.fresh_serial (s : State) : s.fresh.serial = s.serial := rfl
@[simp] theorem State.fresh_restarting (s : State) : s.fresh.restarting = s.restarting := rfl
@[simp] theorem State.fresh_retryAt (s : State) : s.fresh.retryAt = s.retryAt := rfl
@[simp] theorem State.fresh_attestation (s : State) : s.fresh.attestation = s.attestation := rfl
@[simp] theorem State.fresh_hostctx (s : State) : s.fresh.hostctx = s.hostctx := rfl
@[simp] theorem State.fresh_hostresult (s : State) : s.fresh.hostresult = s.hostresult := rfl
@[simp] theorem State.fresh_hostbusy (s : State) : s.fresh.hostbusy = s.hostbusy := rfl
@[simp] theorem State.fresh_hostlanes (s : State) : s.fresh.hostlanes = s.hostlanes := rfl
@[simp] theorem State.fresh_cxlRanges (s : State) : s.fresh.cxlRanges = s.cxlRanges := rfl
@[simp] theorem State.fresh_frameTable (s : State) : s.fresh.frameTable = s.frameTable := rfl
@[simp] theorem State.fresh_poolBase (s : State) : s.fresh.poolBase = s.poolBase := rfl
@[simp] theorem State.fresh_poolPerCore (s : State) : s.fresh.poolPerCore = s.poolPerCore := rfl
@[simp] theorem State.fresh_frozen (s : State) : s.fresh.frozen = s.frozen := rfl
@[simp] theorem State.fresh_clock (s : State) : s.fresh.clock = s.clock := rfl
@[simp] theorem State.fresh_out (s : State) : s.fresh.out = s.out := rfl
@[simp] theorem State.fresh_inbox (s : State) : s.fresh.inbox = s.inbox := rfl
@[simp] theorem State.fresh_nextUid (s : State) : s.fresh.nextUid = s.nextUid + 1 := rfl
@[simp] theorem State.fresh_nfree (s : State) : s.fresh.nfree = s.nfree := rfl
@[simp] theorem State.chose_grp (s : State) (k : Nat) : (s.chose k).grp = s.grp := by unfold State.chose; split <;> rfl
@[simp] theorem State.chose_rest (s : State) (k : Nat) : (s.chose k).rest = s.rest := by unfold State.chose; split <;> rfl
@[simp] theorem State.chose_iss (s : State) (k : Nat) : (s.chose k).iss = s.iss := by unfold State.chose; split <;> rfl
@[simp] theorem State.chose_latch (s : State) (k : Nat) : (s.chose k).latch = s.latch := by unfold State.chose; split <;> rfl
@[simp] theorem State.chose_mem (s : State) (k : Nat) : (s.chose k).mem = s.mem := by unfold State.chose; split <;> rfl
@[simp] theorem State.chose_stores (s : State) (k : Nat) : (s.chose k).stores = s.stores := by unfold State.chose; split <;> rfl
@[simp] theorem State.chose_poison (s : State) (k : Nat) : (s.chose k).poison = s.poison := by unfold State.chose; split <;> rfl
@[simp] theorem State.chose_owners (s : State) (k : Nat) : (s.chose k).owners = s.owners := by unfold State.chose; split <;> rfl
@[simp] theorem State.chose_l2 (s : State) (k : Nat) : (s.chose k).l2 = s.l2 := by unfold State.chose; split <;> rfl
@[simp] theorem State.chose_provs (s : State) (k : Nat) : (s.chose k).provs = s.provs := by unfold State.chose; split <;> rfl
@[simp] theorem State.chose_bands (s : State) (k : Nat) : (s.chose k).bands = s.bands := by unfold State.chose; split <;> rfl
@[simp] theorem State.chose_aliases (s : State) (k : Nat) : (s.chose k).aliases = s.aliases := by unfold State.chose; split <;> rfl
@[simp] theorem State.chose_regions (s : State) (k : Nat) : (s.chose k).regions = s.regions := by unfold State.chose; split <;> rfl
@[simp] theorem State.chose_fanOuts (s : State) (k : Nat) : (s.chose k).fanOuts = s.fanOuts := by unfold State.chose; split <;> rfl
@[simp] theorem State.chose_fills (s : State) (k : Nat) : (s.chose k).fills = s.fills := by unfold State.chose; split <;> rfl
@[simp] theorem State.chose_proxies (s : State) (k : Nat) : (s.chose k).proxies = s.proxies := by unfold State.chose; split <;> rfl
@[simp] theorem State.chose_exclusive (s : State) (k : Nat) : (s.chose k).exclusive = s.exclusive := by unfold State.chose; split <;> rfl
@[simp] theorem State.chose_asked (s : State) (k : Nat) : (s.chose k).asked = s.asked := by unfold State.chose; split <;> rfl
@[simp] theorem State.chose_noLines (s : State) (k : Nat) : (s.chose k).noLines = s.noLines := by unfold State.chose; split <;> rfl
@[simp] theorem State.chose_remotes (s : State) (k : Nat) : (s.chose k).remotes = s.remotes := by unfold State.chose; split <;> rfl
@[simp] theorem State.chose_cores (s : State) (k : Nat) : (s.chose k).cores = s.cores := by unfold State.chose; split <;> rfl
@[simp] theorem State.chose_die0 (s : State) (k : Nat) : (s.chose k).die0 = s.die0 := by unfold State.chose; split <;> rfl
@[simp] theorem State.chose_die1 (s : State) (k : Nat) : (s.chose k).die1 = s.die1 := by unfold State.chose; split <;> rfl
@[simp] theorem State.chose_ctxs (s : State) (k : Nat) : (s.chose k).ctxs = s.ctxs := by unfold State.chose; split <;> rfl
@[simp] theorem State.chose_owned (s : State) (k : Nat) : (s.chose k).owned = s.owned := by unfold State.chose; split <;> rfl
@[simp] theorem State.chose_merges (s : State) (k : Nat) : (s.chose k).merges = s.merges := by unfold State.chose; split <;> rfl
@[simp] theorem State.chose_discards (s : State) (k : Nat) : (s.chose k).discards = s.discards := by unfold State.chose; split <;> rfl
@[simp] theorem State.chose_pokes (s : State) (k : Nat) : (s.chose k).pokes = s.pokes := by unfold State.chose; split <;> rfl
@[simp] theorem State.chose_roLog (s : State) (k : Nat) : (s.chose k).roLog = s.roLog := by unfold State.chose; split <;> rfl
@[simp] theorem State.chose_codeLog (s : State) (k : Nat) : (s.chose k).codeLog = s.codeLog := by unfold State.chose; split <;> rfl
@[simp] theorem State.chose_tlb (s : State) (k : Nat) : (s.chose k).tlb = s.tlb := by unfold State.chose; split <;> rfl
@[simp] theorem State.chose_combs (s : State) (k : Nat) : (s.chose k).combs = s.combs := by unfold State.chose; split <;> rfl
@[simp] theorem State.chose_waits (s : State) (k : Nat) : (s.chose k).waits = s.waits := by unfold State.chose; split <;> rfl
@[simp] theorem State.chose_gathers (s : State) (k : Nat) : (s.chose k).gathers = s.gathers := by unfold State.chose; split <;> rfl
@[simp] theorem State.chose_fabrics (s : State) (k : Nat) : (s.chose k).fabrics = s.fabrics := by unfold State.chose; split <;> rfl
@[simp] theorem State.chose_fabIn (s : State) (k : Nat) : (s.chose k).fabIn = s.fabIn := by unfold State.chose; split <;> rfl
@[simp] theorem State.chose_ringIn (s : State) (k : Nat) : (s.chose k).ringIn = s.ringIn := by unfold State.chose; split <;> rfl
@[simp] theorem State.chose_rowsIn (s : State) (k : Nat) : (s.chose k).rowsIn = s.rowsIn := by unfold State.chose; split <;> rfl
@[simp] theorem State.chose_refsAt (s : State) (k : Nat) : (s.chose k).refsAt = s.refsAt := by unfold State.chose; split <;> rfl
@[simp] theorem State.chose_recalls (s : State) (k : Nat) : (s.chose k).recalls = s.recalls := by unfold State.chose; split <;> rfl
@[simp] theorem State.chose_leases (s : State) (k : Nat) : (s.chose k).leases = s.leases := by unfold State.chose; split <;> rfl
@[simp] theorem State.chose_leaseAsked (s : State) (k : Nat) : (s.chose k).leaseAsked = s.leaseAsked := by unfold State.chose; split <;> rfl
@[simp] theorem State.chose_refused (s : State) (k : Nat) : (s.chose k).refused = s.refused := by unfold State.chose; split <;> rfl
@[simp] theorem State.chose_leaseWaits (s : State) (k : Nat) : (s.chose k).leaseWaits = s.leaseWaits := by unfold State.chose; split <;> rfl
@[simp] theorem State.chose_leaseUses (s : State) (k : Nat) : (s.chose k).leaseUses = s.leaseUses := by unfold State.chose; split <;> rfl
@[simp] theorem State.chose_recalled (s : State) (k : Nat) : (s.chose k).recalled = s.recalled := by unfold State.chose; split <;> rfl
@[simp] theorem State.chose_purposes (s : State) (k : Nat) : (s.chose k).purposes = s.purposes := by unfold State.chose; split <;> rfl
@[simp] theorem State.chose_links (s : State) (k : Nat) : (s.chose k).links = s.links := by unfold State.chose; split <;> rfl
@[simp] theorem State.chose_isais (s : State) (k : Nat) : (s.chose k).isais = s.isais := by unfold State.chose; split <;> rfl
@[simp] theorem State.chose_raws (s : State) (k : Nat) : (s.chose k).raws = s.raws := by unfold State.chose; split <;> rfl
@[simp] theorem State.chose_weevil (s : State) (k : Nat) : (s.chose k).weevil = s.weevil := by unfold State.chose; split <;> rfl
@[simp] theorem State.chose_weevilAt (s : State) (k : Nat) : (s.chose k).weevilAt = s.weevilAt := by unfold State.chose; split <;> rfl
@[simp] theorem State.chose_contlog (s : State) (k : Nat) : (s.chose k).contlog = s.contlog := by unfold State.chose; split <;> rfl
@[simp] theorem State.chose_contstat (s : State) (k : Nat) : (s.chose k).contstat = s.contstat := by unfold State.chose; split <;> rfl
@[simp] theorem State.chose_errlog (s : State) (k : Nat) : (s.chose k).errlog = s.errlog := by unfold State.chose; split <;> rfl
@[simp] theorem State.chose_errstat (s : State) (k : Nat) : (s.chose k).errstat = s.errstat := by unfold State.chose; split <;> rfl
@[simp] theorem State.chose_glowstat (s : State) (k : Nat) : (s.chose k).glowstat = s.glowstat := by unfold State.chose; split <;> rfl
@[simp] theorem State.chose_glowtotal (s : State) (k : Nat) : (s.chose k).glowtotal = s.glowtotal := by unfold State.chose; split <;> rfl
@[simp] theorem State.chose_bootstat (s : State) (k : Nat) : (s.chose k).bootstat = s.bootstat := by unfold State.chose; split <;> rfl
@[simp] theorem State.chose_caphead (s : State) (k : Nat) : (s.chose k).caphead = s.caphead := by unfold State.chose; split <;> rfl
@[simp] theorem State.chose_caps (s : State) (k : Nat) : (s.chose k).caps = s.caps := by unfold State.chose; split <;> rfl
@[simp] theorem State.chose_applied (s : State) (k : Nat) : (s.chose k).applied = s.applied := by unfold State.chose; split <;> rfl
@[simp] theorem State.chose_minVersions (s : State) (k : Nat) : (s.chose k).minVersions = s.minVersions := by unfold State.chose; split <;> rfl
@[simp] theorem State.chose_slots (s : State) (k : Nat) : (s.chose k).slots = s.slots := by unfold State.chose; split <;> rfl
@[simp] theorem State.chose_spareMap (s : State) (k : Nat) : (s.chose k).spareMap = s.spareMap := by unfold State.chose; split <;> rfl
@[simp] theorem State.chose_swaps (s : State) (k : Nat) : (s.chose k).swaps = s.swaps := by unfold State.chose; split <;> rfl
@[simp] theorem State.chose_linksOut (s : State) (k : Nat) : (s.chose k).linksOut = s.linksOut := by unfold State.chose; split <;> rfl
@[simp] theorem State.chose_lanesOut (s : State) (k : Nat) : (s.chose k).lanesOut = s.lanesOut := by unfold State.chose; split <;> rfl
@[simp] theorem State.chose_identity (s : State) (k : Nat) : (s.chose k).identity = s.identity := by unfold State.chose; split <;> rfl
@[simp] theorem State.chose_serial (s : State) (k : Nat) : (s.chose k).serial = s.serial := by unfold State.chose; split <;> rfl
@[simp] theorem State.chose_restarting (s : State) (k : Nat) : (s.chose k).restarting = s.restarting := by unfold State.chose; split <;> rfl
@[simp] theorem State.chose_retryAt (s : State) (k : Nat) : (s.chose k).retryAt = s.retryAt := by unfold State.chose; split <;> rfl
@[simp] theorem State.chose_attestation (s : State) (k : Nat) : (s.chose k).attestation = s.attestation := by unfold State.chose; split <;> rfl
@[simp] theorem State.chose_hostctx (s : State) (k : Nat) : (s.chose k).hostctx = s.hostctx := by unfold State.chose; split <;> rfl
@[simp] theorem State.chose_hostresult (s : State) (k : Nat) : (s.chose k).hostresult = s.hostresult := by unfold State.chose; split <;> rfl
@[simp] theorem State.chose_hostbusy (s : State) (k : Nat) : (s.chose k).hostbusy = s.hostbusy := by unfold State.chose; split <;> rfl
@[simp] theorem State.chose_hostlanes (s : State) (k : Nat) : (s.chose k).hostlanes = s.hostlanes := by unfold State.chose; split <;> rfl
@[simp] theorem State.chose_cxlRanges (s : State) (k : Nat) : (s.chose k).cxlRanges = s.cxlRanges := by unfold State.chose; split <;> rfl
@[simp] theorem State.chose_frameTable (s : State) (k : Nat) : (s.chose k).frameTable = s.frameTable := by unfold State.chose; split <;> rfl
@[simp] theorem State.chose_poolBase (s : State) (k : Nat) : (s.chose k).poolBase = s.poolBase := by unfold State.chose; split <;> rfl
@[simp] theorem State.chose_poolPerCore (s : State) (k : Nat) : (s.chose k).poolPerCore = s.poolPerCore := by unfold State.chose; split <;> rfl
@[simp] theorem State.chose_frozen (s : State) (k : Nat) : (s.chose k).frozen = s.frozen := by unfold State.chose; split <;> rfl
@[simp] theorem State.chose_clock (s : State) (k : Nat) : (s.chose k).clock = s.clock := by unfold State.chose; split <;> rfl
@[simp] theorem State.chose_out (s : State) (k : Nat) : (s.chose k).out = s.out := by unfold State.chose; split <;> rfl
@[simp] theorem State.chose_inbox (s : State) (k : Nat) : (s.chose k).inbox = s.inbox := by unfold State.chose; split <;> rfl
@[simp] theorem State.chose_nextUid (s : State) (k : Nat) : (s.chose k).nextUid = s.nextUid := by unfold State.chose; split <;> rfl
@[simp] theorem State.chose_nfree (s : State) (k : Nat) : (s.chose k).nfree = if k ≤ 1 then s.nfree else s.nfree + 1 := by
  unfold State.chose; split <;> rfl

/-! ## A wave under a change of its registers and of its PC table -/

@[simp] theorem Wave.setState_uid (w : Wave) (m : Mask) (x : LaneState) : (w.setState m x).uid = w.uid := rfl
@[simp] theorem Wave.setState_idx (w : Wave) (m : Mask) (x : LaneState) : (w.setState m x).idx = w.idx := rfl
@[simp] theorem Wave.setState_slot (w : Wave) (m : Mask) (x : LaneState) : (w.setState m x).slot = w.slot := rfl
@[simp] theorem Wave.setState_mode (w : Wave) (m : Mask) (x : LaneState) : (w.setState m x).mode = w.mode := rfl
@[simp] theorem Wave.setState_v (w : Wave) (m : Mask) (x : LaneState) : (w.setState m x).v = w.v := rfl
@[simp] theorem Wave.setState_p (w : Wave) (m : Mask) (x : LaneState) : (w.setState m x).p = w.p := rfl
@[simp] theorem Wave.setState_k (w : Wave) (m : Mask) (x : LaneState) : (w.setState m x).k = w.k := rfl
@[simp] theorem Wave.setState_h (w : Wave) (m : Mask) (x : LaneState) : (w.setState m x).h = w.h := rfl
@[simp] theorem Wave.setState_q (w : Wave) (m : Mask) (x : LaneState) : (w.setState m x).q = w.q := rfl
@[simp] theorem Wave.setState_tiles (w : Wave) (m : Mask) (x : LaneState) : (w.setState m x).tiles = w.tiles := rfl
@[simp] theorem Wave.setState_pc (w : Wave) (m : Mask) (x : LaneState) : (w.setState m x).pc = w.pc := rfl
@[simp] theorem Wave.setState_st (w : Wave) (m : Mask) (x : LaneState) : (w.setState m x).st = Lanes.ofFn fun l => if bit m l then x else w.st[l] := rfl
@[simp] theorem Wave.setState_guard (w : Wave) (m : Mask) (x : LaneState) : (w.setState m x).guard = w.guard := rfl
@[simp] theorem Wave.setState_yieldMask (w : Wave) (m : Mask) (x : LaneState) : (w.setState m x).yieldMask = w.yieldMask := rfl
@[simp] theorem Wave.setState_rotation (w : Wave) (m : Mask) (x : LaneState) : (w.setState m x).rotation = w.rotation := rfl
@[simp] theorem Wave.setState_fairness (w : Wave) (m : Mask) (x : LaneState) : (w.setState m x).fairness = w.fairness := rfl
@[simp] theorem Wave.setState_count (w : Wave) (m : Mask) (x : LaneState) : (w.setState m x).count = w.count := rfl
@[simp] theorem Wave.setState_promise (w : Wave) (m : Mask) (x : LaneState) : (w.setState m x).promise = w.promise := rfl
@[simp] theorem Wave.setState_retcode (w : Wave) (m : Mask) (x : LaneState) : (w.setState m x).retcode = w.retcode := rfl
@[simp] theorem Wave.setState_trapcause (w : Wave) (m : Mask) (x : LaneState) : (w.setState m x).trapcause = w.trapcause := rfl
@[simp] theorem Wave.setState_trapaddr (w : Wave) (m : Mask) (x : LaneState) : (w.setState m x).trapaddr = w.trapaddr := rfl
@[simp] theorem Wave.setState_trapmask (w : Wave) (m : Mask) (x : LaneState) : (w.setState m x).trapmask = w.trapmask := rfl
@[simp] theorem Wave.setState_trappc (w : Wave) (m : Mask) (x : LaneState) : (w.setState m x).trappc = w.trappc := rfl
@[simp] theorem Wave.setState_trapent (w : Wave) (m : Mask) (x : LaneState) : (w.setState m x).trapent = w.trapent := rfl
@[simp] theorem Wave.setState_recs (w : Wave) (m : Mask) (x : LaneState) : (w.setState m x).recs = w.recs := rfl
@[simp] theorem Wave.setState_subs (w : Wave) (m : Mask) (x : LaneState) : (w.setState m x).subs = w.subs := rfl
@[simp] theorem Wave.setState_handler (w : Wave) (m : Mask) (x : LaneState) : (w.setState m x).handler = w.handler := rfl
@[simp] theorem Wave.setState_pending (w : Wave) (m : Mask) (x : LaneState) : (w.setState m x).pending = w.pending := rfl
@[simp] theorem Wave.setState_hold (w : Wave) (m : Mask) (x : LaneState) : (w.setState m x).hold = w.hold := rfl
@[simp] theorem Wave.setState_chosen (w : Wave) (m : Mask) (x : LaneState) : (w.setState m x).chosen = w.chosen := rfl
@[simp] theorem Wave.setState_replay (w : Wave) (m : Mask) (x : LaneState) : (w.setState m x).replay = w.replay := rfl
@[simp] theorem Wave.setState_halted (w : Wave) (m : Mask) (x : LaneState) : (w.setState m x).halted = w.halted := rfl
@[simp] theorem Wave.setState_nt (w : Wave) (m : Mask) (x : LaneState) : (w.setState m x).nt = w.nt := rfl
@[simp] theorem Wave.setState_pushed (w : Wave) (m : Mask) (x : LaneState) : (w.setState m x).pushed = w.pushed := rfl
@[simp] theorem Wave.setState_unknown (w : Wave) (m : Mask) (x : LaneState) : (w.setState m x).unknown = w.unknown := rfl
@[simp] theorem Wave.setState_batch (w : Wave) (m : Mask) (x : LaneState) : (w.setState m x).batch = w.batch := rfl
@[simp] theorem Wave.setState_batchNo (w : Wave) (m : Mask) (x : LaneState) : (w.setState m x).batchNo = w.batchNo := rfl
@[simp] theorem Wave.setState_aheadDue (w : Wave) (m : Mask) (x : LaneState) : (w.setState m x).aheadDue = w.aheadDue := rfl
@[simp] theorem Wave.setState_own (w : Wave) (m : Mask) (x : LaneState) : (w.setState m x).own = w.own := rfl
@[simp] theorem Wave.setState_walked (w : Wave) (m : Mask) (x : LaneState) : (w.setState m x).walked = w.walked := rfl
@[simp] theorem Wave.setState_loading (w : Wave) (m : Mask) (x : LaneState) : (w.setState m x).loading = w.loading := rfl
@[simp] theorem Wave.setState_issues (w : Wave) (m : Mask) (x : LaneState) : (w.setState m x).issues = w.issues := rfl
@[simp] theorem Wave.setPc_uid (w : Wave) (m : Mask) (f : Fin 32 → BitVec 56) : (w.setPc m f).uid = w.uid := rfl
@[simp] theorem Wave.setPc_idx (w : Wave) (m : Mask) (f : Fin 32 → BitVec 56) : (w.setPc m f).idx = w.idx := rfl
@[simp] theorem Wave.setPc_slot (w : Wave) (m : Mask) (f : Fin 32 → BitVec 56) : (w.setPc m f).slot = w.slot := rfl
@[simp] theorem Wave.setPc_mode (w : Wave) (m : Mask) (f : Fin 32 → BitVec 56) : (w.setPc m f).mode = w.mode := rfl
@[simp] theorem Wave.setPc_v (w : Wave) (m : Mask) (f : Fin 32 → BitVec 56) : (w.setPc m f).v = w.v := rfl
@[simp] theorem Wave.setPc_p (w : Wave) (m : Mask) (f : Fin 32 → BitVec 56) : (w.setPc m f).p = w.p := rfl
@[simp] theorem Wave.setPc_k (w : Wave) (m : Mask) (f : Fin 32 → BitVec 56) : (w.setPc m f).k = w.k := rfl
@[simp] theorem Wave.setPc_h (w : Wave) (m : Mask) (f : Fin 32 → BitVec 56) : (w.setPc m f).h = w.h := rfl
@[simp] theorem Wave.setPc_q (w : Wave) (m : Mask) (f : Fin 32 → BitVec 56) : (w.setPc m f).q = w.q := rfl
@[simp] theorem Wave.setPc_tiles (w : Wave) (m : Mask) (f : Fin 32 → BitVec 56) : (w.setPc m f).tiles = w.tiles := rfl
@[simp] theorem Wave.setPc_pc (w : Wave) (m : Mask) (f : Fin 32 → BitVec 56) : (w.setPc m f).pc = Lanes.ofFn fun l => if bit m l then f l else w.pc[l] := rfl
@[simp] theorem Wave.setPc_st (w : Wave) (m : Mask) (f : Fin 32 → BitVec 56) : (w.setPc m f).st = w.st := rfl
@[simp] theorem Wave.setPc_guard (w : Wave) (m : Mask) (f : Fin 32 → BitVec 56) : (w.setPc m f).guard = w.guard := rfl
@[simp] theorem Wave.setPc_yieldMask (w : Wave) (m : Mask) (f : Fin 32 → BitVec 56) : (w.setPc m f).yieldMask = w.yieldMask := rfl
@[simp] theorem Wave.setPc_rotation (w : Wave) (m : Mask) (f : Fin 32 → BitVec 56) : (w.setPc m f).rotation = w.rotation := rfl
@[simp] theorem Wave.setPc_fairness (w : Wave) (m : Mask) (f : Fin 32 → BitVec 56) : (w.setPc m f).fairness = w.fairness := rfl
@[simp] theorem Wave.setPc_count (w : Wave) (m : Mask) (f : Fin 32 → BitVec 56) : (w.setPc m f).count = w.count := rfl
@[simp] theorem Wave.setPc_promise (w : Wave) (m : Mask) (f : Fin 32 → BitVec 56) : (w.setPc m f).promise = w.promise := rfl
@[simp] theorem Wave.setPc_retcode (w : Wave) (m : Mask) (f : Fin 32 → BitVec 56) : (w.setPc m f).retcode = w.retcode := rfl
@[simp] theorem Wave.setPc_trapcause (w : Wave) (m : Mask) (f : Fin 32 → BitVec 56) : (w.setPc m f).trapcause = w.trapcause := rfl
@[simp] theorem Wave.setPc_trapaddr (w : Wave) (m : Mask) (f : Fin 32 → BitVec 56) : (w.setPc m f).trapaddr = w.trapaddr := rfl
@[simp] theorem Wave.setPc_trapmask (w : Wave) (m : Mask) (f : Fin 32 → BitVec 56) : (w.setPc m f).trapmask = w.trapmask := rfl
@[simp] theorem Wave.setPc_trappc (w : Wave) (m : Mask) (f : Fin 32 → BitVec 56) : (w.setPc m f).trappc = w.trappc := rfl
@[simp] theorem Wave.setPc_trapent (w : Wave) (m : Mask) (f : Fin 32 → BitVec 56) : (w.setPc m f).trapent = w.trapent := rfl
@[simp] theorem Wave.setPc_recs (w : Wave) (m : Mask) (f : Fin 32 → BitVec 56) : (w.setPc m f).recs = w.recs := rfl
@[simp] theorem Wave.setPc_subs (w : Wave) (m : Mask) (f : Fin 32 → BitVec 56) : (w.setPc m f).subs = w.subs := rfl
@[simp] theorem Wave.setPc_handler (w : Wave) (m : Mask) (f : Fin 32 → BitVec 56) : (w.setPc m f).handler = w.handler := rfl
@[simp] theorem Wave.setPc_pending (w : Wave) (m : Mask) (f : Fin 32 → BitVec 56) : (w.setPc m f).pending = w.pending := rfl
@[simp] theorem Wave.setPc_hold (w : Wave) (m : Mask) (f : Fin 32 → BitVec 56) : (w.setPc m f).hold = w.hold := rfl
@[simp] theorem Wave.setPc_chosen (w : Wave) (m : Mask) (f : Fin 32 → BitVec 56) : (w.setPc m f).chosen = w.chosen := rfl
@[simp] theorem Wave.setPc_replay (w : Wave) (m : Mask) (f : Fin 32 → BitVec 56) : (w.setPc m f).replay = w.replay := rfl
@[simp] theorem Wave.setPc_halted (w : Wave) (m : Mask) (f : Fin 32 → BitVec 56) : (w.setPc m f).halted = w.halted := rfl
@[simp] theorem Wave.setPc_nt (w : Wave) (m : Mask) (f : Fin 32 → BitVec 56) : (w.setPc m f).nt = w.nt := rfl
@[simp] theorem Wave.setPc_pushed (w : Wave) (m : Mask) (f : Fin 32 → BitVec 56) : (w.setPc m f).pushed = w.pushed := rfl
@[simp] theorem Wave.setPc_unknown (w : Wave) (m : Mask) (f : Fin 32 → BitVec 56) : (w.setPc m f).unknown = w.unknown := rfl
@[simp] theorem Wave.setPc_batch (w : Wave) (m : Mask) (f : Fin 32 → BitVec 56) : (w.setPc m f).batch = w.batch := rfl
@[simp] theorem Wave.setPc_batchNo (w : Wave) (m : Mask) (f : Fin 32 → BitVec 56) : (w.setPc m f).batchNo = w.batchNo := rfl
@[simp] theorem Wave.setPc_aheadDue (w : Wave) (m : Mask) (f : Fin 32 → BitVec 56) : (w.setPc m f).aheadDue = w.aheadDue := rfl
@[simp] theorem Wave.setPc_own (w : Wave) (m : Mask) (f : Fin 32 → BitVec 56) : (w.setPc m f).own = w.own := rfl
@[simp] theorem Wave.setPc_walked (w : Wave) (m : Mask) (f : Fin 32 → BitVec 56) : (w.setPc m f).walked = w.walked := rfl
@[simp] theorem Wave.setPc_loading (w : Wave) (m : Mask) (f : Fin 32 → BitVec 56) : (w.setPc m f).loading = w.loading := rfl
@[simp] theorem Wave.setPc_issues (w : Wave) (m : Mask) (f : Fin 32 → BitVec 56) : (w.setPc m f).issues = w.issues := rfl
@[simp] theorem Wave.setGuard_uid (w : Wave) (m : Mask) (f : Fin 32 → Guard) : (w.setGuard m f).uid = w.uid := rfl
@[simp] theorem Wave.setGuard_idx (w : Wave) (m : Mask) (f : Fin 32 → Guard) : (w.setGuard m f).idx = w.idx := rfl
@[simp] theorem Wave.setGuard_slot (w : Wave) (m : Mask) (f : Fin 32 → Guard) : (w.setGuard m f).slot = w.slot := rfl
@[simp] theorem Wave.setGuard_mode (w : Wave) (m : Mask) (f : Fin 32 → Guard) : (w.setGuard m f).mode = w.mode := rfl
@[simp] theorem Wave.setGuard_v (w : Wave) (m : Mask) (f : Fin 32 → Guard) : (w.setGuard m f).v = w.v := rfl
@[simp] theorem Wave.setGuard_p (w : Wave) (m : Mask) (f : Fin 32 → Guard) : (w.setGuard m f).p = w.p := rfl
@[simp] theorem Wave.setGuard_k (w : Wave) (m : Mask) (f : Fin 32 → Guard) : (w.setGuard m f).k = w.k := rfl
@[simp] theorem Wave.setGuard_h (w : Wave) (m : Mask) (f : Fin 32 → Guard) : (w.setGuard m f).h = w.h := rfl
@[simp] theorem Wave.setGuard_q (w : Wave) (m : Mask) (f : Fin 32 → Guard) : (w.setGuard m f).q = w.q := rfl
@[simp] theorem Wave.setGuard_tiles (w : Wave) (m : Mask) (f : Fin 32 → Guard) : (w.setGuard m f).tiles = w.tiles := rfl
@[simp] theorem Wave.setGuard_pc (w : Wave) (m : Mask) (f : Fin 32 → Guard) : (w.setGuard m f).pc = w.pc := rfl
@[simp] theorem Wave.setGuard_st (w : Wave) (m : Mask) (f : Fin 32 → Guard) : (w.setGuard m f).st = w.st := rfl
@[simp] theorem Wave.setGuard_guard (w : Wave) (m : Mask) (f : Fin 32 → Guard) : (w.setGuard m f).guard = Lanes.ofFn fun l => if bit m l then f l else w.guard[l] := rfl
@[simp] theorem Wave.setGuard_yieldMask (w : Wave) (m : Mask) (f : Fin 32 → Guard) : (w.setGuard m f).yieldMask = w.yieldMask := rfl
@[simp] theorem Wave.setGuard_rotation (w : Wave) (m : Mask) (f : Fin 32 → Guard) : (w.setGuard m f).rotation = w.rotation := rfl
@[simp] theorem Wave.setGuard_fairness (w : Wave) (m : Mask) (f : Fin 32 → Guard) : (w.setGuard m f).fairness = w.fairness := rfl
@[simp] theorem Wave.setGuard_count (w : Wave) (m : Mask) (f : Fin 32 → Guard) : (w.setGuard m f).count = w.count := rfl
@[simp] theorem Wave.setGuard_promise (w : Wave) (m : Mask) (f : Fin 32 → Guard) : (w.setGuard m f).promise = w.promise := rfl
@[simp] theorem Wave.setGuard_retcode (w : Wave) (m : Mask) (f : Fin 32 → Guard) : (w.setGuard m f).retcode = w.retcode := rfl
@[simp] theorem Wave.setGuard_trapcause (w : Wave) (m : Mask) (f : Fin 32 → Guard) : (w.setGuard m f).trapcause = w.trapcause := rfl
@[simp] theorem Wave.setGuard_trapaddr (w : Wave) (m : Mask) (f : Fin 32 → Guard) : (w.setGuard m f).trapaddr = w.trapaddr := rfl
@[simp] theorem Wave.setGuard_trapmask (w : Wave) (m : Mask) (f : Fin 32 → Guard) : (w.setGuard m f).trapmask = w.trapmask := rfl
@[simp] theorem Wave.setGuard_trappc (w : Wave) (m : Mask) (f : Fin 32 → Guard) : (w.setGuard m f).trappc = w.trappc := rfl
@[simp] theorem Wave.setGuard_trapent (w : Wave) (m : Mask) (f : Fin 32 → Guard) : (w.setGuard m f).trapent = w.trapent := rfl
@[simp] theorem Wave.setGuard_recs (w : Wave) (m : Mask) (f : Fin 32 → Guard) : (w.setGuard m f).recs = w.recs := rfl
@[simp] theorem Wave.setGuard_subs (w : Wave) (m : Mask) (f : Fin 32 → Guard) : (w.setGuard m f).subs = w.subs := rfl
@[simp] theorem Wave.setGuard_handler (w : Wave) (m : Mask) (f : Fin 32 → Guard) : (w.setGuard m f).handler = w.handler := rfl
@[simp] theorem Wave.setGuard_pending (w : Wave) (m : Mask) (f : Fin 32 → Guard) : (w.setGuard m f).pending = w.pending := rfl
@[simp] theorem Wave.setGuard_hold (w : Wave) (m : Mask) (f : Fin 32 → Guard) : (w.setGuard m f).hold = w.hold := rfl
@[simp] theorem Wave.setGuard_chosen (w : Wave) (m : Mask) (f : Fin 32 → Guard) : (w.setGuard m f).chosen = w.chosen := rfl
@[simp] theorem Wave.setGuard_replay (w : Wave) (m : Mask) (f : Fin 32 → Guard) : (w.setGuard m f).replay = w.replay := rfl
@[simp] theorem Wave.setGuard_halted (w : Wave) (m : Mask) (f : Fin 32 → Guard) : (w.setGuard m f).halted = w.halted := rfl
@[simp] theorem Wave.setGuard_nt (w : Wave) (m : Mask) (f : Fin 32 → Guard) : (w.setGuard m f).nt = w.nt := rfl
@[simp] theorem Wave.setGuard_pushed (w : Wave) (m : Mask) (f : Fin 32 → Guard) : (w.setGuard m f).pushed = w.pushed := rfl
@[simp] theorem Wave.setGuard_unknown (w : Wave) (m : Mask) (f : Fin 32 → Guard) : (w.setGuard m f).unknown = w.unknown := rfl
@[simp] theorem Wave.setGuard_batch (w : Wave) (m : Mask) (f : Fin 32 → Guard) : (w.setGuard m f).batch = w.batch := rfl
@[simp] theorem Wave.setGuard_batchNo (w : Wave) (m : Mask) (f : Fin 32 → Guard) : (w.setGuard m f).batchNo = w.batchNo := rfl
@[simp] theorem Wave.setGuard_aheadDue (w : Wave) (m : Mask) (f : Fin 32 → Guard) : (w.setGuard m f).aheadDue = w.aheadDue := rfl
@[simp] theorem Wave.setGuard_own (w : Wave) (m : Mask) (f : Fin 32 → Guard) : (w.setGuard m f).own = w.own := rfl
@[simp] theorem Wave.setGuard_walked (w : Wave) (m : Mask) (f : Fin 32 → Guard) : (w.setGuard m f).walked = w.walked := rfl
@[simp] theorem Wave.setGuard_loading (w : Wave) (m : Mask) (f : Fin 32 → Guard) : (w.setGuard m f).loading = w.loading := rfl
@[simp] theorem Wave.setGuard_issues (w : Wave) (m : Mask) (f : Fin 32 → Guard) : (w.setGuard m f).issues = w.issues := rfl
@[simp] theorem Wave.wrV_uid (w : Wave) (n : Fin 128) (m : Mask) (f : Fin 32 → Word) : (w.wrV n m f).uid = w.uid := rfl
@[simp] theorem Wave.wrV_idx (w : Wave) (n : Fin 128) (m : Mask) (f : Fin 32 → Word) : (w.wrV n m f).idx = w.idx := rfl
@[simp] theorem Wave.wrV_slot (w : Wave) (n : Fin 128) (m : Mask) (f : Fin 32 → Word) : (w.wrV n m f).slot = w.slot := rfl
@[simp] theorem Wave.wrV_mode (w : Wave) (n : Fin 128) (m : Mask) (f : Fin 32 → Word) : (w.wrV n m f).mode = w.mode := rfl
@[simp] theorem Wave.wrV_v (w : Wave) (n : Fin 128) (m : Mask) (f : Fin 32 → Word) : (w.wrV n m f).v = w.v.set n (Lanes.ofFn fun l => if bit m l then f l else w.v[n][l]) := rfl
@[simp] theorem Wave.wrV_p (w : Wave) (n : Fin 128) (m : Mask) (f : Fin 32 → Word) : (w.wrV n m f).p = w.p := rfl
@[simp] theorem Wave.wrV_k (w : Wave) (n : Fin 128) (m : Mask) (f : Fin 32 → Word) : (w.wrV n m f).k = w.k := rfl
@[simp] theorem Wave.wrV_h (w : Wave) (n : Fin 128) (m : Mask) (f : Fin 32 → Word) : (w.wrV n m f).h = w.h := rfl
@[simp] theorem Wave.wrV_q (w : Wave) (n : Fin 128) (m : Mask) (f : Fin 32 → Word) : (w.wrV n m f).q = w.q := rfl
@[simp] theorem Wave.wrV_tiles (w : Wave) (n : Fin 128) (m : Mask) (f : Fin 32 → Word) : (w.wrV n m f).tiles = w.tiles := rfl
@[simp] theorem Wave.wrV_pc (w : Wave) (n : Fin 128) (m : Mask) (f : Fin 32 → Word) : (w.wrV n m f).pc = w.pc := rfl
@[simp] theorem Wave.wrV_st (w : Wave) (n : Fin 128) (m : Mask) (f : Fin 32 → Word) : (w.wrV n m f).st = w.st := rfl
@[simp] theorem Wave.wrV_guard (w : Wave) (n : Fin 128) (m : Mask) (f : Fin 32 → Word) : (w.wrV n m f).guard = w.guard := rfl
@[simp] theorem Wave.wrV_yieldMask (w : Wave) (n : Fin 128) (m : Mask) (f : Fin 32 → Word) : (w.wrV n m f).yieldMask = w.yieldMask := rfl
@[simp] theorem Wave.wrV_rotation (w : Wave) (n : Fin 128) (m : Mask) (f : Fin 32 → Word) : (w.wrV n m f).rotation = w.rotation := rfl
@[simp] theorem Wave.wrV_fairness (w : Wave) (n : Fin 128) (m : Mask) (f : Fin 32 → Word) : (w.wrV n m f).fairness = w.fairness := rfl
@[simp] theorem Wave.wrV_count (w : Wave) (n : Fin 128) (m : Mask) (f : Fin 32 → Word) : (w.wrV n m f).count = w.count := rfl
@[simp] theorem Wave.wrV_promise (w : Wave) (n : Fin 128) (m : Mask) (f : Fin 32 → Word) : (w.wrV n m f).promise = w.promise := rfl
@[simp] theorem Wave.wrV_retcode (w : Wave) (n : Fin 128) (m : Mask) (f : Fin 32 → Word) : (w.wrV n m f).retcode = w.retcode := rfl
@[simp] theorem Wave.wrV_trapcause (w : Wave) (n : Fin 128) (m : Mask) (f : Fin 32 → Word) : (w.wrV n m f).trapcause = w.trapcause := rfl
@[simp] theorem Wave.wrV_trapaddr (w : Wave) (n : Fin 128) (m : Mask) (f : Fin 32 → Word) : (w.wrV n m f).trapaddr = w.trapaddr := rfl
@[simp] theorem Wave.wrV_trapmask (w : Wave) (n : Fin 128) (m : Mask) (f : Fin 32 → Word) : (w.wrV n m f).trapmask = w.trapmask := rfl
@[simp] theorem Wave.wrV_trappc (w : Wave) (n : Fin 128) (m : Mask) (f : Fin 32 → Word) : (w.wrV n m f).trappc = w.trappc := rfl
@[simp] theorem Wave.wrV_trapent (w : Wave) (n : Fin 128) (m : Mask) (f : Fin 32 → Word) : (w.wrV n m f).trapent = w.trapent := rfl
@[simp] theorem Wave.wrV_recs (w : Wave) (n : Fin 128) (m : Mask) (f : Fin 32 → Word) : (w.wrV n m f).recs = w.recs := rfl
@[simp] theorem Wave.wrV_subs (w : Wave) (n : Fin 128) (m : Mask) (f : Fin 32 → Word) : (w.wrV n m f).subs = w.subs := rfl
@[simp] theorem Wave.wrV_handler (w : Wave) (n : Fin 128) (m : Mask) (f : Fin 32 → Word) : (w.wrV n m f).handler = w.handler := rfl
@[simp] theorem Wave.wrV_pending (w : Wave) (n : Fin 128) (m : Mask) (f : Fin 32 → Word) : (w.wrV n m f).pending = w.pending := rfl
@[simp] theorem Wave.wrV_hold (w : Wave) (n : Fin 128) (m : Mask) (f : Fin 32 → Word) : (w.wrV n m f).hold = w.hold := rfl
@[simp] theorem Wave.wrV_chosen (w : Wave) (n : Fin 128) (m : Mask) (f : Fin 32 → Word) : (w.wrV n m f).chosen = w.chosen := rfl
@[simp] theorem Wave.wrV_replay (w : Wave) (n : Fin 128) (m : Mask) (f : Fin 32 → Word) : (w.wrV n m f).replay = w.replay := rfl
@[simp] theorem Wave.wrV_halted (w : Wave) (n : Fin 128) (m : Mask) (f : Fin 32 → Word) : (w.wrV n m f).halted = w.halted := rfl
@[simp] theorem Wave.wrV_nt (w : Wave) (n : Fin 128) (m : Mask) (f : Fin 32 → Word) : (w.wrV n m f).nt = w.nt := rfl
@[simp] theorem Wave.wrV_pushed (w : Wave) (n : Fin 128) (m : Mask) (f : Fin 32 → Word) : (w.wrV n m f).pushed = w.pushed := rfl
@[simp] theorem Wave.wrV_unknown (w : Wave) (n : Fin 128) (m : Mask) (f : Fin 32 → Word) : (w.wrV n m f).unknown = w.unknown := rfl
@[simp] theorem Wave.wrV_batch (w : Wave) (n : Fin 128) (m : Mask) (f : Fin 32 → Word) : (w.wrV n m f).batch = w.batch := rfl
@[simp] theorem Wave.wrV_batchNo (w : Wave) (n : Fin 128) (m : Mask) (f : Fin 32 → Word) : (w.wrV n m f).batchNo = w.batchNo := rfl
@[simp] theorem Wave.wrV_aheadDue (w : Wave) (n : Fin 128) (m : Mask) (f : Fin 32 → Word) : (w.wrV n m f).aheadDue = w.aheadDue := rfl
@[simp] theorem Wave.wrV_own (w : Wave) (n : Fin 128) (m : Mask) (f : Fin 32 → Word) : (w.wrV n m f).own = w.own := rfl
@[simp] theorem Wave.wrV_walked (w : Wave) (n : Fin 128) (m : Mask) (f : Fin 32 → Word) : (w.wrV n m f).walked = w.walked := rfl
@[simp] theorem Wave.wrV_loading (w : Wave) (n : Fin 128) (m : Mask) (f : Fin 32 → Word) : (w.wrV n m f).loading = w.loading := rfl
@[simp] theorem Wave.wrV_issues (w : Wave) (n : Fin 128) (m : Mask) (f : Fin 32 → Word) : (w.wrV n m f).issues = w.issues := rfl
@[simp] theorem Wave.wrVV_uid (w : Wave) (n : Fin 128) (m : Mask) (f : Fin 32 → DWord) : (w.wrVV n m f).uid = w.uid := rfl
@[simp] theorem Wave.wrVV_idx (w : Wave) (n : Fin 128) (m : Mask) (f : Fin 32 → DWord) : (w.wrVV n m f).idx = w.idx := rfl
@[simp] theorem Wave.wrVV_slot (w : Wave) (n : Fin 128) (m : Mask) (f : Fin 32 → DWord) : (w.wrVV n m f).slot = w.slot := rfl
@[simp] theorem Wave.wrVV_mode (w : Wave) (n : Fin 128) (m : Mask) (f : Fin 32 → DWord) : (w.wrVV n m f).mode = w.mode := rfl
@[simp] theorem Wave.wrVV_p (w : Wave) (n : Fin 128) (m : Mask) (f : Fin 32 → DWord) : (w.wrVV n m f).p = w.p := rfl
@[simp] theorem Wave.wrVV_k (w : Wave) (n : Fin 128) (m : Mask) (f : Fin 32 → DWord) : (w.wrVV n m f).k = w.k := rfl
@[simp] theorem Wave.wrVV_h (w : Wave) (n : Fin 128) (m : Mask) (f : Fin 32 → DWord) : (w.wrVV n m f).h = w.h := rfl
@[simp] theorem Wave.wrVV_q (w : Wave) (n : Fin 128) (m : Mask) (f : Fin 32 → DWord) : (w.wrVV n m f).q = w.q := rfl
@[simp] theorem Wave.wrVV_tiles (w : Wave) (n : Fin 128) (m : Mask) (f : Fin 32 → DWord) : (w.wrVV n m f).tiles = w.tiles := rfl
@[simp] theorem Wave.wrVV_pc (w : Wave) (n : Fin 128) (m : Mask) (f : Fin 32 → DWord) : (w.wrVV n m f).pc = w.pc := rfl
@[simp] theorem Wave.wrVV_st (w : Wave) (n : Fin 128) (m : Mask) (f : Fin 32 → DWord) : (w.wrVV n m f).st = w.st := rfl
@[simp] theorem Wave.wrVV_guard (w : Wave) (n : Fin 128) (m : Mask) (f : Fin 32 → DWord) : (w.wrVV n m f).guard = w.guard := rfl
@[simp] theorem Wave.wrVV_yieldMask (w : Wave) (n : Fin 128) (m : Mask) (f : Fin 32 → DWord) : (w.wrVV n m f).yieldMask = w.yieldMask := rfl
@[simp] theorem Wave.wrVV_rotation (w : Wave) (n : Fin 128) (m : Mask) (f : Fin 32 → DWord) : (w.wrVV n m f).rotation = w.rotation := rfl
@[simp] theorem Wave.wrVV_fairness (w : Wave) (n : Fin 128) (m : Mask) (f : Fin 32 → DWord) : (w.wrVV n m f).fairness = w.fairness := rfl
@[simp] theorem Wave.wrVV_count (w : Wave) (n : Fin 128) (m : Mask) (f : Fin 32 → DWord) : (w.wrVV n m f).count = w.count := rfl
@[simp] theorem Wave.wrVV_promise (w : Wave) (n : Fin 128) (m : Mask) (f : Fin 32 → DWord) : (w.wrVV n m f).promise = w.promise := rfl
@[simp] theorem Wave.wrVV_retcode (w : Wave) (n : Fin 128) (m : Mask) (f : Fin 32 → DWord) : (w.wrVV n m f).retcode = w.retcode := rfl
@[simp] theorem Wave.wrVV_trapcause (w : Wave) (n : Fin 128) (m : Mask) (f : Fin 32 → DWord) : (w.wrVV n m f).trapcause = w.trapcause := rfl
@[simp] theorem Wave.wrVV_trapaddr (w : Wave) (n : Fin 128) (m : Mask) (f : Fin 32 → DWord) : (w.wrVV n m f).trapaddr = w.trapaddr := rfl
@[simp] theorem Wave.wrVV_trapmask (w : Wave) (n : Fin 128) (m : Mask) (f : Fin 32 → DWord) : (w.wrVV n m f).trapmask = w.trapmask := rfl
@[simp] theorem Wave.wrVV_trappc (w : Wave) (n : Fin 128) (m : Mask) (f : Fin 32 → DWord) : (w.wrVV n m f).trappc = w.trappc := rfl
@[simp] theorem Wave.wrVV_trapent (w : Wave) (n : Fin 128) (m : Mask) (f : Fin 32 → DWord) : (w.wrVV n m f).trapent = w.trapent := rfl
@[simp] theorem Wave.wrVV_recs (w : Wave) (n : Fin 128) (m : Mask) (f : Fin 32 → DWord) : (w.wrVV n m f).recs = w.recs := rfl
@[simp] theorem Wave.wrVV_subs (w : Wave) (n : Fin 128) (m : Mask) (f : Fin 32 → DWord) : (w.wrVV n m f).subs = w.subs := rfl
@[simp] theorem Wave.wrVV_handler (w : Wave) (n : Fin 128) (m : Mask) (f : Fin 32 → DWord) : (w.wrVV n m f).handler = w.handler := rfl
@[simp] theorem Wave.wrVV_pending (w : Wave) (n : Fin 128) (m : Mask) (f : Fin 32 → DWord) : (w.wrVV n m f).pending = w.pending := rfl
@[simp] theorem Wave.wrVV_hold (w : Wave) (n : Fin 128) (m : Mask) (f : Fin 32 → DWord) : (w.wrVV n m f).hold = w.hold := rfl
@[simp] theorem Wave.wrVV_chosen (w : Wave) (n : Fin 128) (m : Mask) (f : Fin 32 → DWord) : (w.wrVV n m f).chosen = w.chosen := rfl
@[simp] theorem Wave.wrVV_replay (w : Wave) (n : Fin 128) (m : Mask) (f : Fin 32 → DWord) : (w.wrVV n m f).replay = w.replay := rfl
@[simp] theorem Wave.wrVV_halted (w : Wave) (n : Fin 128) (m : Mask) (f : Fin 32 → DWord) : (w.wrVV n m f).halted = w.halted := rfl
@[simp] theorem Wave.wrVV_nt (w : Wave) (n : Fin 128) (m : Mask) (f : Fin 32 → DWord) : (w.wrVV n m f).nt = w.nt := rfl
@[simp] theorem Wave.wrVV_pushed (w : Wave) (n : Fin 128) (m : Mask) (f : Fin 32 → DWord) : (w.wrVV n m f).pushed = w.pushed := rfl
@[simp] theorem Wave.wrVV_unknown (w : Wave) (n : Fin 128) (m : Mask) (f : Fin 32 → DWord) : (w.wrVV n m f).unknown = w.unknown := rfl
@[simp] theorem Wave.wrVV_batch (w : Wave) (n : Fin 128) (m : Mask) (f : Fin 32 → DWord) : (w.wrVV n m f).batch = w.batch := rfl
@[simp] theorem Wave.wrVV_batchNo (w : Wave) (n : Fin 128) (m : Mask) (f : Fin 32 → DWord) : (w.wrVV n m f).batchNo = w.batchNo := rfl
@[simp] theorem Wave.wrVV_aheadDue (w : Wave) (n : Fin 128) (m : Mask) (f : Fin 32 → DWord) : (w.wrVV n m f).aheadDue = w.aheadDue := rfl
@[simp] theorem Wave.wrVV_own (w : Wave) (n : Fin 128) (m : Mask) (f : Fin 32 → DWord) : (w.wrVV n m f).own = w.own := rfl
@[simp] theorem Wave.wrVV_walked (w : Wave) (n : Fin 128) (m : Mask) (f : Fin 32 → DWord) : (w.wrVV n m f).walked = w.walked := rfl
@[simp] theorem Wave.wrVV_loading (w : Wave) (n : Fin 128) (m : Mask) (f : Fin 32 → DWord) : (w.wrVV n m f).loading = w.loading := rfl
@[simp] theorem Wave.wrVV_issues (w : Wave) (n : Fin 128) (m : Mask) (f : Fin 32 → DWord) : (w.wrVV n m f).issues = w.issues := rfl
@[simp] theorem Wave.wrRows_uid (w : Wave) (t : Fin 16) (m : Mask) (f : Fin 32 → Row) : (w.wrRows t m f).uid = w.uid := rfl
@[simp] theorem Wave.wrRows_idx (w : Wave) (t : Fin 16) (m : Mask) (f : Fin 32 → Row) : (w.wrRows t m f).idx = w.idx := rfl
@[simp] theorem Wave.wrRows_slot (w : Wave) (t : Fin 16) (m : Mask) (f : Fin 32 → Row) : (w.wrRows t m f).slot = w.slot := rfl
@[simp] theorem Wave.wrRows_mode (w : Wave) (t : Fin 16) (m : Mask) (f : Fin 32 → Row) : (w.wrRows t m f).mode = w.mode := rfl
@[simp] theorem Wave.wrRows_v (w : Wave) (t : Fin 16) (m : Mask) (f : Fin 32 → Row) : (w.wrRows t m f).v = w.v := rfl
@[simp] theorem Wave.wrRows_p (w : Wave) (t : Fin 16) (m : Mask) (f : Fin 32 → Row) : (w.wrRows t m f).p = w.p := rfl
@[simp] theorem Wave.wrRows_k (w : Wave) (t : Fin 16) (m : Mask) (f : Fin 32 → Row) : (w.wrRows t m f).k = w.k := rfl
@[simp] theorem Wave.wrRows_h (w : Wave) (t : Fin 16) (m : Mask) (f : Fin 32 → Row) : (w.wrRows t m f).h = w.h := rfl
@[simp] theorem Wave.wrRows_q (w : Wave) (t : Fin 16) (m : Mask) (f : Fin 32 → Row) : (w.wrRows t m f).q = w.q := rfl
@[simp] theorem Wave.wrRows_pc (w : Wave) (t : Fin 16) (m : Mask) (f : Fin 32 → Row) : (w.wrRows t m f).pc = w.pc := rfl
@[simp] theorem Wave.wrRows_st (w : Wave) (t : Fin 16) (m : Mask) (f : Fin 32 → Row) : (w.wrRows t m f).st = w.st := rfl
@[simp] theorem Wave.wrRows_guard (w : Wave) (t : Fin 16) (m : Mask) (f : Fin 32 → Row) : (w.wrRows t m f).guard = w.guard := rfl
@[simp] theorem Wave.wrRows_yieldMask (w : Wave) (t : Fin 16) (m : Mask) (f : Fin 32 → Row) : (w.wrRows t m f).yieldMask = w.yieldMask := rfl
@[simp] theorem Wave.wrRows_rotation (w : Wave) (t : Fin 16) (m : Mask) (f : Fin 32 → Row) : (w.wrRows t m f).rotation = w.rotation := rfl
@[simp] theorem Wave.wrRows_fairness (w : Wave) (t : Fin 16) (m : Mask) (f : Fin 32 → Row) : (w.wrRows t m f).fairness = w.fairness := rfl
@[simp] theorem Wave.wrRows_count (w : Wave) (t : Fin 16) (m : Mask) (f : Fin 32 → Row) : (w.wrRows t m f).count = w.count := rfl
@[simp] theorem Wave.wrRows_promise (w : Wave) (t : Fin 16) (m : Mask) (f : Fin 32 → Row) : (w.wrRows t m f).promise = w.promise := rfl
@[simp] theorem Wave.wrRows_retcode (w : Wave) (t : Fin 16) (m : Mask) (f : Fin 32 → Row) : (w.wrRows t m f).retcode = w.retcode := rfl
@[simp] theorem Wave.wrRows_trapcause (w : Wave) (t : Fin 16) (m : Mask) (f : Fin 32 → Row) : (w.wrRows t m f).trapcause = w.trapcause := rfl
@[simp] theorem Wave.wrRows_trapaddr (w : Wave) (t : Fin 16) (m : Mask) (f : Fin 32 → Row) : (w.wrRows t m f).trapaddr = w.trapaddr := rfl
@[simp] theorem Wave.wrRows_trapmask (w : Wave) (t : Fin 16) (m : Mask) (f : Fin 32 → Row) : (w.wrRows t m f).trapmask = w.trapmask := rfl
@[simp] theorem Wave.wrRows_trappc (w : Wave) (t : Fin 16) (m : Mask) (f : Fin 32 → Row) : (w.wrRows t m f).trappc = w.trappc := rfl
@[simp] theorem Wave.wrRows_trapent (w : Wave) (t : Fin 16) (m : Mask) (f : Fin 32 → Row) : (w.wrRows t m f).trapent = w.trapent := rfl
@[simp] theorem Wave.wrRows_recs (w : Wave) (t : Fin 16) (m : Mask) (f : Fin 32 → Row) : (w.wrRows t m f).recs = w.recs := rfl
@[simp] theorem Wave.wrRows_subs (w : Wave) (t : Fin 16) (m : Mask) (f : Fin 32 → Row) : (w.wrRows t m f).subs = w.subs := rfl
@[simp] theorem Wave.wrRows_handler (w : Wave) (t : Fin 16) (m : Mask) (f : Fin 32 → Row) : (w.wrRows t m f).handler = w.handler := rfl
@[simp] theorem Wave.wrRows_pending (w : Wave) (t : Fin 16) (m : Mask) (f : Fin 32 → Row) : (w.wrRows t m f).pending = w.pending := rfl
@[simp] theorem Wave.wrRows_hold (w : Wave) (t : Fin 16) (m : Mask) (f : Fin 32 → Row) : (w.wrRows t m f).hold = w.hold := rfl
@[simp] theorem Wave.wrRows_chosen (w : Wave) (t : Fin 16) (m : Mask) (f : Fin 32 → Row) : (w.wrRows t m f).chosen = w.chosen := rfl
@[simp] theorem Wave.wrRows_replay (w : Wave) (t : Fin 16) (m : Mask) (f : Fin 32 → Row) : (w.wrRows t m f).replay = w.replay := rfl
@[simp] theorem Wave.wrRows_halted (w : Wave) (t : Fin 16) (m : Mask) (f : Fin 32 → Row) : (w.wrRows t m f).halted = w.halted := rfl
@[simp] theorem Wave.wrRows_nt (w : Wave) (t : Fin 16) (m : Mask) (f : Fin 32 → Row) : (w.wrRows t m f).nt = w.nt := rfl
@[simp] theorem Wave.wrRows_pushed (w : Wave) (t : Fin 16) (m : Mask) (f : Fin 32 → Row) : (w.wrRows t m f).pushed = w.pushed := rfl
@[simp] theorem Wave.wrRows_unknown (w : Wave) (t : Fin 16) (m : Mask) (f : Fin 32 → Row) : (w.wrRows t m f).unknown = w.unknown := rfl
@[simp] theorem Wave.wrRows_batch (w : Wave) (t : Fin 16) (m : Mask) (f : Fin 32 → Row) : (w.wrRows t m f).batch = w.batch := rfl
@[simp] theorem Wave.wrRows_batchNo (w : Wave) (t : Fin 16) (m : Mask) (f : Fin 32 → Row) : (w.wrRows t m f).batchNo = w.batchNo := rfl
@[simp] theorem Wave.wrRows_aheadDue (w : Wave) (t : Fin 16) (m : Mask) (f : Fin 32 → Row) : (w.wrRows t m f).aheadDue = w.aheadDue := rfl
@[simp] theorem Wave.wrRows_own (w : Wave) (t : Fin 16) (m : Mask) (f : Fin 32 → Row) : (w.wrRows t m f).own = w.own := rfl
@[simp] theorem Wave.wrRows_walked (w : Wave) (t : Fin 16) (m : Mask) (f : Fin 32 → Row) : (w.wrRows t m f).walked = w.walked := rfl
@[simp] theorem Wave.wrRows_loading (w : Wave) (t : Fin 16) (m : Mask) (f : Fin 32 → Row) : (w.wrRows t m f).loading = w.loading := rfl
@[simp] theorem Wave.wrRows_issues (w : Wave) (t : Fin 16) (m : Mask) (f : Fin 32 → Row) : (w.wrRows t m f).issues = w.issues := rfl
@[simp] theorem Wave.wrHeader_uid (w : Wave) (t : Fin 16) (x : DWord) : (w.wrHeader t x).uid = w.uid := rfl
@[simp] theorem Wave.wrHeader_idx (w : Wave) (t : Fin 16) (x : DWord) : (w.wrHeader t x).idx = w.idx := rfl
@[simp] theorem Wave.wrHeader_slot (w : Wave) (t : Fin 16) (x : DWord) : (w.wrHeader t x).slot = w.slot := rfl
@[simp] theorem Wave.wrHeader_mode (w : Wave) (t : Fin 16) (x : DWord) : (w.wrHeader t x).mode = w.mode := rfl
@[simp] theorem Wave.wrHeader_v (w : Wave) (t : Fin 16) (x : DWord) : (w.wrHeader t x).v = w.v := rfl
@[simp] theorem Wave.wrHeader_p (w : Wave) (t : Fin 16) (x : DWord) : (w.wrHeader t x).p = w.p := rfl
@[simp] theorem Wave.wrHeader_k (w : Wave) (t : Fin 16) (x : DWord) : (w.wrHeader t x).k = w.k := rfl
@[simp] theorem Wave.wrHeader_h (w : Wave) (t : Fin 16) (x : DWord) : (w.wrHeader t x).h = w.h := rfl
@[simp] theorem Wave.wrHeader_q (w : Wave) (t : Fin 16) (x : DWord) : (w.wrHeader t x).q = w.q := rfl
@[simp] theorem Wave.wrHeader_pc (w : Wave) (t : Fin 16) (x : DWord) : (w.wrHeader t x).pc = w.pc := rfl
@[simp] theorem Wave.wrHeader_st (w : Wave) (t : Fin 16) (x : DWord) : (w.wrHeader t x).st = w.st := rfl
@[simp] theorem Wave.wrHeader_guard (w : Wave) (t : Fin 16) (x : DWord) : (w.wrHeader t x).guard = w.guard := rfl
@[simp] theorem Wave.wrHeader_yieldMask (w : Wave) (t : Fin 16) (x : DWord) : (w.wrHeader t x).yieldMask = w.yieldMask := rfl
@[simp] theorem Wave.wrHeader_rotation (w : Wave) (t : Fin 16) (x : DWord) : (w.wrHeader t x).rotation = w.rotation := rfl
@[simp] theorem Wave.wrHeader_fairness (w : Wave) (t : Fin 16) (x : DWord) : (w.wrHeader t x).fairness = w.fairness := rfl
@[simp] theorem Wave.wrHeader_count (w : Wave) (t : Fin 16) (x : DWord) : (w.wrHeader t x).count = w.count := rfl
@[simp] theorem Wave.wrHeader_promise (w : Wave) (t : Fin 16) (x : DWord) : (w.wrHeader t x).promise = w.promise := rfl
@[simp] theorem Wave.wrHeader_retcode (w : Wave) (t : Fin 16) (x : DWord) : (w.wrHeader t x).retcode = w.retcode := rfl
@[simp] theorem Wave.wrHeader_trapcause (w : Wave) (t : Fin 16) (x : DWord) : (w.wrHeader t x).trapcause = w.trapcause := rfl
@[simp] theorem Wave.wrHeader_trapaddr (w : Wave) (t : Fin 16) (x : DWord) : (w.wrHeader t x).trapaddr = w.trapaddr := rfl
@[simp] theorem Wave.wrHeader_trapmask (w : Wave) (t : Fin 16) (x : DWord) : (w.wrHeader t x).trapmask = w.trapmask := rfl
@[simp] theorem Wave.wrHeader_trappc (w : Wave) (t : Fin 16) (x : DWord) : (w.wrHeader t x).trappc = w.trappc := rfl
@[simp] theorem Wave.wrHeader_trapent (w : Wave) (t : Fin 16) (x : DWord) : (w.wrHeader t x).trapent = w.trapent := rfl
@[simp] theorem Wave.wrHeader_recs (w : Wave) (t : Fin 16) (x : DWord) : (w.wrHeader t x).recs = w.recs := rfl
@[simp] theorem Wave.wrHeader_subs (w : Wave) (t : Fin 16) (x : DWord) : (w.wrHeader t x).subs = w.subs := rfl
@[simp] theorem Wave.wrHeader_handler (w : Wave) (t : Fin 16) (x : DWord) : (w.wrHeader t x).handler = w.handler := rfl
@[simp] theorem Wave.wrHeader_pending (w : Wave) (t : Fin 16) (x : DWord) : (w.wrHeader t x).pending = w.pending := rfl
@[simp] theorem Wave.wrHeader_hold (w : Wave) (t : Fin 16) (x : DWord) : (w.wrHeader t x).hold = w.hold := rfl
@[simp] theorem Wave.wrHeader_chosen (w : Wave) (t : Fin 16) (x : DWord) : (w.wrHeader t x).chosen = w.chosen := rfl
@[simp] theorem Wave.wrHeader_replay (w : Wave) (t : Fin 16) (x : DWord) : (w.wrHeader t x).replay = w.replay := rfl
@[simp] theorem Wave.wrHeader_halted (w : Wave) (t : Fin 16) (x : DWord) : (w.wrHeader t x).halted = w.halted := rfl
@[simp] theorem Wave.wrHeader_nt (w : Wave) (t : Fin 16) (x : DWord) : (w.wrHeader t x).nt = w.nt := rfl
@[simp] theorem Wave.wrHeader_pushed (w : Wave) (t : Fin 16) (x : DWord) : (w.wrHeader t x).pushed = w.pushed := rfl
@[simp] theorem Wave.wrHeader_unknown (w : Wave) (t : Fin 16) (x : DWord) : (w.wrHeader t x).unknown = w.unknown := rfl
@[simp] theorem Wave.wrHeader_batch (w : Wave) (t : Fin 16) (x : DWord) : (w.wrHeader t x).batch = w.batch := rfl
@[simp] theorem Wave.wrHeader_batchNo (w : Wave) (t : Fin 16) (x : DWord) : (w.wrHeader t x).batchNo = w.batchNo := rfl
@[simp] theorem Wave.wrHeader_aheadDue (w : Wave) (t : Fin 16) (x : DWord) : (w.wrHeader t x).aheadDue = w.aheadDue := rfl
@[simp] theorem Wave.wrHeader_own (w : Wave) (t : Fin 16) (x : DWord) : (w.wrHeader t x).own = w.own := rfl
@[simp] theorem Wave.wrHeader_walked (w : Wave) (t : Fin 16) (x : DWord) : (w.wrHeader t x).walked = w.walked := rfl
@[simp] theorem Wave.wrHeader_loading (w : Wave) (t : Fin 16) (x : DWord) : (w.wrHeader t x).loading = w.loading := rfl
@[simp] theorem Wave.wrHeader_issues (w : Wave) (t : Fin 16) (x : DWord) : (w.wrHeader t x).issues = w.issues := rfl
@[simp] theorem Wave.wrP_uid (w : Wave) (n : Nat) (m : Mask) (f : Fin 32 → Bool) : (w.wrP n m f).uid = w.uid := by unfold Wave.wrP; split <;> rfl
@[simp] theorem Wave.wrP_idx (w : Wave) (n : Nat) (m : Mask) (f : Fin 32 → Bool) : (w.wrP n m f).idx = w.idx := by unfold Wave.wrP; split <;> rfl
@[simp] theorem Wave.wrP_slot (w : Wave) (n : Nat) (m : Mask) (f : Fin 32 → Bool) : (w.wrP n m f).slot = w.slot := by unfold Wave.wrP; split <;> rfl
@[simp] theorem Wave.wrP_mode (w : Wave) (n : Nat) (m : Mask) (f : Fin 32 → Bool) : (w.wrP n m f).mode = w.mode := by unfold Wave.wrP; split <;> rfl
@[simp] theorem Wave.wrP_v (w : Wave) (n : Nat) (m : Mask) (f : Fin 32 → Bool) : (w.wrP n m f).v = w.v := by unfold Wave.wrP; split <;> rfl
@[simp] theorem Wave.wrP_k (w : Wave) (n : Nat) (m : Mask) (f : Fin 32 → Bool) : (w.wrP n m f).k = w.k := by unfold Wave.wrP; split <;> rfl
@[simp] theorem Wave.wrP_h (w : Wave) (n : Nat) (m : Mask) (f : Fin 32 → Bool) : (w.wrP n m f).h = w.h := by unfold Wave.wrP; split <;> rfl
@[simp] theorem Wave.wrP_q (w : Wave) (n : Nat) (m : Mask) (f : Fin 32 → Bool) : (w.wrP n m f).q = w.q := by unfold Wave.wrP; split <;> rfl
@[simp] theorem Wave.wrP_tiles (w : Wave) (n : Nat) (m : Mask) (f : Fin 32 → Bool) : (w.wrP n m f).tiles = w.tiles := by unfold Wave.wrP; split <;> rfl
@[simp] theorem Wave.wrP_pc (w : Wave) (n : Nat) (m : Mask) (f : Fin 32 → Bool) : (w.wrP n m f).pc = w.pc := by unfold Wave.wrP; split <;> rfl
@[simp] theorem Wave.wrP_st (w : Wave) (n : Nat) (m : Mask) (f : Fin 32 → Bool) : (w.wrP n m f).st = w.st := by unfold Wave.wrP; split <;> rfl
@[simp] theorem Wave.wrP_guard (w : Wave) (n : Nat) (m : Mask) (f : Fin 32 → Bool) : (w.wrP n m f).guard = w.guard := by unfold Wave.wrP; split <;> rfl
@[simp] theorem Wave.wrP_yieldMask (w : Wave) (n : Nat) (m : Mask) (f : Fin 32 → Bool) : (w.wrP n m f).yieldMask = w.yieldMask := by unfold Wave.wrP; split <;> rfl
@[simp] theorem Wave.wrP_rotation (w : Wave) (n : Nat) (m : Mask) (f : Fin 32 → Bool) : (w.wrP n m f).rotation = w.rotation := by unfold Wave.wrP; split <;> rfl
@[simp] theorem Wave.wrP_fairness (w : Wave) (n : Nat) (m : Mask) (f : Fin 32 → Bool) : (w.wrP n m f).fairness = w.fairness := by unfold Wave.wrP; split <;> rfl
@[simp] theorem Wave.wrP_count (w : Wave) (n : Nat) (m : Mask) (f : Fin 32 → Bool) : (w.wrP n m f).count = w.count := by unfold Wave.wrP; split <;> rfl
@[simp] theorem Wave.wrP_promise (w : Wave) (n : Nat) (m : Mask) (f : Fin 32 → Bool) : (w.wrP n m f).promise = w.promise := by unfold Wave.wrP; split <;> rfl
@[simp] theorem Wave.wrP_retcode (w : Wave) (n : Nat) (m : Mask) (f : Fin 32 → Bool) : (w.wrP n m f).retcode = w.retcode := by unfold Wave.wrP; split <;> rfl
@[simp] theorem Wave.wrP_trapcause (w : Wave) (n : Nat) (m : Mask) (f : Fin 32 → Bool) : (w.wrP n m f).trapcause = w.trapcause := by unfold Wave.wrP; split <;> rfl
@[simp] theorem Wave.wrP_trapaddr (w : Wave) (n : Nat) (m : Mask) (f : Fin 32 → Bool) : (w.wrP n m f).trapaddr = w.trapaddr := by unfold Wave.wrP; split <;> rfl
@[simp] theorem Wave.wrP_trapmask (w : Wave) (n : Nat) (m : Mask) (f : Fin 32 → Bool) : (w.wrP n m f).trapmask = w.trapmask := by unfold Wave.wrP; split <;> rfl
@[simp] theorem Wave.wrP_trappc (w : Wave) (n : Nat) (m : Mask) (f : Fin 32 → Bool) : (w.wrP n m f).trappc = w.trappc := by unfold Wave.wrP; split <;> rfl
@[simp] theorem Wave.wrP_trapent (w : Wave) (n : Nat) (m : Mask) (f : Fin 32 → Bool) : (w.wrP n m f).trapent = w.trapent := by unfold Wave.wrP; split <;> rfl
@[simp] theorem Wave.wrP_recs (w : Wave) (n : Nat) (m : Mask) (f : Fin 32 → Bool) : (w.wrP n m f).recs = w.recs := by unfold Wave.wrP; split <;> rfl
@[simp] theorem Wave.wrP_subs (w : Wave) (n : Nat) (m : Mask) (f : Fin 32 → Bool) : (w.wrP n m f).subs = w.subs := by unfold Wave.wrP; split <;> rfl
@[simp] theorem Wave.wrP_handler (w : Wave) (n : Nat) (m : Mask) (f : Fin 32 → Bool) : (w.wrP n m f).handler = w.handler := by unfold Wave.wrP; split <;> rfl
@[simp] theorem Wave.wrP_pending (w : Wave) (n : Nat) (m : Mask) (f : Fin 32 → Bool) : (w.wrP n m f).pending = w.pending := by unfold Wave.wrP; split <;> rfl
@[simp] theorem Wave.wrP_hold (w : Wave) (n : Nat) (m : Mask) (f : Fin 32 → Bool) : (w.wrP n m f).hold = w.hold := by unfold Wave.wrP; split <;> rfl
@[simp] theorem Wave.wrP_chosen (w : Wave) (n : Nat) (m : Mask) (f : Fin 32 → Bool) : (w.wrP n m f).chosen = w.chosen := by unfold Wave.wrP; split <;> rfl
@[simp] theorem Wave.wrP_replay (w : Wave) (n : Nat) (m : Mask) (f : Fin 32 → Bool) : (w.wrP n m f).replay = w.replay := by unfold Wave.wrP; split <;> rfl
@[simp] theorem Wave.wrP_halted (w : Wave) (n : Nat) (m : Mask) (f : Fin 32 → Bool) : (w.wrP n m f).halted = w.halted := by unfold Wave.wrP; split <;> rfl
@[simp] theorem Wave.wrP_nt (w : Wave) (n : Nat) (m : Mask) (f : Fin 32 → Bool) : (w.wrP n m f).nt = w.nt := by unfold Wave.wrP; split <;> rfl
@[simp] theorem Wave.wrP_pushed (w : Wave) (n : Nat) (m : Mask) (f : Fin 32 → Bool) : (w.wrP n m f).pushed = w.pushed := by unfold Wave.wrP; split <;> rfl
@[simp] theorem Wave.wrP_unknown (w : Wave) (n : Nat) (m : Mask) (f : Fin 32 → Bool) : (w.wrP n m f).unknown = w.unknown := by unfold Wave.wrP; split <;> rfl
@[simp] theorem Wave.wrP_batch (w : Wave) (n : Nat) (m : Mask) (f : Fin 32 → Bool) : (w.wrP n m f).batch = w.batch := by unfold Wave.wrP; split <;> rfl
@[simp] theorem Wave.wrP_batchNo (w : Wave) (n : Nat) (m : Mask) (f : Fin 32 → Bool) : (w.wrP n m f).batchNo = w.batchNo := by unfold Wave.wrP; split <;> rfl
@[simp] theorem Wave.wrP_aheadDue (w : Wave) (n : Nat) (m : Mask) (f : Fin 32 → Bool) : (w.wrP n m f).aheadDue = w.aheadDue := by unfold Wave.wrP; split <;> rfl
@[simp] theorem Wave.wrP_own (w : Wave) (n : Nat) (m : Mask) (f : Fin 32 → Bool) : (w.wrP n m f).own = w.own := by unfold Wave.wrP; split <;> rfl
@[simp] theorem Wave.wrP_walked (w : Wave) (n : Nat) (m : Mask) (f : Fin 32 → Bool) : (w.wrP n m f).walked = w.walked := by unfold Wave.wrP; split <;> rfl
@[simp] theorem Wave.wrP_loading (w : Wave) (n : Nat) (m : Mask) (f : Fin 32 → Bool) : (w.wrP n m f).loading = w.loading := by unfold Wave.wrP; split <;> rfl
@[simp] theorem Wave.wrP_issues (w : Wave) (n : Nat) (m : Mask) (f : Fin 32 → Bool) : (w.wrP n m f).issues = w.issues := by unfold Wave.wrP; split <;> rfl
@[simp] theorem Wave.wrK_uid (w : Wave) (n : Nat) (x : Mask) : (w.wrK n x).uid = w.uid := by unfold Wave.wrK; split <;> rfl
@[simp] theorem Wave.wrK_idx (w : Wave) (n : Nat) (x : Mask) : (w.wrK n x).idx = w.idx := by unfold Wave.wrK; split <;> rfl
@[simp] theorem Wave.wrK_slot (w : Wave) (n : Nat) (x : Mask) : (w.wrK n x).slot = w.slot := by unfold Wave.wrK; split <;> rfl
@[simp] theorem Wave.wrK_mode (w : Wave) (n : Nat) (x : Mask) : (w.wrK n x).mode = w.mode := by unfold Wave.wrK; split <;> rfl
@[simp] theorem Wave.wrK_v (w : Wave) (n : Nat) (x : Mask) : (w.wrK n x).v = w.v := by unfold Wave.wrK; split <;> rfl
@[simp] theorem Wave.wrK_p (w : Wave) (n : Nat) (x : Mask) : (w.wrK n x).p = w.p := by unfold Wave.wrK; split <;> rfl
@[simp] theorem Wave.wrK_h (w : Wave) (n : Nat) (x : Mask) : (w.wrK n x).h = w.h := by unfold Wave.wrK; split <;> rfl
@[simp] theorem Wave.wrK_q (w : Wave) (n : Nat) (x : Mask) : (w.wrK n x).q = w.q := by unfold Wave.wrK; split <;> rfl
@[simp] theorem Wave.wrK_tiles (w : Wave) (n : Nat) (x : Mask) : (w.wrK n x).tiles = w.tiles := by unfold Wave.wrK; split <;> rfl
@[simp] theorem Wave.wrK_pc (w : Wave) (n : Nat) (x : Mask) : (w.wrK n x).pc = w.pc := by unfold Wave.wrK; split <;> rfl
@[simp] theorem Wave.wrK_st (w : Wave) (n : Nat) (x : Mask) : (w.wrK n x).st = w.st := by unfold Wave.wrK; split <;> rfl
@[simp] theorem Wave.wrK_guard (w : Wave) (n : Nat) (x : Mask) : (w.wrK n x).guard = w.guard := by unfold Wave.wrK; split <;> rfl
@[simp] theorem Wave.wrK_yieldMask (w : Wave) (n : Nat) (x : Mask) : (w.wrK n x).yieldMask = w.yieldMask := by unfold Wave.wrK; split <;> rfl
@[simp] theorem Wave.wrK_rotation (w : Wave) (n : Nat) (x : Mask) : (w.wrK n x).rotation = w.rotation := by unfold Wave.wrK; split <;> rfl
@[simp] theorem Wave.wrK_fairness (w : Wave) (n : Nat) (x : Mask) : (w.wrK n x).fairness = w.fairness := by unfold Wave.wrK; split <;> rfl
@[simp] theorem Wave.wrK_count (w : Wave) (n : Nat) (x : Mask) : (w.wrK n x).count = w.count := by unfold Wave.wrK; split <;> rfl
@[simp] theorem Wave.wrK_promise (w : Wave) (n : Nat) (x : Mask) : (w.wrK n x).promise = w.promise := by unfold Wave.wrK; split <;> rfl
@[simp] theorem Wave.wrK_retcode (w : Wave) (n : Nat) (x : Mask) : (w.wrK n x).retcode = w.retcode := by unfold Wave.wrK; split <;> rfl
@[simp] theorem Wave.wrK_trapcause (w : Wave) (n : Nat) (x : Mask) : (w.wrK n x).trapcause = w.trapcause := by unfold Wave.wrK; split <;> rfl
@[simp] theorem Wave.wrK_trapaddr (w : Wave) (n : Nat) (x : Mask) : (w.wrK n x).trapaddr = w.trapaddr := by unfold Wave.wrK; split <;> rfl
@[simp] theorem Wave.wrK_trapmask (w : Wave) (n : Nat) (x : Mask) : (w.wrK n x).trapmask = w.trapmask := by unfold Wave.wrK; split <;> rfl
@[simp] theorem Wave.wrK_trappc (w : Wave) (n : Nat) (x : Mask) : (w.wrK n x).trappc = w.trappc := by unfold Wave.wrK; split <;> rfl
@[simp] theorem Wave.wrK_trapent (w : Wave) (n : Nat) (x : Mask) : (w.wrK n x).trapent = w.trapent := by unfold Wave.wrK; split <;> rfl
@[simp] theorem Wave.wrK_recs (w : Wave) (n : Nat) (x : Mask) : (w.wrK n x).recs = w.recs := by unfold Wave.wrK; split <;> rfl
@[simp] theorem Wave.wrK_subs (w : Wave) (n : Nat) (x : Mask) : (w.wrK n x).subs = w.subs := by unfold Wave.wrK; split <;> rfl
@[simp] theorem Wave.wrK_handler (w : Wave) (n : Nat) (x : Mask) : (w.wrK n x).handler = w.handler := by unfold Wave.wrK; split <;> rfl
@[simp] theorem Wave.wrK_pending (w : Wave) (n : Nat) (x : Mask) : (w.wrK n x).pending = w.pending := by unfold Wave.wrK; split <;> rfl
@[simp] theorem Wave.wrK_hold (w : Wave) (n : Nat) (x : Mask) : (w.wrK n x).hold = w.hold := by unfold Wave.wrK; split <;> rfl
@[simp] theorem Wave.wrK_chosen (w : Wave) (n : Nat) (x : Mask) : (w.wrK n x).chosen = w.chosen := by unfold Wave.wrK; split <;> rfl
@[simp] theorem Wave.wrK_replay (w : Wave) (n : Nat) (x : Mask) : (w.wrK n x).replay = w.replay := by unfold Wave.wrK; split <;> rfl
@[simp] theorem Wave.wrK_halted (w : Wave) (n : Nat) (x : Mask) : (w.wrK n x).halted = w.halted := by unfold Wave.wrK; split <;> rfl
@[simp] theorem Wave.wrK_nt (w : Wave) (n : Nat) (x : Mask) : (w.wrK n x).nt = w.nt := by unfold Wave.wrK; split <;> rfl
@[simp] theorem Wave.wrK_pushed (w : Wave) (n : Nat) (x : Mask) : (w.wrK n x).pushed = w.pushed := by unfold Wave.wrK; split <;> rfl
@[simp] theorem Wave.wrK_unknown (w : Wave) (n : Nat) (x : Mask) : (w.wrK n x).unknown = w.unknown := by unfold Wave.wrK; split <;> rfl
@[simp] theorem Wave.wrK_batch (w : Wave) (n : Nat) (x : Mask) : (w.wrK n x).batch = w.batch := by unfold Wave.wrK; split <;> rfl
@[simp] theorem Wave.wrK_batchNo (w : Wave) (n : Nat) (x : Mask) : (w.wrK n x).batchNo = w.batchNo := by unfold Wave.wrK; split <;> rfl
@[simp] theorem Wave.wrK_aheadDue (w : Wave) (n : Nat) (x : Mask) : (w.wrK n x).aheadDue = w.aheadDue := by unfold Wave.wrK; split <;> rfl
@[simp] theorem Wave.wrK_own (w : Wave) (n : Nat) (x : Mask) : (w.wrK n x).own = w.own := by unfold Wave.wrK; split <;> rfl
@[simp] theorem Wave.wrK_walked (w : Wave) (n : Nat) (x : Mask) : (w.wrK n x).walked = w.walked := by unfold Wave.wrK; split <;> rfl
@[simp] theorem Wave.wrK_loading (w : Wave) (n : Nat) (x : Mask) : (w.wrK n x).loading = w.loading := by unfold Wave.wrK; split <;> rfl
@[simp] theorem Wave.wrK_issues (w : Wave) (n : Nat) (x : Mask) : (w.wrK n x).issues = w.issues := by unfold Wave.wrK; split <;> rfl

end Sys2Proof.Machine
end

