-- ==== Sys2Proof/Laws/Home.lean ====
section
/-! SUPPORT. The home slices: a read, a write and all they bring about leave memory to the log of stores; a write's bytes stand last. -/

namespace Sys2Proof.Machine

/-- What every step of a fold keeps, the fold keeps. -/
theorem foldl_keeps {α β γ : Type} (g : α → γ) (f : α → β → α) (h : ∀ a b, g (f a b) = g a) (l : List β) (a : α) : g (l.foldl f a) = g a := by
  induction l generalizing a with
  | nil => rfl
  | cons b t ih => rw [List.foldl_cons, ih, h]

@[simp] theorem layBand_mem (b : Band) (s : State) : (layBand b s).mem = s.mem := by
  unfold layBand
  exact foldl_keeps State.mem _ (by intros; rfl) _ _

@[simp] theorem roundLine_mem (l : Nat) (s : State) : (roundLine l s).mem = s.mem := by
  unfold roundLine; split <;> simp

/-- Rounding a line that has no side band changes nothing. -/
theorem roundLine_none (l : Nat) (s : State) (h : (s.bands.find? fun b => b.line == l) = none) : roundLine l s = s := by
  unfold roundLine; rw [h]

@[simp] theorem logError_mem (k a x : Nat) (s : State) : (logError k a x s).mem = s.mem := by
  unfold logError; simp only []; split <;> rfl
@[simp] theorem logError_stores (k a x : Nat) (s : State) : (logError k a x s).stores = s.stores := by
  unfold logError; simp only []; split <;> rfl

@[simp] theorem refuseWords_mem (ws : List Nat) (s : State) : (refuseWords ws s).mem = s.mem := by
  unfold refuseWords; split
  · rfl
  · exact foldl_keeps State.mem _ (by intros; simp) _ _
@[simp] theorem refuseWords_stores (ws : List Nat) (s : State) : (refuseWords ws s).stores = s.stores := by
  unfold refuseWords; split
  · rfl
  · exact foldl_keeps State.stores _ (by intros; simp) _ _

/-- Where no base die refuses a word, nothing is marked. -/
theorem refuseWords_none (ws : List Nat) (s : State) (h : ∀ w, absentAt s w = false ∧ retiredAt s w = false) : refuseWords ws s = s := by
  unfold refuseWords; simp [h]

@[simp] theorem refuseWords_byte (ws : List Nat) (s : State) (x : Nat) : (refuseWords ws s).byte x = s.byte x := by
  show logRead _ _ _ = logRead _ _ _
  rw [refuseWords_mem, refuseWords_stores]

@[simp] theorem revoke_mem (a : Nat) (s : State) : (revoke a s).mem = s.mem := by unfold revoke; split <;> rfl
@[simp] theorem revoke_stores (a : Nat) (s : State) : (revoke a s).stores = s.stores := by unfold revoke; split <;> rfl

theorem pumpLink_frame (i : Nat) (ms : List Outgoing) (s : State) : (pumpLink i ms s).mem = s.mem ∧ (pumpLink i ms s).stores = s.stores := by
  unfold pumpLink; split <;> exact ⟨rfl, rfl⟩
theorem State.send_frame (m : Sent) (s : State) : (s.send m).mem = s.mem ∧ (s.send m).stores = s.stores := by
  unfold State.send
  cases m <;> try exact ⟨rfl, rfl⟩
  dsimp only
  split
  · exact pumpLink_frame _ _ s
  · exact ⟨rfl, rfl⟩
@[simp] theorem State.send_mem (m : Sent) (s : State) : (s.send m).mem = s.mem := (State.send_frame m s).1
@[simp] theorem State.send_stores (m : Sent) (s : State) : (s.send m).stores = s.stores := (State.send_frame m s).2

@[simp] theorem revokeLine_mem (l : Nat) (s : State) : (revokeLine l s).mem = s.mem := foldl_keeps State.mem _ (by intros; simp) _ _
@[simp] theorem revokeLine_stores (l : Nat) (s : State) : (revokeLine l s).stores = s.stores := foldl_keeps State.stores _ (by intros; simp) _ _

@[simp] theorem claim_mem (c a : Nat) (s : State) : (claim c a s).mem = s.mem := by unfold claim; split <;> simp
@[simp] theorem claim_stores (c a : Nat) (s : State) : (claim c a s).stores = s.stores := by unfold claim; split <;> simp

@[simp] theorem register_mem (g : Agent) (a : Nat) (s : State) : (register g a s).mem = s.mem := by
  unfold register; (repeat' split) <;> simp
@[simp] theorem register_stores (g : Agent) (a : Nat) (s : State) : (register g a s).stores = s.stores := by
  unfold register; (repeat' split) <;> simp

/-- The directory and the fan-outs do not touch memory or the stores of the step. -/
theorem clearSharers_frame (a : Nat) (v : BitVec 14) (s : State) : (clearSharers a v s).mem = s.mem ∧ (clearSharers a v s).stores = s.stores := ⟨rfl, rfl⟩
theorem collapseOne_frame (k : Nat) (s : State) : (collapseOne k s).mem = s.mem ∧ (collapseOne k s).stores = s.stores := by
  unfold collapseOne; split <;> exact ⟨rfl, rfl⟩
theorem wasted_frame (c : Word) (a : Nat) (s : State) : (wasted c a s).mem = s.mem ∧ (wasted c a s).stores = s.stores := by
  unfold wasted
  split
  · exact ⟨rfl, rfl⟩
  · split
    · exact ⟨rfl, rfl⟩
    · dsimp only
      split
      · exact ⟨(collapseOne_frame _ s).1, (collapseOne_frame _ s).2⟩
      · exact ⟨rfl, rfl⟩
theorem fanToDie_frame (a : Nat) (s : State) : (fanToDie a s).mem = s.mem ∧ (fanToDie a s).stores = s.stores := by
  unfold fanToDie
  split
  · dsimp only
    split
    · exact ⟨rfl, rfl⟩
    · exact wasted_frame _ _ _
  · exact ⟨rfl, rfl⟩
@[simp] theorem fanToDie_mem (a : Nat) (s : State) : (fanToDie a s).mem = s.mem := (fanToDie_frame a s).1
@[simp] theorem fanToDie_stores (a : Nat) (s : State) : (fanToDie a s).stores = s.stores := (fanToDie_frame a s).2

/-- L2 does not touch memory or the stores of the step. -/
theorem replaceWay_frame (v : L2Line) (s : State) : (replaceWay v s).mem = s.mem ∧ (replaceWay v s).stores = s.stores := by
  unfold replaceWay
  split
  · exact ⟨rfl, rfl⟩
  · split
    · simp
    · dsimp only
      split <;> simp
theorem useWay_frame (e : L2Line) (s : State) : (useWay e s).mem = s.mem ∧ (useWay e s).stores = s.stores := by
  unfold useWay
  split
  · exact ⟨rfl, rfl⟩
  · split
    · exact ⟨rfl, rfl⟩
    · split
      · exact replaceWay_frame _ s
      · exact ⟨rfl, rfl⟩
theorem useL2_frame (l : Nat) (d : Bool) (s : State) : (useL2 l d s).mem = s.mem ∧ (useL2 l d s).stores = s.stores := by
  unfold useL2; (repeat' split) <;> first | exact useWay_frame _ s | exact ⟨rfl, rfl⟩
@[simp] theorem useL2_mem (l : Nat) (d : Bool) (s : State) : (useL2 l d s).mem = s.mem := (useL2_frame l d s).1
@[simp] theorem useL2_stores (l : Nat) (d : Bool) (s : State) : (useL2 l d s).stores = s.stores := (useL2_frame l d s).2
@[simp] theorem useL2All_mem (ls : List Nat) (d : Bool) (s : State) : (useL2All ls d s).mem = s.mem := foldl_keeps State.mem _ (by intros; simp) _ _
@[simp] theorem useL2All_stores (ls : List Nat) (d : Bool) (s : State) : (useL2All ls d s).stores = s.stores :=
  foldl_keeps State.stores _ (by intros; simp) _ _

/-- What instruction fetch and read-only loads are told of a write is nothing else. -/
theorem noteWrite_frame (g : Agent) (a n : Nat) (s : State) : (noteWrite g a n s).mem = s.mem ∧ (noteWrite g a n s).stores = s.stores ∧
    (noteWrite g a n s).aliases = s.aliases ∧ (noteWrite g a n s).bands = s.bands := by
  have h : (showWrite a n s).mem = s.mem ∧ (showWrite a n s).stores = s.stores ∧ (showWrite a n s).aliases = s.aliases ∧
      (showWrite a n s).bands = s.bands := by unfold showWrite; split <;> exact ⟨rfl, rfl, rfl, rfl⟩
  cases g <;> first | exact ⟨rfl, rfl, rfl, rfl⟩ | exact h
@[simp] theorem noteWrite_mem (g : Agent) (a n : Nat) (s : State) : (noteWrite g a n s).mem = s.mem := (noteWrite_frame g a n s).1
@[simp] theorem hideStore_mem (a n : Nat) (s : State) : (hideStore a n s).mem = s.mem := rfl
theorem noteRo_frame (ws : List Nat) (s : State) : (noteRo ws s).mem = s.mem ∧ (noteRo ws s).stores = s.stores ∧
    (noteRo ws s).aliases = s.aliases ∧ (noteRo ws s).bands = s.bands := by unfold noteRo; split <;> exact ⟨rfl, rfl, rfl, rfl⟩
@[simp] theorem noteRo_mem (ws : List Nat) (s : State) : (noteRo ws s).mem = s.mem := (noteRo_frame ws s).1

@[simp] theorem sendWrite_mem (u pa : Nat) (bs : List Byte) (s : State) : (sendWrite u pa bs s).mem = s.mem := by
  unfold sendWrite; (repeat' split) <;> simp

@[simp] theorem copyBytes_mem (a b n : Nat) (s : State) : (copyBytes a b n s).mem = s.mem := by
  unfold copyBytes
  split
  · rfl
  · simp only [refuseWords_mem]
    exact foldl_keeps State.mem _ (by intros; simp) _ _
@[simp] theorem moveBytes_mem (a b n : Nat) (s : State) : (moveBytes a b n s).mem = s.mem := by simp [moveBytes]

@[simp] theorem materialiseBut_mem (a n : Nat) (e : Alias) (s : State) : (materialiseBut a n e s).mem = s.mem := by
  unfold materialiseBut; simp only []; split <;> simp
@[simp] theorem materialise_mem (e : Alias) (s : State) : (materialise e s).mem = s.mem := materialiseBut_mem 0 0 e s

@[simp] theorem settleAliasesFor_mem (a n l : Nat) (s : State) : (settleAliasesFor a n l s).mem = s.mem := by
  unfold settleAliasesFor
  simp only []
  rw [foldl_keeps State.mem, foldl_keeps State.mem] <;> intros <;> simp
@[simp] theorem settleAliases_mem (l : Nat) (s : State) : (settleAliases l s).mem = s.mem := settleAliasesFor_mem 0 0 l s

/-- A line that no entry covers or draws on has nothing to settle. -/
theorem settleAliasesFor_none (a n l : Nat) (s : State) (h : s.aliases = []) : settleAliasesFor a n l s = s := by
  unfold settleAliasesFor; simp [h]
theorem settleAliases_none (l : Nat) (s : State) (h : s.aliases = []) : settleAliases l s = s := settleAliasesFor_none 0 0 l s h

@[simp] theorem homeFetch_mem (g : Agent) (a n : Nat) (s : State) : (homeFetch g a n s).1.mem = s.mem := by
  have r : ∀ (ls : List Nat) (s : State), (ls.foldl (fun s l => roundLine l s) s).mem = s.mem :=
    fun ls s => foldl_keeps State.mem _ (by intros; simp) ls s
  have o : ∀ (g : Agent) (ws : List Nat) (s : State), (observe g ws s).mem = s.mem := fun _ _ _ => rfl
  unfold homeFetch
  simp only [o, useL2All_mem]
  split <;> simp only [r]

@[simp] theorem countReads_mem (g : Agent) (addrs : List Nat) (s : State) : (countReads g addrs s).mem = s.mem := by
  have m : ∀ (es : List Alias) (s : State), (es.foldl (fun s e => materialise e s) s).mem = s.mem :=
    fun es s => foldl_keeps State.mem _ (by intros; simp) es s
  unfold countReads
  cases g <;> simp only []
  all_goals (repeat' split) <;> simp only [m]

@[simp] theorem homeRead_mem (g : Agent) (a n : Nat) (s : State) : (homeRead g a n s).1.mem = s.mem := by
  simp [homeRead]

@[simp] theorem homeWrite_mem (g : Agent) (a : Nat) (bs : List Byte) (s : State) : (homeWrite g a bs s).mem = s.mem := by
  unfold homeWrite
  split
  · rfl
  · simp only [refuseWords_mem, State.poke_mem]
    show State.mem (List.foldl _ _ _) = _
    rw [foldl_keeps State.mem _ (by intros; simp), foldl_keeps State.mem _ (by intros; simp)]
    show State.mem (useL2All _ _ _) = _
    rw [useL2All_mem, foldl_keeps State.mem _ (by intros; simp), noteWrite_mem, noteRo_mem]

@[simp] theorem homeQuiet_mem (a : Nat) (bs : List Byte) (s : State) : (homeQuiet a bs s).mem = s.mem := by
  unfold homeQuiet
  split
  · rfl
  · simp only [refuseWords_mem, State.poke_mem]
    show State.mem (useL2All _ _ _) = _
    rw [useL2All_mem, foldl_keeps State.mem _ (by intros; simp), hideStore_mem, noteRo_mem]

/-- After a write at the home slice each of its bytes reads as written. -/
theorem homeWrite_byte (g : Agent) (a i : Nat) (bs : List Byte) (s : State) (h : i < bs.length) : (homeWrite g a bs s).byte (a + i) = bs[i] := by
  have : bs ≠ [] := by intro e; simp [e] at h
  unfold homeWrite
  rw [if_neg this]
  simp only [refuseWords_byte]
  exact State.byte_poke_in _ _ _ _ h

/-- With no alias and no side band, a write at the home slice changes the bytes written and no other. -/
theorem homeWrite_other (g : Agent) (a x : Nat) (bs : List Byte) (s : State) (ha : s.aliases = []) (hb : s.bands = [])
    (h : x < a ∨ a + bs.length ≤ x) : (homeWrite g a bs s).byte x = s.byte x := by
  unfold homeWrite
  split
  · rfl
  · simp only [refuseWords_byte]
    obtain ⟨rm, rs, ral, rba⟩ := noteRo_frame (wordsOf a bs.length) s
    obtain ⟨hm, hs, hal, hba⟩ := noteWrite_frame g a bs.length (noteRo (wordsOf a bs.length) s)
    have k : ∀ ls : List Nat, ls.foldl (fun s l => settleAliasesFor a bs.length l (roundLine l s))
        (noteWrite g a bs.length (noteRo (wordsOf a bs.length) s)) = noteWrite g a bs.length (noteRo (wordsOf a bs.length) s) := by
      intro ls
      induction ls with
      | nil => rfl
      | cons l t ih => rw [List.foldl_cons, roundLine_none _ _ (by simp [hba, rba, hb]), settleAliasesFor_none _ _ _ _ (hal.trans (ral.trans ha)), ih]
    simp only [k]
    rw [State.byte_poke _ _ _ _ h]
    show logRead _ _ _ = logRead _ _ _
    congr 1
    · show State.mem (List.foldl _ _ _) = _
      rw [foldl_keeps State.mem _ (by intros; simp), foldl_keeps State.mem _ (by intros; simp)]
      exact (useL2All_mem _ _ _).trans (hm.trans rm)
    · show State.stores (List.foldl _ _ _) = _
      rw [foldl_keeps State.stores _ (by intros; simp), foldl_keeps State.stores _ (by intros; simp)]
      exact (useL2All_stores _ _ _).trans (hs.trans rs)

end Sys2Proof.Machine
end

