-- ==== Sys2Proof/Laws/Issue.lean ====
section
/-! SUPPORT. What issue does: the one lemma that a proof about an instruction cites. -/

namespace Sys2Proof.Machine

theorem foldl_breach (g : Sig) (s : State) (l : List Pending) (h : ∀ p ∈ l, p.lanes &&& s.iss.run = 0) :
    l.foldl (fun m p => if p.dests.any fun r => (g.reads ++ g.writes ++ g.names).contains r then m ||| p.open_ s.iss.run else m) (0 : Mask) = 0 := by
  induction l with
  | nil => rfl
  | cons p t ih =>
    have hp : p.open_ s.iss.run = 0 := by simp [Pending.open_, h p (by simp)]
    have : ((if p.dests.any fun r => (g.reads ++ g.writes ++ g.names).contains r then (0 : Mask) ||| p.open_ s.iss.run else 0) : Mask) = 0 := by
      split <;> simp [hp]
    simp only [List.foldl_cons, this]
    exact ih fun q hq => h q (by simp [hq])

theorem breaching_ready (g : Sig) (s : State) (h : CanIssue s) : breaching g s = 0 := foldl_breach g s _ h.2.2.2.2

theorem bit_and (a b : Mask) (l : Fin 32) : bit (a &&& b) l = (bit a l && bit b l) := by simp [bit]

theorem bit_of_mem_lanesOf {m : Mask} {l : Fin 32} (h : l ∈ lanesOf m) : bit m l = true := by
  simp only [lanesOf, List.mem_filter] at h; exact h.2

theorem mustWait_ready (g : Sig) (s : State) (h : CanIssue s) (hf : g.fence = true → s.w.pending.all fun p => !p.ordered) :
    mustWait g s = false := by
  obtain ⟨-, -, -, -, hp⟩ := h
  have h1 : (s.w.pending.any fun p => p.used s.iss.run != 0) = false := by
    simp only [List.any_eq_false]
    intro p q
    simp [Pending.used, hp p q]
  have h2 : (s.w.pending.any fun p => p.touches s.iss.run) = false := by
    simp only [List.any_eq_false]
    intro p q
    simp [Pending.touches, hp p q]
  have h3 : ((lanesOf s.iss.run).any fun l => decide (16 ≤ (s.w.pending.filter fun p => bit p.lanes l).length)) = false := by
    simp only [List.any_eq_false]
    intro l hl
    have : (s.w.pending.filter fun p => bit p.lanes l) = [] := by
      simp only [List.filter_eq_nil_iff]
      intro p q
      have e := hp p q
      have b := bit_and p.lanes s.iss.run l
      rw [e, bit_of_mem_lanesOf hl] at b
      simpa [bit] using b.symm
    simp [this]
  have h4 : (g.fence && s.w.pending.any fun p => p.ordered) = false := by
    cases hg : g.fence with
    | false => rfl
    | true =>
      have := hf hg
      simp only [List.all_eq_true] at this
      simp only [Bool.true_and, List.any_eq_false]
      intro p q
      have := this p q
      simpa using this
  simp only [mustWait, h1, h2, h3, h4, Bool.and_false, Bool.or_false]

theorem advance_ready (g : Sig) (s : State) (h : CanIssue s) : advance g s.iss.run s = past g.perLane s := by
  obtain ⟨-, -, hr, -, hp⟩ := h
  have hm : (s.w.pending.map fun p => { p with issued := Lanes.ofFn fun l => if bit (s.iss.run &&& p.lanes) l then p.issued[l] + 1 else p.issued[l] }) = s.w.pending := by
    conv_rhs => rw [← List.map_id s.w.pending]
    apply List.map_congr_left
    intro p q
    have e : s.iss.run &&& p.lanes = 0 := by rw [BitVec.and_comm]; exact hp p q
    have : (Lanes.ofFn fun l => if bit (s.iss.run &&& p.lanes) l then p.issued[l] + 1 else p.issued[l]) = p.issued := by
      apply Vector.ext
      intro i hi
      rw [e]
      simp [bit]
    rw [this]; rfl
  unfold advance past
  rw [hr]
  simp only [State.modW, Wave.setPc, Wave.setGuard, pastWave]
  simp only [State.w] at hm ⊢
  cases hg : g.perLane
  · simp only [hm, Bool.false_eq_true, if_false]
  · simp only [hm, if_true]

theorem enabled_ready (g : Sig) (s : State) (h : CanIssue s) : enabledLanes g s.iss.run s = enabled g.perLane s := by
  obtain ⟨-, -, hr, -, -⟩ := h
  unfold enabledLanes enabled laneSet
  rw [hr]

/-- What issue does with a run that is ready, whose registers are within the allotment and whose instruction needs no privilege: the PCs advance and
the effect takes place in the enabled lanes. -/
theorem issue_ready (g : Sig) (body : Exec → State → State) (s : State) (h : CanIssue s) (hw : Within (g.reads ++ g.writes) s)
    (hf : g.fence = true → (s.w.pending.all fun p => !p.ordered) = true) (hc : clearOf g.waitsFor (~~~0#32) s = true)
    (hp : g.privileged = true → s.privileged = true) (hh : g.handlerOnly = true → s.inHandler = true)
    (hn : g.notInHandler = true → Outside s) :
    issue g body s = next (fun s => if enabled g.perLane s = 0 then past g.perLane s else body (execOf g.perLane s) (past g.perLane s)) s := by
  unfold issue
  have key : issueRun g body s = if enabled g.perLane s = 0 then past g.perLane s else body (execOf g.perLane s) (past g.perLane s) := by
    unfold issueRun
    rw [mustWait_ready g s h hf]
    have a1 : ((g.privileged && !s.privileged) || (g.handlerOnly && !s.inHandler)) = false := by
      cases h1 : g.privileged <;> cases h2 : g.handlerOnly <;> simp_all
    have a2 : ((g.reads ++ g.writes).any (beyond s.grp.allot)) = false := by
      simp only [List.any_eq_false]
      intro r hr
      simp [hw r hr]
    have a3 : (g.notInHandler && (s.iss.run &&& s.w.handlerLanes) != 0) = false := by
      cases h1 : g.notInHandler with
      | false => rfl
      | true => have := hn h1; simp_all [Outside]
    have a4 : ∀ r, park 0 r s = s := by intro r; simp [park, parkAt]
    have m : s.w.mode = .normal := h.1
    have m' : (past g.perLane s).w.mode = .normal := h.1
    have e : s.iss.run &&& ~~~(0 : Mask) = s.iss.run := by
      rw [show ~~~(0 : Mask) = BitVec.allOnes 32 from by decide, BitVec.and_allOnes]
    simp only [a1, a2, breaching_ready g s h, a4, hc, e, a3, advance_ready g s h, enabled_ready g s h, byMode, m', m, execOf, Bool.false_eq_true,
      if_false, ne_eq, not_true_eq_false, false_and, not_false_eq_true, reduceCtorEq, and_true, Bool.not_true]
  unfold next finish
  simp only [key]

end Sys2Proof.Machine
end

