-- ==== Sys2Proof/Laws/Registers.lean ====
section
/-! SUPPORT. Masks and registers: what a read gives after a write, and that a write in no lane changes nothing. -/

namespace Sys2Proof.Machine

/-! ## Masks -/

@[simp] theorem bit_zero (l : Fin 32) : bit 0#32 l = false := by simp [bit]

theorem bit_or (a b : Mask) (l : Fin 32) : bit (a ||| b) l = (bit a l || bit b l) := by simp [bit]

theorem bit_not (a : Mask) (l : Fin 32) : bit (~~~a) l = !bit a l := by simp [bit]

theorem bit_foldr (f : Fin 32 → Bool) (ls : List (Fin 32)) (l : Fin 32) :
    bit (ls.foldr (fun i m => if f i then m ||| BitVec.twoPow 32 i else m) 0) l = (decide (l ∈ ls) && f l) := by
  induction ls with
  | nil => simp
  | cons i t ih =>
    rw [List.foldr_cons]
    by_cases e : l = i
    · subst e
      cases h : f l
      · rw [if_neg (by simp), ih, h]; simp
      · rw [if_pos rfl, bit_or, ih]; simp [bit]
    · have : bit (BitVec.twoPow 32 i.val) l = false := by
        simp only [bit, BitVec.getLsbD_twoPow, Bool.and_eq_false_imp]
        intro; simp; omega
      split
      · rw [bit_or, ih, this]; simp [e]
      · rw [ih]; simp [e]

theorem mem_laneList (l : Fin 32) : l ∈ laneList := by revert l; decide

/-- Bit l of the mask of a test is the test of l. -/
@[simp] theorem bit_maskOf (f : Fin 32 → Bool) (l : Fin 32) : bit (maskOf f) l = f l := by
  rw [maskOf, bit_foldr]; simp [mem_laneList]

theorem mask_ext (a b : Mask) (h : ∀ l, bit a l = bit b l) : a = b := by
  apply BitVec.eq_of_getLsbD_eq
  intro i hi
  exact h ⟨i, hi⟩

@[simp] theorem maskOf_bit (m : Mask) : (maskOf fun l => bit m l) = m := mask_ext _ _ fun l => bit_maskOf _ l

@[simp] theorem mem_lanesOf (m : Mask) (l : Fin 32) : l ∈ lanesOf m ↔ bit m l = true := by
  simp [lanesOf, mem_laneList]

/-! ## Lane registers -/

/-- A lane register after a write: the new value in the lanes written, the old one elsewhere. -/
theorem Wave.rdV_wrV (w : Wave) (n r : Fin 128) (m : Mask) (f : Fin 32 → Word) (l : Fin 32) :
    (w.wrV n m f).rdV r l = if r = n ∧ bit m l = true then f l else w.rdV r l := by
  unfold Wave.rdV
  rw [Wave.wrV_v]
  by_cases e : r = n
  · subst e
    have : (w.v.set r (Lanes.ofFn fun l => if bit m l then f l else w.v[r][l]))[r] = Lanes.ofFn fun l => if bit m l then f l else w.v[r][l] := by
      simp
    rw [this, Lanes.ofFn_get]
    simp
  · have : (w.v.set n (Lanes.ofFn fun l => if bit m l then f l else w.v[n][l]))[r] = w.v[r] := by
      have : n.val ≠ r.val := fun h => e (Fin.ext h.symm)
      simp [this]
    rw [this]; simp [e]

/-- A write in no lane changes nothing. -/
@[simp] theorem Wave.wrV_zero (w : Wave) (n : Fin 128) (f : Fin 32 → Word) : w.wrV n 0#32 f = w := by
  unfold Wave.wrV
  have : (Lanes.ofFn fun l => if bit 0#32 l then f l else w.v[n][l]) = w.v[n] := by
    apply Vector.ext; intro i hi; simp
  rw [this]; simp

@[simp] theorem Wave.wrVV_zero (w : Wave) (n : Fin 128) (f : Fin 32 → DWord) : w.wrVV n 0#32 f = w := by simp [Wave.wrVV]

@[simp] theorem Wave.setState_zero (w : Wave) (x : LaneState) : w.setState 0#32 x = w := by
  unfold Wave.setState
  have : (Lanes.ofFn fun l => if bit 0#32 l then x else w.st[l]) = w.st := by apply Vector.ext; intro i hi; simp
  rw [this]

@[simp] theorem Wave.setPc_zero (w : Wave) (f : Fin 32 → BitVec 56) : w.setPc 0#32 f = w := by
  unfold Wave.setPc
  have : (Lanes.ofFn fun l => if bit 0#32 l then f l else w.pc[l]) = w.pc := by apply Vector.ext; intro i hi; simp
  rw [this]

@[simp] theorem Wave.setGuard_zero (w : Wave) (f : Fin 32 → Guard) : w.setGuard 0#32 f = w := by
  unfold Wave.setGuard
  have : (Lanes.ofFn fun l => if bit 0#32 l then f l else w.guard[l]) = w.guard := by apply Vector.ext; intro i hi; simp
  rw [this]

/-! ## Predicates and masks -/

/-- p7 reads 1 and is never written (R16). -/
@[simp] theorem Wave.rdP_seven (w : Wave) (l : Fin 32) : w.rdP 7 l = true := rfl
@[simp] theorem Wave.wrP_seven (w : Wave) (m : Mask) (f : Fin 32 → Bool) : w.wrP 7 m f = w := rfl

/-- A predicate after a write. -/
theorem Wave.rdP_wrP (w : Wave) (n r : Nat) (m : Mask) (f : Fin 32 → Bool) (l : Fin 32) :
    (w.wrP n m f).rdP r l = if r = n ∧ n < 7 ∧ bit m l = true then f l else w.rdP r l := by
  unfold Wave.rdP Wave.wrP
  by_cases hn : n < 7
  · simp only [hn, dite_true]
    by_cases hr : r < 7
    · simp only [hr, dite_true]
      by_cases e : r = n
      · subst e; simp
      · have : n ≠ r := fun h => e h.symm
        simp [e, this]
    · have : r ≠ n := by omega
      simp [hr, this]
  · by_cases hr : r < 7
    · simp [hn]
    · simp [hn]

@[simp] theorem Wave.wrP_zero (w : Wave) (n : Nat) (f : Fin 32 → Bool) : w.wrP n 0#32 f = w := by
  unfold Wave.wrP
  split
  · simp
  · rfl

/-- A mask register written whole keeps the lanes present (R138). -/
theorem Wave.rdK_wrK (w : Wave) (n r : Nat) (x : Mask) : (w.wrK n x).rdK r = if r = n ∧ n < 12 then x &&& w.present else w.rdK r := by
  unfold Wave.rdK Wave.wrK
  by_cases hn : n < 12
  · simp only [hn, dite_true]
    by_cases e : r = n
    · subst e; simp [hn]
    · have : n ≠ r := fun h => e h.symm
      by_cases hr : r < 12
      · simp [hr, e, this]
      · simp [hr, e]
  · simp [hn]

/-! ## Group registers -/

theorem State.gregs_wrS (s : State) (n : Fin 128) (x : Word) : (s.wrS n x).gregs = s.gregs.set n x := by
  unfold State.gregs State.wrS
  cases h : s.w.own with
  | none => simp [State.modG, State.w] at h ⊢; simp [h]
  | some r => simp [State.modW]

/-- A group register after a write. -/
theorem State.rdS_wrS (s : State) (n r : Fin 128) (x : Word) : (s.wrS n x).rdS r = if r = n then x else s.rdS r := by
  unfold State.rdS
  rw [State.gregs_wrS]
  by_cases e : r = n
  · subst e; simp
  · have : n.val ≠ r.val := fun h => e (Fin.ext h.symm)
    simp [e, this]

@[simp] theorem State.wrS_mem (s : State) (n : Fin 128) (x : Word) : (s.wrS n x).mem = s.mem := by unfold State.wrS; split <;> rfl
@[simp] theorem State.wrS_stores (s : State) (n : Fin 128) (x : Word) : (s.wrS n x).stores = s.stores := by unfold State.wrS; split <;> rfl
@[simp] theorem State.wrSS_mem (s : State) (n : Fin 128) (x : DWord) : (s.wrSS n x).mem = s.mem := by simp [State.wrSS]
@[simp] theorem State.wrSS_stores (s : State) (n : Fin 128) (x : DWord) : (s.wrSS n x).stores = s.stores := by simp [State.wrSS]

/-! ## Pairs -/

/-- A pair's words are its halves (R13). -/
@[simp] theorem loWord_pairOf (a b : Word) : loWord (pairOf a b) = a := by
  apply BitVec.eq_of_getLsbD_eq; intro i hi
  simp [loWord, pairOf, hi]

@[simp] theorem hiWord_pairOf (a b : Word) : hiWord (pairOf a b) = b := by
  apply BitVec.eq_of_getLsbD_eq; intro i hi
  simp [hiWord, pairOf, hi, show 32 + i < 64 by omega, show i < 64 by omega]

theorem pairOf_halves (x : DWord) : pairOf (loWord x) (hiWord x) = x := by
  apply BitVec.eq_of_getLsbD_eq; intro i hi
  simp only [pairOf, loWord, hiWord, BitVec.getLsbD_or, BitVec.getLsbD_shiftLeft, BitVec.getLsbD_setWidth, BitVec.getLsbD_ushiftRight]
  by_cases h : i < 32
  · simp [h, hi]
  · simp [h, hi, show i - 32 < 32 by omega, show i - 32 < 64 by omega, show 32 + (i - 32) = i by omega]

end Sys2Proof.Machine
end

