-- ==== Sys2Proof/Laws/Traps.lean ====
section
/-! SUPPORT. Parking, taking a trap and returning from one: what each can do, and that none touches memory. -/

namespace Sys2Proof.Machine

@[simp] theorem stopGroup_mem (n : Nat) (s : State) : (stopGroup n s).mem = s.mem := rfl
@[simp] theorem stopGroup_stores (n : Nat) (s : State) : (stopGroup n s).stores = s.stores := rfl

/-- Parking does one of four things: nothing for no lane; a midge context's lanes exit; lanes of the running handler end the group with STATUS 3;
else the lanes are parked with their records, in the sub-wave of their issue (R407, R279, R344). -/
theorem parkAt_cases (n : Nat) (m : Mask) (r : Fin 32 → TrapRecord) (s : State) :
    (m = 0 ∧ parkAt n m r s = s) ∨
    (m ≠ 0 ∧ s.w.mode = .midge ∧ parkAt n m r s = s.modW fun w => w.exit w.present) ∨
    (m ≠ 0 ∧ s.w.mode ≠ .midge ∧ m &&& s.w.handlerLanes ≠ 0 ∧ parkAt n m r s = stopGroup 3 s) ∨
    (m ≠ 0 ∧ s.w.mode ≠ .midge ∧ m &&& s.w.handlerLanes = 0 ∧
      parkAt n m r s = s.modW fun w => { (w.setState m .parked).setPc m fun l => entryPc (r l).entry with
        recs := Lanes.ofFn fun l => if bit m l then r l else w.recs[l], subs := queueLanes m n w.subs
        chosen := w.chosen.bind (Issue.without m) }) := by
  unfold parkAt
  by_cases h : m = 0
  · exact .inl ⟨h, if_pos h⟩
  · rw [if_neg h]
    by_cases h1 : s.w.mode = .midge
    · exact .inr (.inl ⟨h, h1, if_pos h1⟩)
    · rw [if_neg h1]
      by_cases h2 : m &&& s.w.handlerLanes = 0
      · exact .inr (.inr (.inr ⟨h, h1, h2, if_neg (not_not.mpr h2)⟩))
      · exact .inr (.inr (.inl ⟨h, h1, h2, if_pos h2⟩))

@[simp] theorem parkAt_zero (n : Nat) (r : Fin 32 → TrapRecord) (s : State) : parkAt n 0#32 r s = s := by simp [parkAt]
@[simp] theorem park_zero (r : Fin 32 → TrapRecord) (s : State) : park 0#32 r s = s := parkAt_zero _ _ _

@[simp] theorem parkAt_mem (n : Nat) (m : Mask) (r : Fin 32 → TrapRecord) (s : State) : (parkAt n m r s).mem = s.mem := by
  rcases parkAt_cases n m r s with ⟨-, h⟩ | ⟨-, -, h⟩ | ⟨-, -, -, h⟩ | ⟨-, -, -, h⟩ <;> rw [h] <;>
    simp only [State.modW_mem, stopGroup_mem]
@[simp] theorem park_mem (m : Mask) (r : Fin 32 → TrapRecord) (s : State) : (park m r s).mem = s.mem := parkAt_mem _ _ _ _

@[simp] theorem parkAt_stores (n : Nat) (m : Mask) (r : Fin 32 → TrapRecord) (s : State) : (parkAt n m r s).stores = s.stores := by
  rcases parkAt_cases n m r s with ⟨-, h⟩ | ⟨-, -, h⟩ | ⟨-, -, -, h⟩ | ⟨-, -, -, h⟩ <;> rw [h] <;>
    simp only [State.modW_stores, stopGroup_stores]
@[simp] theorem park_stores (m : Mask) (r : Fin 32 → TrapRecord) (s : State) : (park m r s).stores = s.stores := parkAt_stores _ _ _ _

@[simp] theorem parkRestart_mem (x : Exec) (fs : List LaneFault) (s : State) : (parkRestart x fs s).mem = s.mem := park_mem _ _ _
@[simp] theorem parkRestart_stores (x : Exec) (fs : List LaneFault) (s : State) : (parkRestart x fs s).stores = s.stores := park_stores _ _ _
@[simp] theorem parkAgain_mem (x : Exec) (fs : List LaneFault) (s : State) : (parkAgain x fs s).mem = s.mem := park_mem _ _ _
@[simp] theorem parkAgain_stores (x : Exec) (fs : List LaneFault) (s : State) : (parkAgain x fs s).stores = s.stores := park_stores _ _ _

theorem faultLanes_nil : faultLanes [] = 0 := by decide

/-- With no fault no lane parks. -/
@[simp] theorem parkRestart_nil (x : Exec) (s : State) : parkRestart x [] s = s := by rw [parkRestart, faultLanes_nil]; exact park_zero _ _
@[simp] theorem parkAgain_nil (x : Exec) (s : State) : parkAgain x [] s = s := by rw [parkAgain, faultLanes_nil]; exact park_zero _ _

@[simp] theorem decodeFault_mem (n : Nat) (a : DWord) (s : State) : (decodeFault n a s).mem = s.mem := by
  simp only [decodeFault]; split <;> simp only [park_mem, State.modW_mem]
@[simp] theorem decodeFault_stores (n : Nat) (a : DWord) (s : State) : (decodeFault n a s).stores = s.stores := by
  simp only [decodeFault]; split <;> simp only [park_stores, State.modW_stores]

/-- Taking a trap (R279, R410): nothing for no queued sub-wave; a sub-wave whose lanes are gone is dropped; with no handler the group ends with
STATUS 3; else the trap registers take the reported lane's record and the sub-wave's lanes stand at the handler. -/
theorem enterHandler_cases (s : State) :
    (s.w.subs = [] ∧ enterHandler s = s) ∨
    (∃ sub t, s.w.subs = sub :: t ∧ reported s.w sub.lanes = none ∧ enterHandler s = s.modW fun w => { w with subs := t }) ∨
    (∃ sub t l, s.w.subs = sub :: t ∧ reported s.w sub.lanes = some l ∧ s.handlerAddr = 0 ∧ enterHandler s = stopGroup 3 s) ∨
    (∃ sub t l, s.w.subs = sub :: t ∧ reported s.w sub.lanes = some l ∧ s.handlerAddr ≠ 0 ∧
      (enterHandler s).w.trapcause = s.w.recs[l].cause ∧ (enterHandler s).w.trapaddr = presented s.w sub.lanes l ∧
      (enterHandler s).w.trapmask = sub.lanes ∧ (enterHandler s).w.trappc = s.w.recs[l].pc ∧
      (enterHandler s).w.handler = some sub ∧ (enterHandler s).w.subs = t ∧
      (enterHandler s).w.yieldMask = s.w.yieldMask &&& ~~~sub.lanes ∧
      ∀ i, bit sub.lanes i = true → (enterHandler s).w.pc[i] = s.handlerAddr.setWidth 56 ∧ (enterHandler s).w.st[i] = .ready ∧
        (enterHandler s).w.guard[i] = Guard.none ∧ (enterHandler s).w.trapent[i] = s.w.recs[i].entry) := by
  unfold enterHandler
  cases h : s.w.subs with
  | nil => exact .inl ⟨rfl, rfl⟩
  | cons sub t =>
    cases k : reported s.w sub.lanes with
    | none => exact .inr (.inl ⟨sub, t, rfl, k, by simp only [k]⟩)
    | some l =>
      by_cases e : s.handlerAddr = 0
      · exact .inr (.inr (.inl ⟨sub, t, l, rfl, k, e, by simp only [k, e, if_true]⟩))
      · refine .inr (.inr (.inr ⟨sub, t, l, rfl, k, e, ?_⟩))
        simp only [k, e, if_false]
        refine ⟨rfl, rfl, rfl, rfl, rfl, rfl, rfl, fun i hi => ?_⟩
        simp only [State.w, State.modW_grp_wave, Wave.setPc, Wave.setState, Wave.setGuard, Lanes.ofFn_get, hi, if_true]
        exact ⟨trivial, trivial, trivial, trivial⟩

@[simp] theorem enterHandler_mem (s : State) : (enterHandler s).mem = s.mem := by
  unfold enterHandler
  split
  · rfl
  · split
    · rfl
    · split <;> rfl

@[simp] theorem enterHandler_stores (s : State) : (enterHandler s).stores = s.stores := by
  unfold enterHandler
  split
  · rfl
  · split
    · rfl
    · split <;> rfl

@[simp] theorem returnFromTrap_mem (s : State) : (returnFromTrap s).mem = s.mem := by
  unfold returnFromTrap
  split
  · rfl
  · refine (apply_ite State.mem _ _ _).trans ?_
    exact ite_self _

@[simp] theorem returnFromTrap_stores (s : State) : (returnFromTrap s).stores = s.stores := by
  unfold returnFromTrap
  split
  · rfl
  · refine (apply_ite State.stores _ _ _).trans ?_
    exact ite_self _

/-! ## Results -/

@[simp] theorem RegWrite.apply_mem (s : State) (r : RegWrite) : (r.apply s).mem = s.mem := by cases r <;> simp [RegWrite.apply]
@[simp] theorem RegWrite.apply_stores (s : State) (r : RegWrite) : (r.apply s).stores = s.stores := by cases r <;> simp [RegWrite.apply]

@[simp] theorem applyAll_nil (s : State) : applyAll s [] = s := rfl
@[simp] theorem applyAll_cons (s : State) (r : RegWrite) (rs : List RegWrite) : applyAll s (r :: rs) = applyAll (r.apply s) rs := rfl

@[simp] theorem applyAll_mem (rs : List RegWrite) (s : State) : (applyAll s rs).mem = s.mem := by
  induction rs generalizing s with
  | nil => rfl
  | cons r t ih => rw [applyAll_cons, ih, RegWrite.apply_mem]

@[simp] theorem applyAll_stores (rs : List RegWrite) (s : State) : (applyAll s rs).stores = s.stores := by
  induction rs generalizing s with
  | nil => rfl
  | cons r t ih => rw [applyAll_cons, ih, RegWrite.apply_stores]

/-- A delivery: with lookahead 0, and in a replay, the results stand and the faulting lanes park; else one more instruction is pending
(R56, R61). -/
theorem deliver_cases (g : Sig) (x : Exec) (ws : List RegWrite) (fs : List LaneFault) (s : State) :
    ((g.lookahead = 0 ∨ s.iss.replay.isSome = true) ∧
      deliver g x ws fs s = if notRestarted g fs then parkAgain x fs (applyAll s ws) else parkRestart x fs (applyAll s ws)) ∨
    (g.lookahead ≠ 0 ∧ s.iss.replay = none ∧ ∃ p : Pending, p.writes = ws ∧ p.faults = fs ∧ p.dests = g.writes ∧ p.lanes = x.run ∧
      p.look = g.lookahead ∧ p.restart = !notRestarted g fs ∧
      deliver g x ws fs s = (s.modW fun w => { w with pending := w.pending ++ [p] }).fresh) := by
  unfold deliver
  by_cases h : g.lookahead = 0 ∨ s.iss.replay.isSome = true
  · exact .inl ⟨h, if_pos h⟩
  · rw [if_neg h]
    rw [not_or] at h
    exact .inr ⟨h.1, by simpa using h.2, _, rfl, rfl, rfl, rfl, rfl, rfl, rfl⟩

@[simp] theorem deliver_mem (g : Sig) (x : Exec) (ws : List RegWrite) (fs : List LaneFault) (s : State) : (deliver g x ws fs s).mem = s.mem := by
  rcases deliver_cases g x ws fs s with ⟨-, h⟩ | ⟨-, -, p, -, -, -, -, -, -, h⟩ <;> rw [h]
  · split <;> simp
  · simp

@[simp] theorem deliver_stores (g : Sig) (x : Exec) (ws : List RegWrite) (fs : List LaneFault) (s : State) :
    (deliver g x ws fs s).stores = s.stores := by
  rcases deliver_cases g x ws fs s with ⟨-, h⟩ | ⟨-, -, p, -, -, -, -, -, -, h⟩ <;> rw [h]
  · split <;> simp
  · simp

/-- Completion touches no memory: what a pending store stored stands since its issue. -/
@[simp] theorem completePending_mem (p : Pending) (s : State) : (completePending p s).mem = s.mem := by
  unfold completePending
  simp only []
  split <;> simp only [parkAt_mem, State.modW_mem, applyAll_mem]

@[simp] theorem completePending_stores (p : Pending) (s : State) : (completePending p s).stores = s.stores := by
  unfold completePending
  simp only []
  split <;> simp only [parkAt_stores, State.modW_stores, applyAll_stores]

end Sys2Proof.Machine
end

