-- ==== Sys2Proof/Tests/Slice0.lean ====
section
/-! SUPPORT. The model's own tests: words written out from the encodings of the manual decode to what they stand for and ill-formed terms are refused; every
hypothesis of the statements is met by a state written here; single steps give the manual's example values. -/

set_option maxRecDepth 100000

namespace Sys2Proof.Tests
open Sys2Proof Sys2Proof.Machine Sys2Proof.Claims

/-! ## States to test on -/

/-- A page of 1 GiB at virtual and physical address 0, as a TLB and the L1 TLB of core 0 cache it for context 0. -/
def pageAt (u : TlbUnit) (w : Bool) : TlbEntry := ⟨u, 0, 0, 2 ^ 30, 0, w, true, false, none, (0, 2 ^ 30)⟩
def page (w : Bool) : TlbEntry := pageAt (.core 0) w

/-- A privileged wave of 32 lanes on core 0 of a running device, about to issue at 0x1000, with every register and its page at hand. -/
def placed : State := State.reset.withFetchWord 32 0
def ground : State := { placed with iss := { Issue.of (~~~0#32) 0x1000 4 none with id := 1 }, tlb := [page true] }

/-- The run of an issue, a lane register, a group register, a predicate. -/
def onRun (m : Mask) (s : State) : State := { s with iss := { s.iss with run := m } }
def setV (n : Fin 128) (f : Fin 32 → Word) (s : State) : State := s.modW fun w => { w with v := w.v.set n (Lanes.ofFn f) }
def setS (n : Fin 128) (x : Word) (s : State) : State := s.modG fun g => { g with s := g.s.set n x }
def setHandler (m : Mask) (s : State) : State := s.modW fun w => { w with handler := some ⟨m, 0⟩ }

theorem settled_of {s : State} (r : Reg) (f : Fin 32 → Prop) (h : s.w.pending = []) : Settled r f s := by
  intro p hp; rw [h] at hp; cases hp

theorem settledAll_of {s : State} (rs : List Reg) (h : s.w.pending = []) : SettledAll rs s := fun r _ => settled_of r _ h

theorem mappedAt_of {s : State} {va pa : Nat} (u : TlbUnit) (store : Bool) (n : Nat) (v : DWord) (e : TlbEntry) (hv : v.toNat = va)
    (he : cachedAt u s va = some e)
    (h : va < 2 ^ 56 ∧ va % n = 0 ∧ pa % n = 0 ∧ pa < 2 ^ 48 ∧ e.nc = false ∧ e.page % 2 ^ 19 = 0 ∧ e.size % 2 ^ 19 = 0 ∧ e.w = true ∧ pa = e.pa + (va - e.page)) : MappedAt u store n v pa s := by
  unfold MappedAt
  rw [hv, he]
  exact ⟨h.1, h.2.1, h.2.2.1, h.2.2.2.1, h.2.2.2.2.1, h.2.2.2.2.2.1, h.2.2.2.2.2.2.1, fun _ => h.2.2.2.2.2.2.2.1, h.2.2.2.2.2.2.2.2⟩

theorem mapped_of {s : State} {va pa : Nat} (store : Bool) (n : Nat) (v : DWord) (e : TlbEntry) (hv : v.toNat = va) (he : cached s va = some e)
    (h : va < 2 ^ 56 ∧ va % n = 0 ∧ pa % n = 0 ∧ pa < 2 ^ 48 ∧ e.nc = false ∧ e.page % 2 ^ 19 = 0 ∧ e.size % 2 ^ 19 = 0 ∧ e.w = true ∧ pa = e.pa + (va - e.page)) : Mapped store n v pa s :=
  mappedAt_of _ store n v e hv he h

/-! ## The hypotheses of the statements are met -/

theorem ground_canIssue : CanIssue ground := by decide

theorem witness_IntegerAndLogic : CanIssue ground ∧ Within [.v 0, .v 126, .v 127] ground ∧ (0 : BitVec 9).toNat < 32 ∧ (31 : BitVec 9).toNat < 32 ∧
    32 ≤ (32 : BitVec 9).toNat ∧ 32 ≤ (511 : BitVec 9).toNat := by decide
theorem witness_BitsAndMoves : CanIssue ground ∧ Within [.v 0, .v 1, .v 126, .v 127] ground := by decide
theorem witness_ComparesSelectsAndLookups : CanIssue ground ∧ (6 : Fin 8).val < 7 ∧ (124 : Fin 128).val % 4 = 0 ∧
    Within [.v 124, .v 125, .v 126, .v 127, .v 0] ground := by decide
theorem witness_ExchangeBetweenLanes : CanIssue ground ∧ Within [.v 126, .v 127, .v 0] ground ∧ ∀ r f, Settled r f ground :=
  ⟨by decide, by decide, fun r f => settled_of r f (by decide)⟩
theorem witness_MovesAndTests : CanIssue ground ∧ Within [.v 127, .v 0] ground ∧ (∀ r f, Settled r f ground) ∧ (31 : Fin 32).val < 32 ∧
    (6 : Fin 8).val < 7 := ⟨by decide, by decide, fun r f => settled_of r f (by decide), by decide, by decide⟩
theorem witness_FloatArithmeticAndSpecials : CanIssue ground ∧ Within [.v 0, .v 1, .v 127] ground ∧ isNaN 0x7F800001 = true ∧ isNaN 0xFFFFFFFF = true ∧
    isNaN (fadd .nearest 0x7F800000 0xFF800000) = true ∧ isNaN (fmul .nearest 0 0xFF800000) = true := by decide
theorem witness_RootsAndConversions : CanIssue ground ∧ Within [.v 0, .v 1, .v 127] ground ∧ laneSet ground ≠ 0 ∧
    (0x80000000 : Word) < 0x80000001 ∧ isNaN 0x80000001 = false ∧ (0x80000000 : Word) < 0xFF800000 ∧ isNaN 0xFF800000 = false ∧
    (0 : Word) &&& 0x7FFFFFFF ≤ 0x39800000 ∧ (0xB9800000 : Word) &&& 0x7FFFFFFF ≤ 0x39800000 ∧ (0xFF800000 : Word) &&& 0x7FFFFFFF = 0x7F800000 ∧
    (Instr.cvtf 124 126 1 0 0).check = none ∧ (Instr.cvti 124 126 0 6 0).check = none ∧
    Within (vSpan 126 2 ++ vSpan 124 1 ++ vSpan 120 4) ground := by decide
theorem witness_BlocksAndChecksums : CanIssue ground ∧ Within [.v 126, .v 127] ground ∧ (∀ r f, Settled r f ground) ∧ laneSet ground ≠ 0 ∧ Outside ground ∧
    (let s := ground.modW fun w => { w with h := w.h.set 3 0x100000000 }
     CanIssue s ∧ Outside s ∧ s.w.h[0] ^^^ s.w.h[3] &&& 0xFFFFFFFF = 0 ∧ s.w.h[0] ^^^ s.w.h[3] &&& 0xFFFFFFFF00000000 ≠ 0) :=
  ⟨by decide, by decide, fun r f => settled_of r f (by decide), by decide, by decide, by decide⟩

/-- The wave about to issue at the top of the address space. -/
def atTop : State := { ground with iss := { ground.iss with pc := 0xFFFFFFFFFFFFF8 } }
theorem witness_ControlFlow_targets : CanIssue atTop ∧ laneSet atTop ≠ 0 ∧
    (at_ atTop + (3 : BitVec 23).signExtend 64 * 2).toNat < 2 ^ 56 ∧ 2 ^ 56 ≤ (at_ atTop + (4 : BitVec 23).signExtend 64 * 2).toNat ∧
    Within [.v 126, .v 127] atTop ∧ (atTop.rdSS 0).toNat < 2 ^ 56 ∧ (atTop.rdSS 0).getLsbD 0 = false ∧
    ((setS 0 1 atTop).rdSS 0).getLsbD 0 = true ∧ 2 ^ 56 ≤ ((setS 1 0x1000000 atTop).rdSS 0).toNat := by decide
theorem witness_ControlFlow_exit : CanIssue (onRun 1 ground) ∧ Outside (onRun 1 ground) ∧ NoBarrier (onRun 1 ground) ∧ laneSet (onRun 1 ground) ≠ 0 ∧
    (let s := onRun 1 ground
     ((past true s).modW fun w => allReleased { w with
      st := Lanes.ofFn fun l => if bit (laneSet s) l then .exited else w.st[l]
      k := w.k.map fun x => x &&& ~~~laneSet s, yieldMask := w.yieldMask &&& ~~~laneSet s }).w.ended = false) := by
  refine ⟨by decide, by decide, ?_, by decide, by decide⟩
  unfold NoBarrier
  decide
theorem witness_ControlFlow_lastExit : CanIssue ground ∧ Outside ground ∧ NoBarrier ground ∧ ground.w.present &&& ~~~laneSet ground = 0 ∧ laneSet ground ≠ 0 := by
  refine ⟨by decide, by decide, ?_, by decide, by decide⟩
  unfold NoBarrier
  decide

theorem witness_YieldAndMaskRegisters : CanIssue ground ∧ Outside ground ∧ laneSet ground ≠ 0 ∧
    CanIssue (setHandler 0x80000000 ground) ∧ ground.iss.run &&& (setHandler 0x80000000 ground).w.handlerLanes ≠ 0 := by decide
theorem witness_GuardSleepAndHalt : CanIssue ground ∧ ground.privileged = true ∧
    (let s := ground.modW fun w => { w with hold := some (.sleep 0) }
     s.stores = [] ∧ s.w.hold = some (.sleep 0) ∧ 0 ≤ s.clock) ∧
    (let s := ground.modW fun w => { w with halted := 1 }
     s.stores = [] ∧ OnlyWave s ∧ s.w.halted ≠ 0) := by
  unfold OnlyWave
  decide

/-- A handler that runs in all lanes, with the entries of its lanes. -/
def inTrap (entry : DWord) (cause : Word) : State :=
  (setHandler (~~~0#32) ground).modW fun w => { w with trapmask := ~~~0#32, trapent := Lanes.all entry, trapcause := cause }
theorem witness_TrapsAndReturns : CanIssue ground ∧ Outside ground ∧
    CanIssue (inTrap 0x10 0x30) ∧ NoBarrier (inTrap 0x10 0x30) ∧ (inTrap 0x10 0x30).w.handler = some ⟨~~~0#32, 0⟩ ∧
    (inTrap 0x10 0x30).iss.run = ~~~0#32 ∧ (inTrap 0x10 0x30).w.trapmask = ~~~0#32 ∧
    (∀ l : Fin 32, entryState (inTrap 0x10 0x30).w.trapent[l] = 0 ∧ entryKidx (inTrap 0x10 0x30).w.trapent[l] = 0) ∧
    causeRestart (inTrap 0x10 0x30).w.trapcause = false ∧ causeRestart (inTrap 0x10 0x1011).w.trapcause = true ∧
    5 ≤ entryState (inTrap 0x500000000000000 0).w.trapent[(0 : Fin 32)] ∧ 12 ≤ entryKidx (inTrap 0xC000000000000000 0).w.trapent[(0 : Fin 32)] := by
  unfold NoBarrier
  decide

/-- A second wave of the group. -/
def mate : Wave := { ground.w with uid := 9, idx := 1 }
def twoWaves : State := ground.modG fun g => { g with waves := [mate] }
/-- Waves of it that have arrived at a barrier. -/
def atBar (g c : List Nat) : State := twoWaves.modG fun h => { h with barG := g, barC := c }
theorem witness_BarriersAndFences : CanIssue ground ∧ Outside ground ∧ ground.w.ended = false ∧ ground.grp.barC = [] ∧ ground.grp.barG = [] ∧
    ground.grp.arrivedC = false ∧ (∀ g ∈ ground.rest, g.atBarC = false) ∧ Alone ground ∧ ground.grp.epilogues = [] ∧ ground.w.pending = [] := by
  unfold Alone
  decide
theorem witness_BarriersAndFences_others : CanIssue twoWaves ∧ Alone twoWaves ∧ Outside twoWaves ∧ twoWaves.w.ended = false ∧
    (twoWaves.grp.waves.filter fun w => w.counts) = [mate] ∧ mate.uid ≠ twoWaves.w.uid ∧ mate.uid ∉ twoWaves.grp.barG ∧ mate.uid ∉ twoWaves.grp.barC ∧
    CanIssue (atBar [9] []) ∧ ((atBar [9] []).grp.waves.filter fun w => w.counts) = [mate] ∧ mate.uid ∈ (atBar [9] []).grp.barG ∧
    CanIssue (atBar [] [9]) ∧ Alone (atBar [] [9]) ∧ ((atBar [] [9]).grp.waves.filter fun w => w.counts) = [mate] ∧ mate.uid ∈ (atBar [] [9]).grp.barC := by
  unfold Alone
  decide
theorem witness_SpecialRegisters : CanIssue ground ∧ Within [.v 126, .v 127] ground ∧ (specials.map (·.1)).all (fun n => decide (n < 512)) = true ∧
    bit ground.iss.run 0 = true ∧ (∀ j, bit ground.iss.run j = true → 0 ≤ j) ∧ ground.privileged = true ∧
    CanIssue (setHandler (~~~0#32) ground) ∧ (setHandler (~~~0#32) ground).inHandler = true := by decide

/-- The same wave without privilege, and with the allotment of the prologue. -/
def user : State := ground.modG fun g => { g with sys := false }
def small : State := ground.modG fun g => { g with allot := 0x400410 }
theorem witness_PrivilegeAndAllotment : CanIssue user ∧ user.w.pending = [] ∧ user.privileged = false ∧ user.inHandler = false ∧ CanIssue small ∧
    vregsOf small.grp.allot = 16 ∧ vregsOf small.grp.allot ≤ (15 : Fin 128).val + 1 ∧ tilesOf small.grp.allot ≤ (0 : Fin 16).val := by decide

/-- A wave with one long-latency instruction pending for its lanes, whose window of 2 has been issued n times. -/
def waiting (n : Nat) : State := ground.modW fun w => { w with pending := [
  { id := 5, issue := 0, load := true, reach := [], space := 1, stores := false, pc := 0xFFC, lanes := ~~~0#32, enabled := ~~~0#32, issued := Lanes.all n, look := 2, dests := [.v 5], writes := [.v 5 (~~~0#32) (Lanes.all 7)]
    faults := [], ordered := true, restart := true, on := .time }] }
def thePending (n : Nat) : Pending := (waiting n).w.pending.headD
  { id := 0, issue := 0, load := false, reach := [], space := 0, stores := false, pc := 0, lanes := 0, enabled := 0, issued := Lanes.all 0, look := 0, dests := [], writes := [], faults := [], ordered := false, restart := false
    on := .time }
theorem witness_LookaheadWindows : (∀ n ∈ [0, 1, 2], let s := waiting n
      s.w.mode = .normal ∧ s.iss.run ≠ 0 ∧ s.iss.replay = none ∧ s.stores = [] ∧ s.w.pending = [thePending n] ∧ s.iss.run &&& ~~~(thePending n).lanes = 0) ∧
    (∀ l : Fin 32, (thePending 1).issued[l] < (thePending 1).look) ∧ Reg.v 5 ∈ (thePending 1).dests ∧ Reg.v 4 ∉ (thePending 1).dests ∧
    Within [.v 127, .v 5] (waiting 1) ∧ (thePending 2).look ≤ (thePending 2).issued[(0 : Fin 32)] := by decide

/-- Each lane's register 1 holds its number times n, the group's pair 0 an address. -/
def data (n : Nat) : State := setS 0 0x10000 (setV 1 (fun l => BitVec.ofNat 32 (n * l.val)) ground)
/-- The physical address that lane l of it then names. -/
def place (n : Nat) (l : Fin 32) : Nat := 0x10000 + n * l.val
theorem data_addr : ∀ l : Fin 32, (globalAddr (data 1) 1 0 l).toNat = place 1 l ∧ (globalAddr (data 8) 1 0 l).toNat = place 8 l ∧
    (globalAddr (data 128) 1 0 l).toNat = place 128 l := by decide
theorem data_cached : ∀ l : Fin 32, cached (data 1) (place 1 l) = some (page true) ∧ cached (data 8) (place 8 l) = some (page true) ∧
    cached (data 128) (place 128 l) = some (page true) := by decide
theorem data_mapped (store : Bool) (l : Fin 32) : Mapped store 1 (globalAddr (data 1) 1 0 l) (place 1 l) (data 1) ∧
    (∀ n ∈ [1, 2, 4, 8], Mapped store n (globalAddr (data 8) 1 0 l) (place 8 l) (data 8)) ∧
    ∀ n ∈ [32, 64, 128], Mapped store n (globalAddr (data 128) 1 0 l) (place 128 l) (data 128) := by
  have h : place 1 l < 2 ^ 30 ∧ place 8 l < 2 ^ 30 ∧ place 128 l < 2 ^ 30 := by unfold place; omega
  refine ⟨mapped_of _ _ _ _ (data_addr l).1 (data_cached l).1 ?_, fun n hn => mapped_of _ _ _ _ (data_addr l).2.1 (data_cached l).2.1 ?_,
    fun n hn => mapped_of _ _ _ _ (data_addr l).2.2 (data_cached l).2.2 ?_⟩
  · exact ⟨by omega, Nat.mod_one _, Nat.mod_one _, by omega, rfl, rfl, rfl, rfl, by show _ = 0 + (_ - 0); omega⟩
  · have hm : place 8 l % n = 0 := by revert n; unfold place; simp; omega
    exact ⟨by omega, hm, hm, by omega, rfl, rfl, rfl, rfl, by show _ = 0 + (_ - 0); omega⟩
  · have hm : place 128 l % n = 0 := by revert n; unfold place; simp; omega
    exact ⟨by omega, hm, hm, by omega, rfl, rfl, rfl, rfl, by show _ = 0 + (_ - 0); omega⟩
theorem data_ready (n : Nat) (h : n = 1 ∨ n = 8 ∨ n = 128) : CanIssue (data n) ∧ AtRest (data n) ∧ (data n).provs = [] ∧ CleanL1 (data n) ∧
    laneSet (data n) ≠ 0 ∧ Within (memRegs 126 1 true) (data n) ∧ (data n).roLog = [] ∧ (data n).w.pending = [] ∧
    (data n).grp.scratchPoison = [] ∧ (data n).grp.failedTags = [] := by rcases h with rfl | rfl | rfl <;> decide

theorem witness_LaneLoads : CanIssue (data 8) ∧ AtRest (data 8) ∧ (data 8).provs = [] ∧ CleanL1 (data 8) ∧ laneSet (data 8) ≠ 0 ∧
    Within (memRegs 126 1 true) (data 8) ∧ (∀ l, roPast (place 8 l) (data 8) = []) ∧
    ∀ l, ∀ n ∈ [1, 2, 4, 8], Mapped false n (globalAddr (data 8) 1 0 l) (place 8 l) (data 8) :=
  have h := data_ready 8 (by simp)
  ⟨h.1, h.2.1, h.2.2.1, h.2.2.2.1, h.2.2.2.2.1, h.2.2.2.2.2.1, by decide, fun l => (data_mapped false l).2.1⟩
theorem witness_StoresAndDrain : CanIssue (data 8) ∧ AtRest (data 8) ∧ (data 8).provs = [] ∧ laneSet (data 8) ≠ 0 ∧ Within (memRegs 126 1 true) (data 8) ∧
    (∀ l, ∀ n ∈ [1, 2, 4, 8], Mapped true n (globalAddr (data 8) 1 0 l) (place 8 l) (data 8)) ∧
    (let s := ground.modW fun w => { w with nt := [⟨2 ^ 48 - 4, [1, 2, 3, 4]⟩] }
     CanIssue s ∧ AtRest { s with grp := { s.grp with wave := { s.w with nt := [] } } } ∧ s.provs = [] ∧ ∀ e ∈ s.w.nt, e.addr + e.data.length ≤ 2 ^ 48) :=
  have h := data_ready 8 (by simp)
  ⟨h.1, h.2.1, h.2.2.1, h.2.2.2.2.1, h.2.2.2.2.2.1, fun l => (data_mapped true l).2.1, by decide⟩
theorem witness_MemoryReadsWhatWasWritten : Mem.wf [(1, 5), (3, 7)] = true ∧ (2 < 3 ∨ 3 + 1 ≤ 2) ∧ (4 < 3 ∨ 3 + 1 ≤ 4) := by decide

/-- Scratch addresses at the end of the allotment: lane l names the eight bytes that lie 8 * (32 - l) below it. -/
def scratchEnd : State := setV 1 (fun l => BitVec.ofNat 32 (64 * 4096 - 8 * (32 - l.val))) ground
theorem witness_GroupAndScratchAccesses : CanIssue scratchEnd ∧ FaultsOwn scratchEnd ∧ scratchEnd.grp.scratchPoison = [] ∧ laneSet scratchEnd ≠ 0 ∧
    Within (memRegs 126 1 true) scratchEnd ∧ (∀ l, ∀ n ∈ [1, 2, 4, 8], let off := (scratchEnd.rdS 2 + scratchEnd.w.rdV 1 l).toNat
      off % n = 0 ∧ off + n ≤ scratchOf scratchEnd.grp.allot * 4096) ∧
    (let s := setS 2 (BitVec.ofNat 32 (64 * 4096 - 4)) ground
     CanIssue s ∧ FaultsOwn s ∧ s.grp.scratchPoison = [] ∧ (s.rdS 2 + (0 : BitVec 9).signExtend 32).toNat % 4 = 0 ∧
       (s.rdS 2 + (0 : BitVec 9).signExtend 32).toNat + 4 ≤ scratchOf s.grp.allot * 4096) := by decide
theorem witness_GroupAndScratchAccesses_global : CanIssue (data 8) ∧ AtRest (data 8) ∧ (data 8).provs = [] ∧ CleanL1 (data 8) ∧
    ∀ st, ∀ n ∈ [4, 8], Mapped st n ((data 8).rdSS 0 + (8 : BitVec 9).signExtend 64) 0x10008 (data 8) := by
  have h := data_ready 8 (by simp)
  refine ⟨h.1, h.2.1, h.2.2.1, h.2.2.2.1, fun st n hn => mapped_of st n _ (page true) (va := 0x10008) (by decide) (by decide) ?_⟩
  simp only [List.mem_cons, List.not_mem_nil, or_false] at hn
  rcases hn with rfl | rfl <;> decide
theorem witness_AtomicsAndReductions : CanIssue (data 8) ∧ AtRest (data 8) ∧ (data 8).provs = [] ∧ CleanL1 (data 8) ∧ laneSet (data 8) ≠ 0 ∧
    (data 8).w.pending = [] ∧ Within (memRegs 126 1 true) (data 8) ∧
    (∀ l, ∀ n ∈ [1, 2, 4], Mapped true n (globalAddr (data 8) 1 0 l) (place 8 l) (data 8)) ∧
    (∀ l, (data 8).rdSS ⟨2 * (0 : Fin 8).val, by decide⟩ + ((data 8).w.rdV 1 l).signExtend 64 = globalAddr (data 8) 1 0 l) ∧
    CanIssue (onRun 1 (data 8)) ∧ AtRest (onRun 1 (data 8)) ∧ laneSet (onRun 1 (data 8)) = BitVec.twoPow 32 0 :=
  have h := data_ready 8 (by simp)
  ⟨h.1, h.2.1, h.2.2.1, h.2.2.2.1, h.2.2.2.2.1, h.2.2.2.2.2.2.2.1, h.2.2.2.2.2.1, fun l n hn => (data_mapped true l).2.1 n (by simp at hn ⊢; omega),
    fun l => rfl, by decide, by decide, by decide⟩
/-- A provisional cell of the wave at lane 0's word, one of another wave at lane 1's, and an observed one at lane 2's. -/
def withCells : State := { data 8 with provs := [⟨0x10000, 1, 2, 2, false⟩, ⟨0x10008, 3, 4, 7, false⟩, ⟨0x10010, 5, 6, 2, true⟩] }
theorem witness_TentativeStores : CanIssue (data 8) ∧ AtRest (data 8) ∧ laneSet (data 8) ≠ 0 ∧ (data 8).provs = [] ∧ Within (memRegs 126 1 false) (data 8) ∧
    (∀ st l, Mapped st 4 (globalAddr (data 8) 1 0 l) (place 8 l) (data 8)) ∧ Apart (place 8) (data 8) ∧ (6 : Fin 128).val < 7 ∧
    CanIssue withCells ∧ AtRest withCells ∧ (∀ st l, Mapped st 4 (globalAddr withCells 1 0 l) (place 8 l) withCells) ∧ Apart (place 8) withCells :=
  have h := data_ready 8 (by simp)
  ⟨h.1, h.2.1, h.2.2.2.2.1, h.2.2.1, by decide, fun st l => (data_mapped st l).2.1 4 (by simp), fun l j _ _ e => by unfold place at e; omega, by decide,
    by decide, by decide, fun st l => (data_mapped st l).2.1 4 (by simp), fun l j _ _ e => by unfold place at e; omega⟩
/-- The words that the lanes of data 8 name, poisoned. -/
def spoiled : State := { data 8 with poison := (List.range 32).map fun i => 0x10000 + 8 * i }
theorem witness_PoisonedWords : CanIssue spoiled ∧ AtRest { spoiled with poison := [] } ∧ spoiled.provs = [] ∧ (spoiled.core spoiled.grp.core).l1 = [] ∧
    spoiled.errlog.pos < 32 ∧ spoiled.errlog.slots.length = 32 ∧ (spoiled.errlog.slots.getD spoiled.errlog.pos (0, 0)).1.getLsbD 63 = false ∧
    laneSet spoiled ≠ 0 ∧ Within (memRegs 126 1 false) spoiled ∧ (∀ l, place 8 l ∈ spoiled.poison) ∧
    ∀ l, ∀ n ∈ [1, 4], Mapped true n (globalAddr spoiled 1 0 l) (place 8 l) spoiled := by
  refine ⟨by decide, by decide, by decide, by decide, by decide, by decide, by decide, by decide, by decide, fun l => ?_,
    fun l n hn => (data_mapped true l).2.1 n (by simp at hn ⊢; omega)⟩
  simp only [spoiled, place, List.mem_map, List.mem_range]
  exact ⟨l.val, l.isLt, rfl⟩
theorem witness_MemoryFaults : CanIssue (data 8) ∧ AtRest (data 8) ∧ (data 8).provs = [] ∧ laneSet (data 8) ≠ 0 ∧ Within (memRegs 126 1 false) (data 8) ∧
    (let s := setS 1 0x1000000 (data 8)
     CanIssue s ∧ AtRest s ∧ ∀ l, 2 ^ 56 ≤ (globalAddr s 1 0 l).toNat) ∧
    (let s := setS 0 0x10001 (data 8)
     CanIssue s ∧ AtRest s ∧ ∀ l, (globalAddr s 1 0 l).toNat % 2 ≠ 0 ∧ (globalAddr s 1 0 l).toNat % 4 ≠ 0) ∧
    ((data 8).ctx (data 8).grp.task.ctx).fqbase = 0 ∧ (∀ l, (globalAddr (data 8) 1 0 l).toNat < 2 ^ 56 ∧ (globalAddr (data 8) 1 0 l).toNat % 4 = 0) ∧
    (let s := { data 8 with tlb := [], ctxs := [(0, { Context.blank with state := .live, root := 0x900000 })] }
     CanIssue s ∧ AtRest s ∧ (s.ctx s.grp.task.ctx).fqbase = 0 ∧ (s.ctx s.grp.task.ctx).root.toNat < 2 ^ 47 ∧ ∀ l, Uncached s (globalAddr s 1 0 l).toNat ∧
       s.num ((s.ctx s.grp.task.ctx).root.toNat + 8 * ((globalAddr s 1 0 l).toNat / 2 ^ 43)) 8 % 2 = 0) ∧
    (let s := { data 8 with tlb := [page false] }
     CanIssue s ∧ AtRest s ∧ ∀ l, ∃ e, cached s (globalAddr s 1 0 l).toNat = some e ∧ e.w = false) :=
  have h := data_ready 8 (by simp)
  ⟨h.1, h.2.1, h.2.2.1, h.2.2.2.2.1, by decide, by decide, by decide, by decide, by decide, by unfold Uncached; decide, by decide, by decide,
    fun l => ⟨page false, by revert l; decide, rfl⟩⟩

theorem cached_page (s : State) (q : Nat) (w : Bool) (ht : s.tlb = [page w]) (hc : s.grp.core = 0) (hx : s.grp.task.ctx = 0) (hq : q < 2 ^ 30) :
    cached s q = some (page w) := by
  unfold cached cachedAt
  simp [ht, hc, hx, page, pageAt]
  omega

/-- The arguments of cp.sc: source 0, a scratch offset, a length and a tag. -/
def copyArgs (soff len tag : Nat) : State := setS 2 (BitVec.ofNat 32 soff) (setS 3 (BitVec.ofNat 32 (len + tag * 2 ^ 24)) ground)
/-- A core whose L1 holds one dirty word of a non-coherent page at 0x10000; pair 0 names it, register 2 counts n bytes. -/
def dirtyWord (n : Word) : State := setS 2 n { data 8 with cores := [(0, { Core.blank with l1 := [⟨0x100, true, [(0x10000, ⟨5, true, false, false, 9⟩)]⟩] })] }
theorem witness_CopiesTagsAndRanges : (∀ e ∈ [(0, 262144, 0), (262140, 4, 63)], let s := copyArgs e.1 e.2.1 e.2.2
      CanIssue s ∧ s.grp.failedTags = [] ∧ s.w.nt = [] ∧ s.grp.epilogues = [] ∧ (s.rdSS 0).toNat < 2 ^ 56 ∧ (s.rdSS 0).toNat % 4 = 0 ∧
      ((s.rdSS 2).extractLsb' 0 32).toNat % 4 = 0 ∧ ((s.rdSS 2).extractLsb' 32 24).toNat % 4 = 0 ∧ 4 ≤ ((s.rdSS 2).extractLsb' 32 24).toNat ∧
      ((s.rdSS 2).extractLsb' 32 24).toNat ≤ 262144 ∧ (s.rdSS 2).toNat < 2 ^ 62 ∧
      ((s.rdSS 2).extractLsb' 0 32).toNat + ((s.rdSS 2).extractLsb' 32 24).toNat ≤ scratchOf s.grp.allot * 4096 ∧
      s.grp.tags.getLsbD ((s.rdSS 2).extractLsb' 56 6).toNat = true ∧
      (s.grp.copies.countP fun c => c.tag == ((s.rdSS 2).extractLsb' 56 6).toNat) < 15) ∧
    (let s := setS 5 0x80000000 ground
     CanIssue s ∧ (s.rdSS 4 &&& s.grp.tags &&& (s.core s.grp.core).tagmap).getLsbD 63 = true ∧
       (∀ j < 63, (s.rdSS 4 &&& s.grp.tags &&& (s.core s.grp.core).tagmap).getLsbD j = false) ∧ s.rdSS 6 &&& s.grp.tags = 0) ∧
    (let s := dirtyWord 4
     CanIssue s ∧ AtRest s ∧ s.provs = [] ∧ (s.core s.grp.core).l1 = [⟨0x100, true, [(0x10000, ⟨5, true, false, false, 9⟩)]⟩] ∧
       (0x10000 : Nat) + 4 ≤ 0x10000 + (s.rdS 2).toNat ∧ (s.rdSS 0).toNat % 2 ^ 19 + (s.rdS 2).toNat ≤ 2 ^ 19 ∧ (s.rdSS 0).toNat + 2 ^ 19 ≤ 2 ^ 56 ∧
       cached s (s.rdSS 0).toNat = some (page true) ∧ (0x10000 : Nat) = (page true).pa + ((s.rdSS 0).toNat - (page true).page)) := by and_intros <;> decide
theorem witness_CopiesTagsAndRanges_prefetch : CanIssue (data 8) ∧ AtRest (data 8) ∧ Mapped false 1 ((data 8).rdSS 0) 0x10000 (data 8) ∧
    ((data 8).core (data 8).grp.core).l1 = [] ∧ ((data 8).core (data 8).grp.core).misses = [] :=
  ⟨by decide, by decide, mapped_of _ _ _ (page true) (va := 0x10000) (by decide) (by decide) (by decide), by decide, by decide⟩

/-- Range 0 holds a record of FP16 lines, range 1 one of FP8 lines that ends with the operand buffer, range 2 one with a scale register. -/
def ranged : State := ground.modG fun g => { g with
  ob := ((g.ob.set 0 0x8000).set 1 (BitVec.ofNat 64 (736 + 32 * 2 ^ 10 + 2 * 2 ^ 20 + 16 * 2 ^ 32))).set 2
    (BitVec.ofNat 64 (32 * 2 ^ 10 + 3 * 2 ^ 20 + 2 ^ 24 + 16 * 2 ^ 32 + 120 * 2 ^ 40)) }
/-- The same group as one of a cluster launch. -/
def clustered : State := ranged.modG fun g => { g with task := { g.task with clus := true } }
theorem witness_RangesAndMatrices_records : (∀ i : Fin 3, ValidRecord (16 * obufOf ranged.grp.allot) ranged.grp.ob[i]) ∧
    ¬ ValidRecord (16 * obufOf ranged.grp.allot) 0 ∧ ¬ ValidRecord (16 * obufOf ranged.grp.allot) (BitVec.ofNat 64 (737 + 32 * 2 ^ 10)) := by
  unfold ValidRecord
  decide
/-- The last offset of scratch that an FP16 operand with rows 4 bytes apart can start at. -/
def atEnd : State := setS 0 (BitVec.ofNat 32 (64 * 4096 - 31 * 4 - 64)) (setS 1 4 ranged)
theorem witness_RangesAndMatrices : CanIssue ranged ∧ ranged.grp.obufPoison = [] ∧ ranged.grp.scratchPoison = [] ∧ rLen ranged.grp.ob[(0 : Fin 8)] ≠ 0 ∧
    CanIssue atEnd ∧ (atEnd.rdS 0).toNat % 4 = 0 ∧ (atEnd.rdS 1).toNat % 4 = 0 ∧ (atEnd.rdS 0).toNat + 31 * (atEnd.rdS 1).toNat +
      chunks (rFmt atEnd.grp.ob[(0 : Fin 8)]) * lineBytes (rFmt atEnd.grp.ob[(0 : Fin 8)]) ≤ scratchOf atEnd.grp.allot * 4096 ∧
    CanIssue clustered ∧ (clustered.rdS 0).toNat = (0 : Fin 12).val * 2 ^ 24 + (0 : BitVec 18).toNat ∧ (clusterGroup (past false clustered) 0).isSome = true ∧
    ((setS 0 0xB000000 clustered).rdS 0).toNat = (11 : Fin 12).val * 2 ^ 24 + (0 : BitVec 18).toNat ∧
    clusterGroup (past false (setS 0 0xB000000 clustered)) 11 = none ∧ Within [.tile 15] ranged ∧ laneSet ranged ≠ 0 := by decide
theorem witness_RangesAndMatrices_pair : ¬ FormatPair (rFmt ranged.grp.ob[(0 : Fin 8)]) (rFmt ranged.grp.ob[(1 : Fin 8)]) := by
  unfold FormatPair
  decide
theorem witness_RangesAndMatrices_multiply : CanMultiply ranged ranged.grp.ob[(0 : Fin 8)] ranged.grp.ob[(0 : Fin 8)] 0 ∧
    CanMultiply ranged ranged.grp.ob[(1 : Fin 8)] ranged.grp.ob[(2 : Fin 8)] 112 := by
  refine ⟨⟨by decide, by decide, .inl (by decide), by decide, by decide, ?_, by decide⟩,
    ⟨by decide, by decide, .inr (.inr (.inl (by decide))), by decide, by decide, ?_, by decide⟩⟩
  · rintro r off (h | h) hs <;> (obtain ⟨rfl, -⟩ := Prod.mk.inj h; exact absurd hs (by decide))
  · rintro r off (h | h) hs <;> obtain ⟨rfl, rfl⟩ := Prod.mk.inj h
    · exact absurd hs (by decide)
    · exact ⟨by decide, settled_of _ _ (by decide)⟩

/-- An epilogue entry with a row of each lane still to store. -/
def entry : Epilogue where
  rows := Lanes.all (List.replicate 128 3)
  addrs := Lanes.ofFn fun l => BitVec.ofNat 64 (place 128 l)
  phys := Lanes.ofFn (place 128)
  nc := 0
  left := ~~~0#32
  wave := 2
  tile := 0
  form := 0
  pc := 0x1000
  parked := 0
def filling : State := ground.modG fun g => { g with epilogues := [entry] }
theorem witness_TilesAndEpilogue : CanIssue ground ∧ Within [.tile 15, .tile 0, .v 127] ground ∧
    (let s := setHandler (~~~0#32) ground
     CanIssue s ∧ lowest (laneSet s) = some 0 ∧ s.inHandler = true) ∧
    CanIssue (data 128) ∧ AtRest (data 128) ∧ laneSet (data 128) ≠ 0 ∧ Within [.tile 15, .v 1] (data 128) ∧
    (((data 128).groups.filter fun g => g.core == (data 128).grp.core).map fun g => g.epilogues.length).sum < 8 := by decide
theorem witness_TilesAndEpilogue_store : filling.stores = [] ∧ AtRest { filling with grp := { filling.grp with epilogues := [] } } ∧ filling.provs = [] ∧ filling.grp.epilogues = [entry] ∧
    (filling.ctx filling.grp.task.ctx).shadows = [] ∧ entry.parked = 0 ∧ entry.nc = 0 ∧
    ∀ l : Fin 32, bit entry.left l = true → entry.rows[l].length = 128 ∧ entry.phys[l] % 128 = 0 ∧ entry.phys[l] < 2 ^ 48 := by decide
theorem witness_TilesAndEpilogue_rows : ∀ (f : Fin 7) l, Mapped true (32 * outputSize f.val) (globalAddr (data 128) 1 0 l) (place 128 l) (data 128) := by
  intro f l
  refine (data_mapped true l).2.2 _ ?_
  revert f; decide
theorem witness_MergesAndSelections : CanIssue ground ∧ Within [.tile 15] ground ∧ AloneAtMerge ground ∧ Outside ground ∧
    Settled (.tile 15) (fun _ => True) ground ∧ (0 : Fin 16).val = ground.grp.core % 12 ∧ (11 : Fin 16).val ≠ ground.grp.core % 12 := by
  refine ⟨by decide, by decide, ?_, by decide, settled_of _ _ (by decide), by decide, by decide⟩
  unfold AloneAtMerge Alone OwnIdentities
  decide

/-- What a walker holds of sequence 0: its header (one layer, one head, 64 channels, FP16) and the entries of 32 blocks, each with a summary. -/
def walker : List CombLine := [⟨0, 0, 0, none, 0, 0, 0x300000, 0⟩, ⟨0, 0, 0, none, 1, 0x310000, 0x300008, 0⟩] ++
  (List.range 64).map fun i => ⟨0, 0, 0, some (i / 2), 2 + i % 2, BitVec.ofNat 64 (0x400005 + 0x1000 * i), 0x320000 + 8 * i, 0x330000⟩
def blockLine (i : Nat) : CombLine := ⟨0, 0, 0, some (i / 2), 2 + i % 2, BitVec.ofNat 64 (0x400005 + 0x1000 * i), 0x320000 + 8 * i, 0x330000⟩
def theHeader : CombHeader := headerOf 0 0x310000
/-- A wave whose register 2 of lane l is the handle of position l, with the handle of position 0 in group pair 4 (of values if kv is 1), n in group
register 6, and a query range in operand range 0. -/
def attending (kv n : Word) : State := (setS 4 (8 * kv) (setS 6 n (setV 2 (fun l => BitVec.ofNat 32 (16 * l.val)) ground))).modG fun g =>
  { g with ob := g.ob.set 0 (BitVec.ofNat 64 (64 * 2 ^ 10 + 32 * 2 ^ 32)) }
def combed (kv n : Word) : State := { attending kv n with combs := walker }
theorem walker_header : combFind (combed 0 32) 0 0 0 none 0 = some ⟨0, 0, 0, none, 0, 0, 0x300000, 0⟩ ∧
    combFind (combed 0 32) 0 0 0 none 1 = some ⟨0, 0, 0, none, 1, 0x310000, 0x300008, 0⟩ := by decide
theorem walker_blocks : ∀ i : Fin 64, combFind (combed 0 32) 0 0 0 (some (i.val / 2)) (2 + i.val % 2) = some (blockLine i) ∧ (blockLine i).val.toNat % 4 = 1 := by
  decide
theorem resident_of (kv n : Word) (i : Fin 64) (h : Handle) (hs : h.seq = 0) (hl : h.layer = 0) (hh : h.head = 0) (hb : h.pos / 32 = i.val / 2)
    (hk : h.kv = i.val % 2) : Resident (combed kv n) h theHeader (blockLine i) := by
  refine ⟨⟨0, 0, 0, none, 0, 0, 0x300000, 0⟩, ⟨0, 0, 0, none, 1, 0x310000, 0x300008, 0⟩, ?_, ?_, rfl, by rw [hl]; decide, by rw [hh]; decide, ?_, (walker_blocks i).2⟩
  · rw [hs]; exact walker_header.1
  · rw [hs]; exact walker_header.2
  · rw [hs, hl, hh, hb, hk]; exact (walker_blocks i).1
theorem combed_ready (kv n : Word) (h : kv = 0 ∨ kv = 1) (hn : n = 0 ∨ n = 1 ∨ n = 32 ∨ n = 33) : CanIssue (combed kv n) ∧ AtRest (combed kv n) ∧
    (combed kv n).provs = [] ∧ CleanL1 (combed kv n) ∧ laneSet (combed kv n) ≠ 0 ∧ Within [.v 127, .v 2, .v 3, .tile 15, .tile 0] (combed kv n) ∧
    (combed kv n).w.pending = [] ∧ (combed kv n).grp.epilogues = [] ∧ (combed kv n).rdS 6 = n ∧ handleOf ((combed kv n).rdSS 4) = ⟨0, 0, 0, 0, kv.toNat, 0⟩ := by
  rcases h with rfl | rfl <;> rcases hn with rfl | rfl | rfl | rfl <;> decide
theorem combed_lanes : ∀ l : Fin 32, handleOf ((combed 0 32).w.rdVV 2 l) = ⟨0, 0, 0, l.val, 0, 0⟩ := by decide
theorem witness_CombAccesses : CanIssue (combed 0 32) ∧ AtRest (combed 0 32) ∧ (combed 0 32).provs = [] ∧ CleanL1 (combed 0 32) ∧ laneSet (combed 0 32) ≠ 0 ∧
    Within [.v 127, .v 2, .v 3] (combed 0 32) ∧ SettledAll [.v 127, .v 2, .v 3, .s 7] (combed 0 32) ∧ (combed 0 32).grp.epilogues = [] ∧
    (∀ l, Resident (combed 0 32) (handleOf ((combed 0 32).w.rdVV 2 l)) theHeader (blockLine 0)) ∧ 4 * 3 < theHeader.e8 ∧
    (∀ l : Fin 32, positionAt (handleOf ((combed 0 32).w.rdVV 2 l)) theHeader (blockLine 0) = 0x400000 + 128 * l.val) ∧ (blockLine 0).sums ≠ 0 := by
  have h := combed_ready 0 32 (by simp) (by simp)
  refine ⟨h.1, h.2.1, h.2.2.1, h.2.2.2.1, h.2.2.2.2.1, by decide, settledAll_of _ h.2.2.2.2.2.2.1, h.2.2.2.2.2.2.2.1,
    fun l => ?_, by decide, by decide, by decide⟩
  rw [combed_lanes]; exact resident_of 0 32 0 _ rfl rfl rfl (by show l.val / 32 = 0; omega) rfl
theorem witness_AttentionAndBounds (kv : Word) (hk : kv = 0 ∨ kv = 1) : CanIssue (combed kv 32) ∧ AtRest (combed kv 32) ∧ (combed kv 32).provs = [] ∧
    CleanL1 (combed kv 32) ∧ (combed kv 32).grp.obufPoison = [] ∧
    ((combed kv 32).rdS (sField 6)).toNat = 32 ∧ (handleOf ((combed kv 32).rdSS (dField 2))).kv = kv.toNat ∧
    (handleOf ((combed kv 32).rdSS (dField 2))).egrp = 0 ∧
    (∀ j : Fin 32, Resident (combed kv 32) { handleOf ((combed kv 32).rdSS (dField 2)) with pos := (0 + j.val) % 2 ^ 24 } theHeader
      (blockLine kv.toNat)) ∧ QueryRange (combed kv 32).grp.ob[(0 : Fin 8)] theHeader ∧ (∀ t, startOf (combed kv 32).w.tiles[(t : Fin 16)] 0 32 ≤ 32) ∧
    (∀ rs, SettledAll rs (combed kv 32)) ∧ Within [.tile 15, .tile 0] (combed kv 32) := by
  have h := combed_ready kv 32 hk (by simp)
  have hh : handleOf ((combed kv 32).rdSS (dField 2)) = ⟨0, 0, 0, 0, kv.toNat, 0⟩ := h.2.2.2.2.2.2.2.2.2
  refine ⟨h.1, h.2.1, h.2.2.1, h.2.2.2.1, rfl, ?_, by rw [hh], by rw [hh], fun j => ?_, ?_, ?_, fun rs => settledAll_of rs h.2.2.2.2.2.2.1, ?_⟩
  · rw [show sField 6 = 6 from rfl, h.2.2.2.2.2.2.2.2.1]; rfl
  · rw [hh]
    rcases hk with rfl | rfl
    · exact resident_of 0 32 0 _ rfl rfl rfl (by show (0 + j.val) % 2 ^ 24 / 32 = 0; omega) rfl
    · exact resident_of 1 32 1 _ rfl rfl rfl (by show (0 + j.val) % 2 ^ 24 / 32 = 0; omega) rfl
  · unfold QueryRange; rcases hk with rfl | rfl <;> decide
  · rcases hk with rfl | rfl <;> decide
  · rcases hk with rfl | rfl <;> decide
theorem witness_AttentionAndBounds_blocks (n : Word) (hn : n = 0 ∨ n = 1 ∨ n = 32 ∨ n = 33) : CanIssue (combed 0 n) ∧ AtRest (combed 0 n) ∧
    (combed 0 n).provs = [] ∧ CleanL1 (combed 0 n) ∧ (combed 0 n).grp.obufPoison = [] ∧ (combed 0 n).rdS (sField 6) = n ∧ (handleOf ((combed 0 n).rdSS (dField 2))).pos % 32 = 0 ∧
    (∀ b : Fin 32, Resident (combed 0 n) { handleOf ((combed 0 n).rdSS (dField 2)) with pos := (0 + 32 * b.val) % 2 ^ 24 } theHeader
      (blockLine (2 * b.val))) ∧ ∀ b : Fin 32, (blockLine (2 * b.val)).sums ≠ 0 ∧ (blockLine (2 * b.val)).val.getLsbD 2 = true := by
  have h := combed_ready 0 n (by simp) hn
  have hh : handleOf ((combed 0 n).rdSS (dField 2)) = ⟨0, 0, 0, 0, 0, 0⟩ := h.2.2.2.2.2.2.2.2.2
  refine ⟨h.1, h.2.1, h.2.2.1, h.2.2.2.1, rfl, h.2.2.2.2.2.2.2.2.1, by rw [hh]; rfl, fun b => ?_, by decide⟩
  rw [hh]
  exact resident_of 0 n ⟨2 * b.val, by omega⟩ _ rfl rfl rfl (by show (0 + 32 * b.val) % 2 ^ 24 / 32 = 2 * b.val / 2; omega)
    (by show 0 = 2 * b.val % 2; omega)

/-- Group pairs 0 and 2 name a destination and a source of n bytes, group register 4 the count n; pair 6 names a layout descriptor of one row of 32 bytes. -/
def copying (n : Word) : State := setS 6 0x30000 (setS 4 n (setS 2 0x20040 (setS 0 0x10000
  { ground with mem := ground.mem.writes 0x30000 (leBytes 64 (oneRow 32)), tlb := [page true, pageAt (.engine 0 1) true] })))
theorem witness_AliasesAndShadows_copies : (∀ n ∈ [4, 32, 256], let s := copying (BitVec.ofNat 32 n)
      CanIssue s ∧ AtRest s ∧ s.provs = [] ∧ n % 4 = 0 ∧ (0x10000 : Nat) % 256 + n ≤ 256 ∧ (s.rdSS 0).toNat % 256 = 0x10000 % 256 ∧
      (s.rdSS 2).toNat % 2 ^ 19 + n ≤ 2 ^ 19 ∧ 0x10000 + n ≤ 0x20040 ∧ 0x20040 + n ≤ 2 ^ 48 ∧ (s.rdS (sField 4)).toNat = n ∧ s.w.pending = []) ∧
    (let s := copying 32
     CleanL1 s ∧ (s.rdSS 0).toNat % 32 = 0 ∧ (s.rdSS 2).toNat % 32 = 0 ∧ s.num 0x30000 64 = oneRow 32 ∧ s.rdSS (sField 6) = 0x30000) ∧
    ((copying 32).ctx (copying 32).grp.task.ctx).quota ≠ 0 ∧
    (∀ n ∈ [4, 32, 256], NoAliasWalk (copying (BitVec.ofNat 32 n)) ∧ (entriesOf 0x10000 (copying (BitVec.ofNat 32 n))).length < 256) := by
  unfold NoAliasWalk
  and_intros <;> decide
/-- The same copy beside an entry that it touches nowhere, in a context that has used up its quota. -/
def crowded : State := { (copying 32).modCtx 0 (fun c => { c with quota := 1 }) with aliases := [⟨0, false, 0x50000, 256, 0x60000, 0, 0⟩] }
theorem witness_AliasesAndShadows_quota : CanIssue crowded ∧ AtRest { crowded with aliases := [] } ∧ crowded.provs = [] ∧ NoAliasWalk crowded ∧
    (crowded.ctx crowded.grp.task.ctx).quota ≤ liveEntries crowded ∧ (entriesOf 0x10000 crowded).length < 256 ∧
    (∀ e ∈ crowded.aliases, Apart2 e.dst e.len 0x10000 32 ∧ Apart2 e.src e.len 0x10000 32 ∧ Apart2 e.dst e.len 0x20040 32 ∧ Apart2 e.dst e.len 0x30000 64) := by
  unfold NoAliasWalk Apart2
  and_intros <;> decide
theorem witness_AliasesAndShadows_pages : MappedAt (.engine 0 1) true 4 ((copying 32).rdSS 0) 0x10000 (copying 32) ∧
    MappedAt (.engine 0 1) false 4 ((copying 32).rdSS 2) 0x20040 (copying 32) ∧ Mapped false 64 ((copying 32).rdSS (sField 6)) 0x30000 (copying 32) :=
  ⟨mappedAt_of _ _ _ _ (pageAt (.engine 0 1) true) (va := 0x10000) (by decide) (by decide) (by decide),
    mappedAt_of _ _ _ _ (pageAt (.engine 0 1) true) (va := 0x20040) (by decide) (by decide) (by decide),
    mapped_of _ _ _ (page true) (va := 0x30000) (by decide) (by decide) (by decide)⟩

/-- Group pair 0 names 256 bytes (register 2) at 0x10000; the context has a shadowed buffer there, or none, or one that ends where it begins. -/
def publishing (l : List Shadow) : State := (setS 2 256 (setS 0 0x10000 ground)).modCtx 0 fun c => { c with shadows := l }
theorem witness_AliasesAndShadows : (∀ l ∈ [[], [⟨0xFF00, 256, []⟩, ⟨0x10100, 256, []⟩]], let s := publishing l
      CanIssue s ∧ AtRest s ∧ s.provs = [] ∧ s.fabrics = [] ∧ s.w.pending = [] ∧ (s.rdSS 0).toNat = 0x10000 ∧ (s.rdS 2).toNat = 256 ∧
      (shadowsOf s).length < 64 ∧ (∀ c ∈ shadowsOf s, c.base + c.len ≤ 0x10000 ∨ 0x10000 + 256 ≤ c.base) ∧ ∀ c ∈ shadowsOf s, c.base ≠ 0x10000) ∧
    (let s := publishing [⟨0x10000, 256, [(0x10000, 1), (0x100FF, 2)]⟩]
     CanIssue s ∧ AtRest s ∧ s.fabrics = [] ∧
       (shadowsOf s).find? (fun c => c.base == 0x10000) = some ⟨0x10000, 256, [(0x10000, 1), (0x100FF, 2)]⟩) := by and_intros <;> decide
theorem witness_AliasesAndShadows_open : ∀ q, 0x10000 ≤ q → q < 0x10000 + 256 → ∃ e, cached (publishing []) q = some e ∧ e.nc = false :=
  fun q _ h => ⟨page true, cached_page _ q true (by decide) (by decide) (by decide) (by omega), rfl⟩
/-- The pages of a TLB that maps address 0 and up to frames of the same numbers. -/
theorem paged_of (s : State) (u : TlbUnit) (store : Bool) (lo n : Nat) (h : ∀ q < 2 ^ 30, cachedAt u s q = some (pageAt u true)) (hn : lo + n ≤ 2 ^ 30) :
    Paged u store lo n id s := by
  intro q _ hq
  refine ⟨by show q / 2 ^ 19 < 2 ^ 29; omega, mappedAt_of u store 1 _ (pageAt u true) (va := q) ?_ (h q (by omega)) ?_⟩
  · rw [BitVec.toNat_ofNat]; exact Nat.mod_eq_of_lt (by omega)
  · refine ⟨by omega, Nat.mod_one _, Nat.mod_one _, ?_, rfl, rfl, ?_⟩
    · show q / 2 ^ 19 * 2 ^ 19 + q % 2 ^ 19 < 2 ^ 48; omega
    · exact ⟨by show 2 ^ 30 % 2 ^ 19 = 0; decide, rfl, by show q / 2 ^ 19 * 2 ^ 19 + q % 2 ^ 19 = 0 + (q - 0); omega⟩
theorem witness_AliasesAndShadows_pub : (let s := publishing [⟨0x10000, 256, [(0x10000, 1), (0x100FF, 2)]⟩]
     Paged (.core s.grp.core) true 0x10000 256 id s ∧ [((0x10000, 1) : Nat × Byte), (0x100FF, 2)].Pairwise (fun x y => x.1 < y.1) ∧
       ∀ w ∈ s.grp.all, (∀ g ∈ s.gathers, g.wave ≠ w.uid) ∧ ∀ f ∈ s.fabrics, f.wave ≠ w.uid) :=
  ⟨paged_of _ _ _ _ _ (fun q hq => cached_page _ q true (by decide) (by decide) (by decide) hq) (by decide), by decide, by decide⟩
/-- The copies that complete for every length: the operands of 256 bytes above, and a layout of one row of 32. -/
theorem copying_engine (n : Word) (q : Nat) (h : q < 2 ^ 30) : cachedAt (.engine 0 1) (copying n) q = some (pageAt (.engine 0 1) true) := by
  show List.find? _ [page true, pageAt (.engine 0 1) true] = _
  have h1 : (0 : Nat) ≤ q := by omega
  simp [page, pageAt]
  exact ⟨rfl, by omega⟩
theorem witness_AliasesAndShadows_complete : CanIssue (copying 256) ∧ NoAliasWalk (copying 256) ∧ AtRest (copying 256) ∧ (copying 256).provs = [] ∧ (copying 256).w.pending = [] ∧
    Paged (.engine 0 1) true 0x10000 256 id (copying 256) ∧ Paged (.engine 0 1) false 0x20040 256 id (copying 256) ∧ CleanL1 (copying 256) ∧
    (∃ x, layoutOf ((copying 256).num 0x30000 64) = some x ∧ x.size = 32 ∧ x.low = 0 ∧ x.high = 32) :=
  ⟨by decide, by unfold NoAliasWalk; decide, by decide, by decide, by decide, paged_of _ _ _ _ _ (copying_engine 256) (by decide), paged_of _ _ _ _ _ (copying_engine 256) (by decide),
    by decide, (layoutOf ((copying 256).num 0x30000 64)).get (by decide), by decide, by decide, by decide, by decide⟩

/-- Queue register 3 bound to a port with n completion words held. -/
def queued (port n : Nat) : State := ground.modW fun w => { w with q := w.q.set 3 ⟨port, [], List.replicate n 9, 0, 1⟩ }
theorem witness_QueueRegisters : (∀ e ∈ [(1, 32), (1, 31), (0, 0)], CanIssue (queued e.1 e.2) ∧ Within [.v 127] (queued e.1 e.2) ∧
      laneSet (queued e.1 e.2) ≠ 0 ∧ (queued e.1 e.2).w.q[3].port = e.1 ∧ (queued e.1 e.2).w.pending = []) ∧
    (lanesOf (laneSet (queued 1 32))).length ≤ (queued 1 32).w.q[3].done.length ∧ (queued 1 31).w.q[3].done.length < (lanesOf (laneSet (queued 1 31))).length := by
  decide
theorem witness_QueueRegisters_room : Room 3 (lanesOf (laneSet (queued 1 0))).length (queued 1 0) ∧ FirstPush (queued 1 0) ∧
    (queued 1 0).w.q[3].partials.length < 4 := by
  unfold Room FirstPush
  decide

/-- A gather command of every bit, and a command block of a kind in memory at pair 8. -/
def gathering : State := setS 8 0xFFFFFFFF (queued 1 0)
def blockOf (kind : Nat) : State := setS 8 0x10000 { queued 2 0 with mem := ground.mem.writes 0x10000 ([BitVec.ofNat 8 kind, 7, 0, 0, 1] ++ List.replicate 59 0) }
theorem witness_GatherAndFabricInstructions : CanIssue gathering ∧ gathering.w.q[3].port = 1 ∧ gathering.w.pending = [] ∧
    (lanesOf (gathering.rdS (sField 8))).length = 32 ∧
    (∀ k ∈ [1, 2, 3], CanIssue (blockOf k) ∧ AtRest (blockOf k) ∧ (blockOf k).provs = [] ∧ CleanL1 (blockOf k) ∧ (blockOf k).w.pending = [] ∧
      (blockOf k).fabrics = [] ∧ (blockOf k).fabIn = [] ∧ (blockOf k).ringIn = [] ∧ (blockOf k).w.q[3].port = 2 ∧ (blockOf k).w.q[3].partials = [] ∧
      blockOk k ((blockOf k).mem.bytes 0x10000 64) = true ∧ blockOk (k + 1) ((blockOf k).mem.bytes 0x10000 64) = false) := by
  refine ⟨by decide, by decide, by decide, by decide, fun k hk => ?_⟩
  simp only [List.mem_cons, List.not_mem_nil, or_false] at hk
  rcases hk with rfl | rfl | rfl <;> and_intros <;> decide
theorem witness_GatherAndFabricInstructions_room : Room 3 (4 * (lanesOf (gathering.rdS (sField 8))).length) gathering ∧
    FirstPush gathering ∧ FirstPush (blockOf 2) ∧ gathering.w.q[3].partials.length < 4 ∧
    Mapped false 64 ((blockOf 2).rdSS (dField 4)) 0x10000 (blockOf 2) := by
  refine ⟨?_, ?_, ?_, by decide, mapped_of _ _ _ (page true) (va := 0x10000) (by decide) (by decide) (by decide)⟩
  · unfold Room; decide
  · unfold FirstPush; decide
  · unfold FirstPush; decide

/-- A gather command of the wave's queue register 3 from one handle to another, beside what the walker holds. -/
def gathered (src dst : DWord) : State := { queued 1 0 with combs := walker, gathers := [⟨0, 2, 3, 1, 0, src, dst⟩], frameTable := 0x40000000 }
/-- A fabric command of its queue register that is done. -/
def done : Fabric := ⟨5, 0, 2, 3, 1, 0, none, 0x10000, List.replicate 64 0, true, [], [], [], 0, true, 0, false, none⟩
theorem witness_EnginesAndCompletions : MemOk (gathered 0x10 0x200) ∧ (gathered 0x10 0x200).w.q[3].done.length < 64 ∧
    (gathered 0x10 0x200).w.q[3].binding = 1 ∧ (handleOf (0x10 : DWord)).pos % 32 ≠ 0 ∧
    MemOk (gathered 0 0x200) ∧ (gathered 0 0x200).gathers = [⟨0, (gathered 0 0x200).w.uid, 3, 1, 0, 0, 0x200⟩] ∧ (gathered 0 0x200).grp.task.ctx = 0 ∧
    handleOf (0 : DWord) = ⟨0, 0, 0, 0, 0, 0⟩ ∧ handleOf (0x200 : DWord) = ⟨0, 0, 0, 32, 0, 0⟩ ∧
    (gathered 0 0x200).aliases = [] ∧ (gathered 0 0x200).bands = [] ∧ (gathered 0 0x200).provs = [] ∧ (gathered 0 0x200).regions = [] ∧ (gathered 0 0x200).fanOuts = [] ∧
    (gathered 0 0x200).die0.migrations = [] ∧ (gathered 0 0x200).die1.migrations = [] ∧ Served (gathered 0 0x200) ∧ (gathered 0 0x200).frameTable ≤ 2 ^ 48 ∧
    (blockLine 2).at_ + 8 ≤ (blockLine 3).at_ ∧ (blockLine 3).at_ + 8 ≤ (gathered 0 0x200).frameTable ∧
    (let s := { queued 2 0 with fabrics := [done] }
     MemOk s ∧ s.fabIn = [] ∧ s.w.q[3].done.length < 64 ∧ done.wave = s.w.uid ∧ done.q = 3 ∧ done.binding = s.w.q[3].binding ∧ done.sent = true ∧ done.got = true ∧
       done.acks = []) := by decide
theorem witness_EnginesAndCompletions_resident : OnlyWave (gathered 0 0x200) ∧ OnlyWave { queued 2 0 with fabrics := [done] } ∧
    Resident (gathered 0 0x200) ⟨0, 0, 0, 0, 0, 0⟩ theHeader (blockLine 0) ∧ Resident (gathered 0 0x200) ⟨0, 0, 0, 0, 1, 0⟩ theHeader (blockLine 1) ∧
    Resident (gathered 0 0x200) ⟨0, 0, 0, 32, 0, 0⟩ theHeader (blockLine 2) ∧ Resident (gathered 0 0x200) ⟨0, 0, 0, 32, 1, 0⟩ theHeader (blockLine 3) := by
  refine ⟨?_, ?_, resident_of 0 32 0 _ rfl rfl rfl rfl rfl, resident_of 0 32 1 _ rfl rfl rfl rfl rfl, resident_of 0 32 2 _ rfl rfl rfl rfl rfl,
    resident_of 0 32 3 _ rfl rfl rfl rfl rfl⟩ <;> (unfold OnlyWave; decide)

/-- A copy of 8 bytes to scratch 16 with tag 5, an engine's walk on slot 2 of the fault queue, and the record of a run-ahead owed. -/
def events : State := { ground with
  mem := ground.mem.writes 0x40020 (leBytes 16 (2 ^ 127)), links := ground.links.map fun l => { l with up := true }
  grp := { ground.grp with copies := [⟨0x10000, 16, 8, 5, 2, false, none⟩] }, tlb := [page true, pageAt (.engine 0 2) true]
  waits := [⟨0, 1, 0, 2, 0x10000⟩]
  ctxs := [(0, { Context.blank with state := .live, root := 0x100000, fqbase := 0x40000 })] }
def owing : State := { ground.modW fun w => { w with batch := [⟨0x5000, 8, true, true⟩] } with
  ctxs := [(0, { Context.blank with state := .live, root := 0x100000, fqbase := 0x40000 })] }
theorem witness_EnginesAndCompletions_events : events.stores = [] ∧ AtRest events ∧ events.provs = [] ∧ CleanL1 events ∧ events.fabrics = [] ∧
    events.fabIn = [] ∧ events.contstat.toNat.testBit (3 + 2) = false ∧ events.grp.scratchPoison = [] ∧ events.rest = [] ∧
    (0x100F0 : Nat) % 256 + (List.replicate 16 (1 : Byte)).length ≤ 256 ∧ (events.links.getD 3 Link.blank).export_ = 0 ∧ (events.ctx 0).shadows = [] ∧
    (events.tlb.find? fun x => x.unit == .engine 0 2 && x.ctx == 0 && x.page ≤ 0x100F0 && 0x100F0 < x.page + x.size) = some (pageAt (.engine 0 2) true) ∧
    events.grp.copies = [⟨0x10000, 16, 8, 5, 2, false, none⟩] ∧ (8 : Nat) % 4 = 0 ∧
    events.num ((events.ctx events.grp.task.ctx).fqbase.toNat + 16 * 2) 16 / 2 ^ 127 % 2 = 1 ∧
    events.die0.saved ++ events.die1.saved = [] ∧
    owing.stores = [] ∧ AtRest owing ∧ owing.provs = [] ∧ owing.w.batch = [⟨0x5000, 8, true, true⟩] ∧ (owing.ctx owing.grp.task.ctx).fqbase ≠ 0 ∧
    (owing.ctx owing.grp.task.ctx).fqcount < 2 ^ ((owing.ctx owing.grp.task.ctx).fqsize + 4) := by and_intros <;> decide
theorem witness_EnginesAndCompletions_copy : ∀ k < 8 / 4, Mapped false 4 (0x10000 + BitVec.ofNat 64 (4 * k)) (0x10000 + 4 * k) events := by
  intro k hk
  have : k = 0 ∨ k = 1 := by omega
  rcases this with rfl | rfl
  · exact mapped_of _ _ _ (page true) (va := 0x10000) (by decide) (by decide) (by decide)
  · exact mapped_of _ _ _ (page true) (va := 0x10004) (by decide) (by decide) (by decide)

/-- A descriptor that the scheduler owns and runs. -/
def owned (desc up : DWord) (level count : Nat) : Owned :=
  { desc := desc, ctx := 0, level := level, die := 0, up := up, running := true, cancelled := false, status := 0, next := 0, nrec := 1, first := 0
    handler := 0x2000, low := level, count := count, now := 0, doneAt := 0, clus := false, repl := false, records := [], requeues := 0, wrote := [], roFrom := 0 }

/-- A descriptor of a level with COUNT 1, UP 0x20000, one record at 0x11000 and HANDLER 0x2000 lies at 0x10000, the record there with CODE 0x1000 and a word
of its own; a descriptor runs at 0x20000. -/
def descriptor (level : Nat) : List Byte := leBytes 4 level ++ leBytes 4 1 ++ leBytes 8 0x20000 ++
  (if level = 1 then leBytes 8 0x11000 ++ leBytes 4 1 ++ leBytes 4 0 ++ leBytes 8 0x2000 else List.replicate 24 0) ++ List.replicate 24 0
def taskBytes (join word : Nat) : List Byte := leBytes 8 0x1000 ++ leBytes 8 0x5000 ++ leBytes 4 join ++ leBytes 4 word ++ leBytes 8 0
/-- The page in the L1 TLB of core 0 and in the first L3 bank of both dies. -/
def banked : List TlbEntry := [page true, pageAt (.bank 0) true, pageAt (.bank 160) true]
def submitting (bs : List Byte) (word : Nat) (up : Owned) : State := setS 0 0x10000 { ground with
  mem := (ground.mem.writes 0x10000 bs).writes 0x11000 (taskBytes 0 word), owned := [up], tlb := banked }
theorem bank_low (die va : Nat) (h : va < 2 ^ 19) : bankOf die va = .bank (160 * die) := by
  have a : va / 524288 = 0 := by omega
  have b : va / 134217728 = 0 := by omega
  have c : va / 34359738368 = 0 := by omega
  have d : va / 8796093022208 = 0 := by omega
  simp [bankOf, bitsOf, a, b, c, d, Config.slicesPerDie]
theorem inPage_of (s : State) (n va : Nat) (ht : s.tlb = banked) (hc : s.grp.core = 0) (hx : s.grp.task.ctx = 0) (hq : va < 2 ^ 19)
    (h : va + n ≤ 2 ^ 19) : InPage n va va s := by
  refine ⟨by omega, by omega, by omega, pageAt (.bank 0) true, ?_, rfl, by show va = 0 + (va - 0); omega⟩
  rw [hc, show (0 : Nat) / 144 = 0 from rfl, bank_low 0 va hq]
  unfold cachedAt
  simp [ht, hx, banked, page, pageAt]
  omega
theorem witness_Submission_refused : CanIssue (submitting (descriptor 2) 0 (owned 0x20000 0 3 1)) ∧
    AtRest (submitting (descriptor 2) 0 (owned 0x20000 0 3 1)) ∧ (submitting (descriptor 2) 0 (owned 0x20000 0 3 1)).w.pending = [] ∧ (submitting (descriptor 2) 0 (owned 0x20000 0 3 1)).pokes = [] ∧
    ((submitting (descriptor 2) 0 (owned 0x20000 0 3 1)).ctx 0).state = .live ∧ (0x10020 : Nat) % 64 ≠ 0 ∧
    (submitting (descriptor 2) 0 (owned 0x20000 0 3 1)).mem.bytes 0x10000 64 = descriptor 2 ∧
    (submitting (descriptor 0) 0 (owned 0x20000 0 3 1)).mem.bytes 0x10000 64 = descriptor 0 := by decide
theorem witness_Submission_forms : Wellformed (descriptor 1) ∧ Wellformed (descriptor 2) ∧ Wellformed (descriptor 3) ∧ ¬ Wellformed (descriptor 0) ∧
    ¬ Wellformed (descriptor 4) ∧ WellformedRecord (taskBytes 0 0) ∧ WellformedRecord (taskBytes 0 3) ∧ ¬ WellformedRecord (taskBytes 0 16) := by
  refine ⟨?_, ?_, ?_, ?_, ?_, ?_, ?_, ?_⟩
  iterate 5 (· simp only [Wellformed]; decide)
  iterate 3 (· unfold WellformedRecord; decide)
theorem witness_Submission_up : UpRuns (submitting (descriptor 2) 0 (owned 0x20000 0 3 1)) 2 0x20000 ∧
    ¬ UpRuns (submitting (descriptor 2) 0 (owned 0x20000 0 2 1)) 2 0x20000 ∧ UpRuns (submitting (descriptor 1) 0 (owned 0x20000 0 2 1)) 1 0x20000 := by
  refine ⟨⟨owned 0x20000 0 3 1, by decide⟩, ?_, ⟨owned 0x20000 0 2 1, by decide⟩⟩
  rintro ⟨u, h, -, h2⟩
  rw [show ownedOf (submitting (descriptor 2) 0 (owned 0x20000 0 2 1)) (submitting (descriptor 2) 0 (owned 0x20000 0 2 1)).grp.task.ctx 0x20000 =
    some (owned 0x20000 0 2 1) by decide] at h
  cases h
  exact absurd h2 (by decide)
theorem witness_Submission_launch (s : State) (h : s = submitting (descriptor 1) 0 (owned 0x20000 0 2 1)) : CanIssue s ∧ AtRest s ∧
    s.mem.bytes 0x10000 64 = descriptor 1 ∧ s.mem.bytes 0x11000 32 = taskBytes 0 0 ∧ at' (descriptor 1) 24 4 = 1 ∧ at' (descriptor 1) 16 8 = 0x11000 ∧
    latencyUnder s 0 0x20000 = false ∧ kernelOf s 0 0 0x1000 = some placedKernel ∧ at' (taskBytes 0 0) 16 4 = 0 ∧
    InPage 64 0x10000 0x10000 s ∧ InPage 32 0x11000 0x11000 s := by
  subst h
  exact ⟨by decide, by decide, by decide, by decide, by decide, by decide, by decide, by decide, by decide,
    inPage_of _ _ _ (by decide) (by decide) (by decide) (by decide) (by decide), inPage_of _ _ _ (by decide) (by decide) (by decide) (by decide) (by decide)⟩

/-- A job, a node below it and the launch of the issuing group below the job; pair 0 names the record of the descriptor's launch, register 2 counts n. -/
def spawning (n : Word) (word : Nat) (a : DWord) : State := setS 1 ((a >>> 32).setWidth 32) (setS 0 (a.setWidth 32) (setS 2 n { ground with
  mem := ground.mem.writes 0x11000 (taskBytes 0 word), tlb := banked, owned := [owned 0x40000 0 4 1, owned 0x50000 0x40000 2 1, owned 0x200000 0x40000 1 1] }))
/-- A record with JOIN of its launch that waits. -/
def waiter (join : Nat) : Record := { Record.blank with addr := 0x11000, launch := 0x200000, code := 0x1000, join := join }
theorem witness_SpawnJoinCancel : (∀ n ∈ [0, 1], CanIssue (spawning (BitVec.ofNat 32 n) 0 0x11000) ∧ AtRest (spawning (BitVec.ofNat 32 n) 0 0x11000)) ∧
    (let s := spawning 1 0 0x11000
     s.provs = [] ∧ s.w.pending = [] ∧ s.rdS 2 = 1 ∧ (s.rdSS 0).toNat % 32 = 0 ∧
       ownedOf s s.grp.task.ctx s.grp.task.launch = some (owned 0x200000 0x40000 1 1) ∧ latencyUnder s 0 s.grp.task.launch = false ∧
       s.mem.bytes 0x11000 32 = taskBytes 0 0 ∧ kernelOf s 0 0 0x1000 = some placedKernel ∧ (∀ r ∈ s.die0.waiting ++ s.die1.waiting, ¬ (r.ctx = 0 ∧ r.addr = 0x11000))) ∧
    (spawning 1 16 0x11000).mem.bytes 0x11000 32 = taskBytes 0 16 ∧
    (∀ j ∈ [1, 2], let s := (spawning 1 0 0x11000).modDie 0 fun d => { d with waiting := [waiter j] }
      CanIssue s ∧ AtRest s ∧ s.die0.waiting = [waiter j] ∧ s.die1.waiting = [] ∧ (waiter j).addr = s.rdSS 0 ∧ (waiter j).index / 16 % 2 = 0) := by
  and_intros <;> decide
theorem witness_SpawnJoinCancel_page : InPage 32 0x11000 0x11000 (spawning 1 0 0x11000) :=
  inPage_of _ _ _ (by decide) (by decide) (by decide) (by decide) (by decide)
theorem witness_SpawnJoinCancel_cancel : (let s := spawning 1 0 0x50000
     CanIssue s ∧ AtRest s ∧ (s.rdSS 0).toNat % 64 = 0 ∧ ownedOf s 0 0x50000 = some (owned 0x50000 0x40000 2 1) ∧
       jobOf s 0 0x50000 = some (owned 0x40000 0 4 1) ∧ jobOf s 0 s.grp.task.launch = some (owned 0x40000 0 4 1) ∧
       (∀ p ∈ s.owned, p.ctx = 0 → p.running = true → p.desc = 0x50000 ∨ ∀ q ∈ chainOf s 0 4 p.desc, q.desc ≠ 0x50000)) ∧
    (let s := spawning 1 0 0x60000
     CanIssue s ∧ ownedOf s 0 0x60000 = none) ∧
    (let s := { spawning 1 0 0x50000 with owned := [owned 0x40000 0 4 1, { owned 0x50000 0x40000 2 0 with running := false }, owned 0x200000 0x40000 1 1] }
     CanIssue s ∧ ownedOf s 0 0x50000 = some { owned 0x50000 0x40000 2 0 with running := false } ∧ jobOf s 0 0x50000 = some (owned 0x40000 0 4 1)) := by and_intros <;> decide

/-- A wave held by an acquire of the whole core, over the grant of the prologue. -/
def acquiring : State := (small.modG fun g => { g with tags := 0xF, acquire := some ⟨true, 0x3004084080, 9, 2⟩ }).modW fun w => { w with hold := some .acquire }
theorem witness_Allotments : CanIssue ground ∧ ground.grp.acquire = none ∧ full placedKernel.declared = full ground.grp.allot ∧
    kernelOf ground 0 ground.grp.task.ctx ground.grp.task.code = some placedKernel ∧ CanIssue small ∧ small.grp.acquire = none ∧
    full placedKernel.declared ≠ full small.grp.allot ∧ acquiring.stores = [] ∧ acquiring.rest = [] ∧ acquiring.grp.live = true ∧
    acquiring.grp.waves = [] ∧ acquiring.grp.acquire = some ⟨true, 0x3004084080, 9, 2⟩ ∧ acquiring.w.hold = some .acquire ∧ acquiring.w.mode = .normal ∧
    acquiring.grp.task.waves = 1 := by decide
theorem witness_Allotments_requests : ValidRequest ground.grp placedKernel.declared ∧ ValidRequest small.grp placedKernel.declared ∧
    ValidRequest acquiring.grp 0x3004084080 ∧ ¬ ValidRequest ground.grp 0 ∧ ¬ ValidRequest small.grp (placedKernel.declared + 1) := by
  refine ⟨?_, ?_, ?_, ?_, ?_⟩ <;> (unfold ValidRequest; decide)

/-- The frame table at 0x200000, pair 2 a frame of 1 GiB for the page at 0 that pair 0 names; the page has refs references. -/
def migrating (refs : Nat) : State := setS 2 0x40000000 { ground with mem := ground.mem.writes 0x200000 (leBytes 8 refs), frameTable := 0x200000 }
def moving : Migration := ⟨true, 1, 2, 0, 0, 0x110000, 0, 2 ^ 30, 2 ^ 30, 7⟩
theorem witness_MaintenanceOfTranslations : CanIssue ground ∧ AtRest ground ∧ ground.w.pending = [] ∧ ground.privileged = true ∧ (2 : Fin 4).val ≤ 2 ∧
    2 ^ 56 ≤ ((setS 1 0x1000000 ground).rdSS (dField 0)).toNat ∧ (ground.rdSS (dField 0)).toNat < 2 ^ 56 ∧ ground.tlb = [page true] ∧ (page true).nc = false ∧
    (page true).lease = none ∧ (page true).pa < 2 ^ 48 ∧ fld (BitVec.ofNat 64 (frameWord ground (page true).pa)) 18 12 = 0 := by decide
theorem witness_MaintenanceOfTranslations_migrate : ∀ n ∈ [0, 1], CanIssue (migrating n) ∧ AtRest (migrating n) ∧ (migrating n).w.own = none ∧
    (migrating n).w.hold = none ∧ ((migrating n).rdSS (dField 0)).toNat = 0 ∧ ((migrating n).rdSS (dField 1)).toNat = 2 ^ 30 ∧
    leafAddr (migrating n) 0x110000 = 0 ∧ frameWord (migrating n) 0 = n ∧ (migrating n).tlb = [page true] := by decide
/-- The same with a table of roots that holds nothing. -/
def unmapped : State := { migrating 0 with ctxs := [(0, { Context.blank with state := .live, root := 0x900000 })] }
theorem witness_MaintenanceOfTranslations_unmapped : CanIssue unmapped ∧ AtRest unmapped ∧ unmapped.privileged = true ∧
    unmapped.num ((unmapped.ctx 0).root.toNat + 8 * (0 / 2 ^ 43 % 2 ^ 13)) 8 % 2 = 0 := by decide
theorem witness_MaintenanceOfTranslations_leaf : GiantLeaf (migrating 0) 0 0 0x110000 ∧ GiantLeaf (migrating 1) 0 0 0x110000 := by
  unfold GiantLeaf
  decide
theorem witness_MaintenanceOfTranslations_rest : (∀ s ∈ [ground, migrating 0, migrating 1, unmapped], AllPerformed s ∧ NoLeases s ∧
      (s.ctx s.grp.task.ctx).root.toNat + 2 ^ 16 ≤ 2 ^ 48 ∧ ∀ e ∈ s.tlb, e.nc = false) ∧
    (0x110000 : Nat) + 8 ≤ 2 ^ 48 ∧ (2 ^ 30 : Nat) % 2 ^ 30 = 0 ∧ (∀ n ∈ [0, 1], leafAddr (migrating n) 0x110000 ≠ 2 ^ 30 ∧ n % 2 ^ 17 = n ∧ n / 2 ^ 17 % 2 ^ 13 = 0) := by
  unfold AllPerformed NoLeases
  decide
/-- A page being copied, its wave held, with the frame table in neither frame. -/
def copyingPage : State := ({ migrating 0 with
  frameTable := 2 ^ 31, mem := (migrating 0).mem.writes (2 ^ 31) (leBytes 8 0x20000), die0 := { (migrating 0).die0 with migrations := [moving] } }).modW fun w =>
    { w with hold := some .migrate }
theorem witness_MaintenanceOfTranslations_copied : Still copyingPage ∧ copyingPage.die0.migrations ++ copyingPage.die1.migrations = [moving] ∧
    moving.copying = true ∧ 0 < moving.size ∧ Apart2 moving.old moving.size moving.new moving.size ∧ Apart2 moving.new moving.size moving.leaf 8 ∧
    (∀ pa, pa = moving.old ∨ pa = moving.new → Apart2 (recordAt copyingPage pa) 8 moving.leaf 8 ∧ Apart2 moving.new moving.size (recordAt copyingPage pa) 8 ∧
      Apart2 moving.old moving.size (recordAt copyingPage pa) 8) ∧ moving.old % 2 ^ 19 = 0 ∧ moving.new % 2 ^ 19 = 0 ∧ moving.old + moving.size ≤ 2 ^ 48 ∧
    moving.new + moving.size ≤ 2 ^ 48 ∧ moving.leaf + 8 ≤ 2 ^ 48 ∧ moving.leaf % 8 = 0 ∧ moving.dest < 128 ∧ moving.group = copyingPage.grp.uid ∧ moving.wave = copyingPage.w.uid ∧ copyingPage.w.hold = some .migrate := by
  refine ⟨?_, by decide, by decide, by decide, ?_, ?_, ?_, by decide, by decide, by decide⟩
  · unfold Still; decide
  · unfold Apart2; decide
  · unfold Apart2; decide
  · unfold Apart2; rintro pa (rfl | rfl) <;> decide

/-- A group whose dictionary holds a word of the lane set with a lookahead, one of the group set, and one that is no entry. -/
def coded : State := ground.modG fun g => { g with dict := [0x59080403, 0xE38B05F0, 0] }
/-- A wave with a completed instruction whose lane 3 faults; one with a sub-wave of lanes 1 and 2 queued. -/
def completing : State := ground.modW fun w => { w with subs := [⟨6, 4⟩], pending := [
  { id := 5, issue := 4, load := true, reach := [], space := 0, stores := false, pc := 0xFFC, lanes := ~~~0#32, enabled := ~~~0#32, issued := Lanes.all 1, look := 2, dests := [.v 5], writes := [.v 5 (~~~0#32) (Lanes.all 7)]
    faults := [⟨3, 0x11, 0x10001⟩], ordered := true, restart := true, on := .time }] }
def faulted (handler : DWord) : State := (ground.modG fun g => { g with handler := handler }).modW fun w => { w with
  subs := [⟨6, 9⟩], recs := (w.recs.set 1 { TrapRecord.none with cause := 0x14 }).set 2 { TrapRecord.none with cause := 0x11 } }
theorem witness_CodesCompletionsAndHandlers : CanIssue coded ∧ coded.grp.dict[(1023 : Fin 1024).val]? = none ∧
    (coded.grp.dict[0]? = some 0x59080403 ∧ (0x59080403 : Word).msb = decide ((0 : Fin 2) = 1) ∧ (0x59080403 : Word).getLsbD 30 = true ∧
      lookFormat (0x59080403 : Word).toNat = true) ∧
    (coded.grp.dict[1]? = some 0xE38B05F0 ∧ (0xE38B05F0 : Word).msb = decide ((1 : Fin 2) = 1) ∧ (0xE38B05F0 : Word).getLsbD 30 = true) ∧
    (coded.grp.dict[2]? = some 0 ∧ (0 : Word).getLsbD 30 = false) ∧
    completing.stores = [] ∧ ((completing.w.pending.filter fun q => decide (q.on = .time))[0]?).isSome = true ∧
    (∀ p ∈ completing.w.pending, p.restart = true ∧ ∀ f ∈ p.faults, completing.w.st[f.lane] ≠ .parked ∧ bit completing.w.halted f.lane = false ∧
      ∀ b ∈ completing.w.subs, bit b.lanes f.lane = false) ∧ (∀ b ∈ completing.w.subs, b.lanes ≠ 0) ∧ completing.w.subs = [⟨6, 4⟩] ∧
    (faulted 0x2000).stores = [] ∧ (faulted 0x2000).w.subs = [⟨6, 9⟩] ∧ (faulted 0x2000).grp.handler = 0x2000 ∧ (faulted 0).grp.handler = 0 ∧
    ((faulted 0).ctx (faulted 0).grp.task.ctx).defhandler = 0 := by decide
theorem witness_CodesCompletionsAndHandlers_entry : EntryFree (faulted 0x2000).w ⟨6, 9⟩ ∧ EntryFree (faulted 0).w ⟨6, 9⟩ ∧
    Reports (faulted 0x2000).w 6 2 ∧ Reports (faulted 0).w 6 2 ∧ Presents (faulted 0x2000).w 6 2 2 ∧ Presents (faulted 0).w 6 2 2 := by
  unfold EntryFree Reports Presents
  decide
/-- A sub-wave of lanes 1 and 2 with a restartable comb fault and a range fault. -/
def combFaulted : Wave := (faulted 0x2000).modW (fun w => { w with
  recs := (w.recs.set 1 { TrapRecord.none with cause := 0x18, addr := 5 }).set 2 { TrapRecord.none with cause := 0x17, addr := 6 } }) |>.w
theorem witness_CodesCompletionsAndHandlers_comb : EntryFree combFaulted ⟨6, 9⟩ ∧ Reports combFaulted 6 2 ∧ Presents combFaulted 6 2 1 := by
  unfold EntryFree Reports Presents
  decide

/-- Idle cores, and records of a launch in the queues of both dies. -/
def bulk (waves : Nat) : Record := { Record.blank with addr := 0x11000, launch := 0x200000, code := 0x1000, prio := 2, waves := waves, lastLanes := 5 }
def queues (l : List Record) : Die := { Die.blank with kernels := [placedKernel], ready := (Vector.replicate 4 []).set 2 l }
def admitting (waves : Nat) : State := { ground with
  grp := Group.blank, cores := [], die0 := queues [bulk waves, bulk 1], die1 := queues [bulk waves, bulk 1], owned := [owned 0x200000 0x20000 1 2] }
theorem witness_StartAndEndOfGroups : (∀ w ∈ [1, 32], ∀ c ∈ [0, 287], (admitting w).stores = [] ∧ c < 288 ∧ (admitting w).grp.live = false ∧ (admitting w).rest = [] ∧
      ((admitting w).die (c / 144)).saved = [] ∧ ((admitting w).die (c / 144)).owed = none ∧
      ownedOf (admitting w) 0 0x200000 = some (owned 0x200000 0x20000 1 2)) ∧
    (owned 0x200000 0x20000 1 2).low / 8 % 4 = 0 := by decide
theorem witness_StartAndEndOfGroups_queues : (∀ w ∈ [1, 32], ∀ c ∈ [0, 287], Idle ((admitting w).core c) ∧
      NoneShut ((admitting w).die (c / 144)) ∧ OnlyQueue ((admitting w).die (c / 144)) 2 [bulk w, bulk 1] ∧ Plain (admitting w) (c / 144) (bulk w) placedKernel) ∧
    Bulk 2 (bulk 1) ∧ Bulk 2 (bulk 32) := by
  unfold Idle NoneShut OnlyQueue Plain Bulk
  decide
/-- The group once all its lanes have exited, as one of two of its launch. -/
def exited : State := { (ground.modW fun w => { w with st := Lanes.all .exited }) with owned := [owned 0x200000 0x20000 1 2] }
theorem witness_StartAndEndOfGroups_end : exited.stores = [] ∧ Lone exited ∧ exited.w.ended = true ∧ exited.grp.stop = none ∧ exited.w.nt = [] ∧ exited.grp.epilogues = [] ∧
    exited.provs = [] ∧ exited.merges = [] ∧ ownedOf exited 0 exited.grp.task.launch = some (owned 0x200000 0x20000 1 2) ∧ 2 ≤ (owned 0x200000 0x20000 1 2).count ∧
    exited.grp.task.parent = 0 := by
  unfold Lone
  decide

/-- A group whose kernel has run for an average of 3000 ticks, and one of a kernel that is not known, which has run for t ticks. -/
def averaged : State := { ground with die0 := { ground.die0 with kernels := [{ placedKernel with avg := some 3000 }] } }
def unknown (idem : Bool) (t : Nat) : State := { (ground.modG fun g => { g with task := { g.task with idem := idem } }) with die0 := Die.blank, clock := t }
theorem witness_TakingBackAndMidges_request : (averaged.stores = [] ∧ Lone averaged ∧ Settled' averaged.grp ∧ averaged.grp.task.clus = false ∧
      kernelOf averaged 0 averaged.grp.task.ctx averaged.grp.task.code = some { placedKernel with avg := some 3000 }) ∧
    (∀ t ∈ [0, 18000, 18001], (unknown true t).stores = [] ∧ Lone (unknown true t) ∧ Settled' (unknown true t).grp ∧
      kernelOf (unknown true t) 0 (unknown true t).grp.task.ctx (unknown true t).grp.task.code = none ∧ (unknown true t).clock - (unknown true t).grp.started = t) ∧
    (unknown false 0).grp.task.idem = false := by
  unfold Lone Settled'
  decide
/-- A group whose drain is over, and one to be saved. -/
def drained : State := ground.modG fun g => { g with drainBy := some (0, true) }
def saving : State := { ((ground.modG fun g => { g with saving := some false }).modW fun w => { w with chosen := some ⟨~~~0, 0x1000, 4, none, 5, 3, 2, 1⟩ }) with
  poolPerCore := 2 ^ 21 + 2 ^ 11 }
theorem witness_TakingBackAndMidges_save : (drained.stores = [] ∧ Lone drained ∧ drained.grp.drainBy = some (0, true) ∧ 0 ≤ drained.clock ∧ drained.grp.saving = none) ∧
    saving.stores = [] ∧ Lone saving ∧ saving.w.pending = [] ∧ saving.grp.saving = some false ∧ saving.grp.stop = none ∧ saving.w.ended = false ∧
    saving.die0.saved = [] ∧ saving.die1.saved = [] ∧ saving.w.nt = [] ∧ saving.grp.epilogues = [] ∧ saving.w.replay = none ∧ (∀ r ∈ saving.remotes, r.wave ≠ saving.w.uid) ∧
    (∀ c, saving.w.chosen = some c → c.replay = none ∧ saving.w.pushed.1 ≠ c.id) ∧ 0x2C0 + saving.grp.task.waves * (0x1900 + fld saving.grp.allot 0 8 * 128 + fld saving.grp.allot 15 5 * 4352) +
      4096 * fld saving.grp.allot 8 7 + 1024 * fld saving.grp.allot 32 6 + 32 * saving.grp.copies.length ≤
      288 * (saving.poolPerCore - 2 ^ 21) := by
  refine ⟨by unfold Lone; decide, by decide, by unfold Lone; decide, by decide, by decide, by decide, by decide, by decide, by decide, by decide, by decide,
    by decide, by decide, ?_, by decide⟩
  intro c h
  cases h
  decide
/-- A reserved core under a group of 32 waves, and a latency record of one. -/
def hurried : Record := { bulk 1 with latency := true, prio := 0 }
def reserved : State := { (ground.modG fun g => { g with task := { g.task with waves := 32 } }) with
  die0 := { Die.blank with schedcfg := 0x108, ready := (Vector.replicate 4 []).set 0 [hurried] } }
theorem witness_TakingBackAndMidges_latency : reserved.stores = [] ∧ Lone reserved ∧ Settled' reserved.grp ∧ reserved.grp.core = 0 ∧
    reserved.grp.task.latency = false ∧ reserved.grp.task.clus = false ∧ reserved.grp.task.idem = false ∧
    kernelOf reserved 0 reserved.grp.task.ctx reserved.grp.task.code = none ∧ fld reserved.die0.schedcfg 8 8 = 1 ∧ reserved.die0.ready[0] = [hurried] ∧
    hurried.latency = true ∧ hurried.clus = false ∧ 4096 < fld reserved.grp.allot 0 8 * reserved.grp.task.waves + 16 * hurried.waves := by
  unfold Lone Settled'
  decide
/-- Two groups of a core whose acquires hold each other up. -/
def rival : Group := { small.grp with uid := 7, task := { small.grp.task with waves := 32 }, acquire := some ⟨true, 0x3004084080, 8, 2⟩ }
def deadlocked : State := { (small.modG fun g => { g with acquire := some ⟨true, 0x3004084080, 9, 2⟩ }) with rest := [rival] }
theorem witness_TakingBackAndMidges_deadlock : deadlocked.stores = [] ∧ deadlocked.grp.live = true ∧ deadlocked.rest = [rival] ∧ rival.live = true ∧
    rival.core = deadlocked.grp.core ∧ rival.uid ≠ deadlocked.grp.uid ∧ Settled' deadlocked.grp ∧ Settled' rival ∧ deadlocked.grp.waves = [] ∧ rival.waves = [] ∧
    deadlocked.w.mode = .normal ∧ rival.wave.mode = .normal ∧ fld rival.allot 0 8 * rival.task.waves ≤ fld 0x3004084080 0 8 * rival.task.waves ∧
    4096 < fld 0x3004084080 0 8 * rival.task.waves + fld deadlocked.grp.allot 0 8 * deadlocked.grp.task.waves := by
  unfold Settled'
  decide
/-- A saved group, and an idle core of its die. -/
def restoring : State := { ground with
  grp := Group.blank, cores := [], die0 := { Die.blank with kernels := [placedKernel], saved := [⟨ground.grp, none, 0x10000, 0x2C0, ~~~0, 1⟩] } }
theorem bytes_of (s : State) (bs : List Byte) : ∀ a, (∀ i (h : i < bs.length), s.byte (a + i) = bs[i]) → s.bytes a bs.length = bs := by
  induction bs with
  | nil => intro a _; rfl
  | cons b t ih =>
    intro a h
    have h0 : s.byte a = b := h 0 (Nat.succ_pos _)
    have ht := ih (a + 1) fun i hi => by
      have := h (i + 1) (Nat.succ_lt_succ hi)
      rwa [show a + (i + 1) = a + 1 + i by omega] at this
    show s.byte a :: s.bytes (a + 1) t.length = b :: t
    rw [h0, ht]
/-- The same device with the group's image where it was saved. -/
@[irreducible] def theImage : List Byte := imageBytes (~~~0) ground.grp
def savedGround : Saved := ⟨ground.grp, none, 0x10000, theImage.length, ~~~0, 1⟩
def restored : State := { restoring with mem := Mem.lay [] (logBytes [] 0x10000 theImage), die0 := { restoring.die0 with saved := [savedGround] } }
theorem bytes_laid (s : State) (a : Nat) (bs : List Byte) (h : s.stores = []) (m : s.mem = Mem.lay [] (logBytes [] a bs)) : s.bytes a bs.length = bs :=
  bytes_of s bs a fun i hi => by
    show logRead s.mem (a + i) s.stores = bs[i]
    rw [h, m]
    show Mem.read _ _ = _
    rw [Mem.read_lay _ _ _ rfl]
    exact logRead_logBytes_in bs [] [] a i hi
theorem theImage_eq : theImage = imageBytes savedGround.bits savedGround.group := by unfold theImage; rfl
theorem witness_TakingBackAndMidges_image : restored.bytes savedGround.base savedGround.size = imageBytes savedGround.bits savedGround.group :=
  theImage_eq ▸ bytes_laid restored 0x10000 theImage rfl rfl
theorem witness_TakingBackAndMidges_restore : restored.stores = [] ∧ restored.grp.live = false ∧ restored.rest = [] ∧
    restored.die0.saved = [savedGround] ∧ savedGround.area = none ∧ ground.w.ended = false ∧ ground.w.chosen = none ∧ ground.grp.barC = [] ∧ ground.grp.arrivedC = false ∧
    restored.merges = [] ∧ restored.remotes = [] ∧ ground.grp.waves = [] ∧ ground.w.mode = .normal ∧ ground.grp.acquire = none ∧
    ground.grp.task.latency = false ∧ ground.grp.task.clus = false ∧ Fits ground.grp.allot ground.grp.task.waves ∧
    Plain restored 0 ground.grp.task placedKernel ∧ Idle (restored.core 0) ∧ ∀ q : Fin 4, restored.die0.ready[q] = [] := by
  unfold Fits Plain Idle
  refine ⟨rfl, rfl, rfl, rfl, rfl, ?_⟩
  decide
/-- A stalled wave of a kernel with a slice, and its group once a midge context has used up its issues. -/
def stalled : State := { waiting 2 with die0 := { ground.die0 with kernels := [{ placedKernel with sliceOff := 8 }] } }
def spent : State := ground.modG fun g => { g with waves := [{ mate with mode := .midge, issues := 4096 }] }
theorem witness_TakingBackAndMidges_midge : stalled.stores = [] ∧ Lone stalled ∧ Settled' stalled.grp ∧ stalled.grp.acquire = none ∧
    stalled.w.pending = [thePending 2] ∧ (thePending 2).load = true ∧ (thePending 2).on = .time ∧
    stalled.die0.schedcfg.getLsbD 17 = true ∧ kernelOf stalled 0 stalled.grp.task.ctx stalled.grp.task.code = some { placedKernel with sliceOff := 8 } ∧
    Fits stalled.grp.allot (stalled.grp.task.waves + 1) ∧ (stalled.core 0).local_ = [] ∧ (∀ q : Fin 4, stalled.die0.ready[q] = []) ∧
    spent.stores = [] ∧ spent.grp.live = true ∧ spent.w.mode = .normal := by
  unfold Lone Settled' Fits
  decide

/-- A job with no budget left, past its bound; a die that owes a steal request. -/
def job : Job := ⟨0x20000, 0, 0, 0, false⟩
def jobs : State := { ground with owned := [owned 0x20000 0 4 1], die1 := { Die.blank with jobs := [job], stealing := true } }
theorem witness_QueuesAndJobs : (admitting 1).stores = [] ∧ (admitting 1).cores = [] ∧ OnlyQueue (admitting 1).die0 2 [bulk 1, bulk 1] ∧
    NoneShut (admitting 1).die0 ∧ OnlyQueue (admitting 32).die1 2 [bulk 32, bulk 1] ∧ [bulk 32, bulk 1].Nodup ∧ (admitting 1).die0.saved = [] ∧ restoring.cores = [] ∧ restoring.grp.live = false ∧ restoring.rest = [] ∧
    (∀ q : Fin 4, restoring.die0.ready[q] = []) ∧ restoring.die0.schedcfg.getLsbD 16 = true ∧ restoring.die0.stealing = false ∧
    restoring.die0.stealAfter ≤ restoring.clock ∧ jobs.stores = [] ∧ jobs.die1.stealing = true ∧ (∀ q : Fin 4, jobs.die0.ready[q] = []) := by
  unfold NoneShut OnlyQueue
  decide
theorem witness_QueuesAndJobs_steal : (let s := { admitting 32 with die1 := { (admitting 32).die1 with stealing := true } }
    s.stores = [] ∧ s.die1.stealing = true ∧ s.die0.ready[2] = [bulk 32, bulk 1] ∧ s.die0.waiting = [] ∧ s.die1.ready[2].length + 64 ≤ 2 ^ 24) ∧
    (let s := { unknown false 3000 with die1 := Die.blank }
     s.stores = [] ∧ s.die0.balanced + 3000 ≤ s.clock ∧ (s.cores.map (·.1)).Pairwise (· < ·) ∧ s.die0.floorSince + 3000 ≤ s.clock) := by decide
theorem witness_QueuesAndJobs_jobs : jobs.die1.jobs[0]? = some job ∧ job.budget = 0 ∧ job.deadline ≤ jobs.clock ∧ LoneJob jobs job (owned 0x20000 0 4 1) := by
  unfold LoneJob
  decide

/-- Links that are up with eight permits on each channel; ports that are idle. -/
def linked : State := { ground with links := List.replicate 14 { Link.blank with up := true, permits := [8, 8, 8, 8], totals := [8, 8, 8, 8] } }
theorem canSend_of (s : State) (link vc n : Nat) (hl : link < 14) (hs : s.links = linked.links) (hv : vc < 4) (hn : n ≤ 8) : CanSend s link vc n := by
  refine ⟨{ Link.blank with up := true, permits := [8, 8, 8, 8], totals := [8, 8, 8, 8] }, ?_, rfl, rfl, .inr ⟨rfl, ?_⟩⟩
  · rw [hs]; exact List.getElem?_replicate_of_lt hl
  · have : vc = 0 ∨ vc = 1 ∨ vc = 2 ∨ vc = 3 := by omega
    rcases this with rfl | rfl | rfl | rfl <;> exact ⟨hn, by show (0 : Nat) + n ≤ 512; omega⟩
/-- A miss of a whole sector, an owned word, a fan-out to agent 1 and one to agent 3, and an entry between lines of one stack. -/
def missing : State := { ground with cores := [(0, { Core.blank with misses := [⟨0x10040, 0xFFFF, false, 1, false⟩] })], owners := [(0x10000, 0)] }
def fan (a : Nat) : FanOut := ⟨0x100, BitVec.twoPow 14 a, 0, true, true, 0, 0x10000, 0, 0, [1, 2], 0, 0x1414⟩
def fanned (a : Nat) : State := { linked with fanOuts := [fan a], regions := [⟨0x10, BitVec.twoPow 14 a, 0, none, 0x1414, false⟩], clock := 1500 * 20 }
def aliased : State := { ground with aliases := [⟨0, false, 0x10000, 256, 0x10000 + 2 ^ 15, 0, 0⟩] }
theorem witness_CoherenceAndLeases_events : Still missing ∧ NoMigration missing ∧ Still ground ∧ NoMigration ground ∧
    Still { fanned 3 with fanOuts := [], regions := [] } ∧ NoMigration (fanned 3) := by
  unfold Still NoMigration
  decide
theorem witness_CoherenceAndLeases : (missing.core 0).misses = [⟨0x10040, 0xFFFF, false, 1, false⟩] ∧ (missing.core 0).l1 = [] ∧ 0x10040 % 64 = 0 ∧
    (missing.owners.find? fun e => decide (e.1 = 0x10000)) = some (0x10000, 0) ∧ (∀ e ∈ missing.owners, e.1 % 4 = 0) ∧ (ground.contstat.getLsbD 13 = false) ∧
    ground.contstat.getLsbD 0 = false ∧ ground.contstat.getLsbD 1 = false ∧ (0x10000 : Nat) + [(1 : Byte), 2].length < 2 ^ 48 ∧
    (fanned 1).stores = [] ∧ MemOk (fanned 3) ∧ (fan 3).agents.getLsbD 3 = true ∧ (fanned 3).contstat.getLsbD 3 = false ∧
    (fanned 3).contlog.pos < (fanned 3).contlog.slots.length ∧ ((fanned 3).contlog.slots.getD (fanned 3).contlog.pos (0, 0)).1.getLsbD 63 = false ∧
    (fan 3).start + 1500 * fld ((fan 3).cfg.setWidth 64) 0 8 ≤ (fanned 3).clock ∧ (fanned 3).fills = [] ∧
    linked.hostlanes ≠ 0 ∧ (linked.links.getD 11 Link.blank).up = true := by decide
theorem witness_CoherenceAndLeases_mappings : (∀ m ∈ mappings ground, m.2.2.nc = false) ∧ ground.stores = [] ∧ ground.provs = [] ∧ ground.bands = [] ∧ ground.aliases = [] ∧
    ground.fanOuts = [] ∧ ground.regions = [] ∧ ground.contstat.getLsbD 13 = false ∧ (2 ^ 40 - 1 : Nat) < 2 ^ 40 ∧
    (let s := { linked with tlb := [{ page true with pa := 4 * 2 ^ 48, lease := some 2 }], leases := [(2, 0, 1)] }
     s.stores = [] ∧ AllPerformed s ∧ s.fanOuts = [] ∧ s.recalled = [] ∧ (∀ e ∈ s.tlb, e.nc = false) ∧ s.leases ≠ []) ∧
    (aliased.isais.getD (stack (0x10000 + 2 ^ 15)) Isais.blank).recal = none ∧ aliased.l2 = [] := by
  unfold AllPerformed
  decide
/-- A write of the host whose fan-out to the host itself has had no answer in time; it is not performed (R361). -/
def hostWrite : State := { fanned 1 with fanOuts := [{ fan 1 with agent := 1 }] }
theorem witness_CoherenceAndLeases_dropped : MemOk hostWrite ∧ hostWrite.contstat.getLsbD 1 = false ∧ hostWrite.leaseWaits = [] ∧
    (match exec (.invtoExpiry 1 0x100) hostWrite with
      | .next t => t.mem == hostWrite.mem && t.contstat.getLsbD 1
      | _ => false) = true := by decide
theorem witness_CoherenceAndLeases_aliases : aliased.stores = [] ∧ aliased.bands = [] ∧ aliased.poison = [] ∧ Served aliased ∧ (aliased.ctx 0).basedie = true ∧
    stack (0x10000 + 2 ^ 15) = stack 0x10000 ∧ stack (0x10000 + 2 ^ 15 + 256 - 1) = stack 0x10000 ∧ ((0x1000 : BitVec 32).getLsbD 12 = true) ∧
    (let s := { ground with regions := [⟨0x10, 2, 0, none, 0x1414, false⟩] }
     s.stores = [] ∧ s.fanOuts = [] ∧ s.contstat.getLsbD 0 = false ∧ (0x10000 : Nat) / 4096 = 0x10) := by decide
theorem witness_CoherenceAndLeases_send : CanSend linked 0 2 1 ∧ CanSend linked 11 2 1 ∧ CanSend linked 5 1 1 :=
  ⟨canSend_of _ _ _ _ (by decide) rfl (by decide) (by decide), canSend_of _ _ _ _ (by decide) rfl (by decide) (by decide),
    canSend_of _ _ _ _ (by decide) rfl (by decide) (by decide)⟩
/-- An entry whose next read is hot, and one whose next read is not. -/
def reading (r : Nat) : State := { aliased with aliases := [⟨0, false, 0x10000, 256, 0x10000 + 2 ^ 15, 0, r⟩] }
theorem witness_AliasesAndShadows_reads : (reading 8).stores = [] ∧ (reading 8).bands = [] ∧ (reading 8).poison = [] ∧ (reading 8).provs = [] ∧ Served (reading 8) ∧
    (reading 8).contstat.getLsbD 1 = false ∧ 252 + [(0 : Byte), 0, 0, 0].length ≤ 256 ∧ ((reading 8).ctx 0).hot < min (8 + 1) 255 ∧
    ¬ ((reading 7).ctx 0).hot < min (7 + 1) 255 ∧ filterCount (reading 8) 0x101 = 0 ∧ 0 < filterCount (reading 8) 0x180 := by decide
theorem test_redirectedRead :
    (match exec (.hostAccess (3, 0) 0x100FC [0, 0, 0, 0]) (reading 8) with
      | .next t => t.aliases == []
      | _ => false) = true ∧
    (match exec (.hostAccess (3, 0) 0x100FC [0, 0, 0, 0]) (reading 7) with
      | .next t => t.aliases == [⟨0, false, 0x10000, 256, 0x10000 + 2 ^ 15, 0, 8⟩]
      | _ => false) = true := by decide
/-- A frame table, and a page leased over link 2. -/
def lending (r : Nat) (l : List Granted) (fenced : Word) : State := { ground with
  tlb := []
  frameTable := 0x200000, mem := ground.mem.writes 0x200000 (leBytes 8 r), contstat := fenced
  links := linked.links.set 2 { Link.blank with up := true, permits := [8, 8, 8, 8], totals := [8, 8, 8, 8], leasesOut := l } }
theorem witness_CoherenceAndLeases_leases : Still (lending 65534 [] 0) ∧ NoMigration (lending 65534 [] 0) ∧ GiantLeaf (lending 65534 [] 0) 0 0 0x110000 ∧
    Still (lending (65535 + 2 ^ 20) [⟨0, 0, 0, 0, 0, 2 ^ 30⟩] 0) ∧ NoMigration (lending (65535 + 2 ^ 20) [⟨0, 0, 0, 0, 0, 2 ^ 30⟩] 0) ∧ CanSend (lending 65534 [] 0) 2 1 1 := by
  refine ⟨?_, ?_, ?_, ?_, ?_, ⟨{ Link.blank with up := true, permits := [8, 8, 8, 8], totals := [8, 8, 8, 8] }, rfl, rfl, rfl, .inr ⟨rfl, by decide, by decide⟩⟩⟩
  · unfold Still; decide
  · unfold NoMigration; decide
  · unfold GiantLeaf; decide
  · unfold Still; decide
  · unfold NoMigration; decide
theorem witness_CoherenceAndLeases_frames : (lending 65534 [] 0).recalls = [] ∧ (lending 65534 [] 0).purposes = [] ∧
    pageFrame (lending 65534 [] 0) ((0 / 2 ^ 19 + 0 % 2 ^ 30 / 2 ^ 19) * 2 ^ 19) = 0 ∧ (lending 65534 [] 0).tlb = [] ∧ (lending 65534 [] 0).contstat.getLsbD 4 = false ∧
    (lending 65534 [] 0x10).contstat.getLsbD 4 = true ∧ ((lending 65534 [] 0).links.getD 2 Link.blank).export_ = 0 ∧ leafAddr (lending 65534 [] 0) 0x110000 = 0 ∧
    leasesOfLink (lending 65534 [] 0) 2 = [] ∧ frameWord (lending 65534 [] 0) 0 % 2 ^ 17 < 65535 ∧ frameWord (lending 65534 [] 0) 0 / 2 ^ 20 % 2 = 0 ∧
    leasesOfLink (lending (65535 + 2 ^ 20) [⟨0, 0, 0, 0, 0, 2 ^ 30⟩] 0) 2 = [⟨0, 0, 0, 0, 0, 2 ^ 30⟩] ∧ frameWord (lending (65535 + 2 ^ 20) [⟨0, 0, 0, 0, 0, 2 ^ 30⟩] 0) (0 * 2 ^ 19) % 2 ^ 17 = 65535 ∧
    frameWord (lending (65535 + 2 ^ 20) [⟨0, 0, 0, 0, 0, 2 ^ 30⟩] 0) (0 * 2 ^ 19) / 2 ^ 20 % 2 = 1 ∧
    (let s := { ground with leaseAsked := [(2, 0x40000000)] }
     s.stores = [] ∧ (2, 0x40000000) ∈ s.leaseAsked) := by decide

/-- A line of peer 3, and one of the host, asked for. -/
def asking : State := { linked with asked := [5 * 2 ^ 40 + 9, 2 ^ 40 + 9] }
theorem witness_MessagesOfPeers : Still linked ∧ NoMigration linked ∧ CanSend linked 11 1 (max 1 ((480 + 239) / 240)) ∧
    (11 : Nat) < 12 ∧ 2 ^ 48 - 480 + 480 ≤ 2 ^ 48 ∧ linked.contstat.getLsbD 13 = false ∧
    (let s := { linked with contstat := 0x2000 }
     s.stores = [] ∧ s.contstat.getLsbD 13 = true) ∧
    asking.stores = [] ∧ asking.poison = [] ∧ (2 + 3) * 2 ^ 40 + 9 ∈ asking.asked ∧ 2 ^ 40 + 9 ∈ asking.asked ∧ (2 ^ 40 + 9) / 2 ^ 40 % 16 = 1 ∧
    (List.replicate 256 (7 : Byte)).length = 256 := by
  refine ⟨?_, ?_, canSend_of _ _ _ _ (by decide) rfl (by decide) (by decide), by decide⟩
  · unfold Still; decide
  · unfold NoMigration; decide

/-- Links that have each had a change, at a late time; a bridge and a link that is down. -/
def links (f : Link → Link) : State := { linked with links := linked.links.map f, clock := 300000 }
theorem linkUp_of (s : State) (link : Nat) (h : link < s.links.length) (u : (linkOf s link).up = true) : LinkUp s link := ⟨h, u⟩
/-- A flit that waits for its acknowledgement, and one whose CRC does not fit. -/
def waits : Flit := ⟨0, 0x14, 3, 0, 0, 0, []⟩
theorem witness_LinksAndAudits : linked.stores = [] ∧ (linkOf linked 11).queue = [] ∧ (linkOf linked 11).unacked = [] ∧
    (linkOf (links id) 11).slots = [0, 0, 0, 0] ∧ (linkOf (links id) 11).sentIdle + 150 ≤ (links id).clock ∧ 12 + (1 : Fin 2).val < linked.links.length ∧
    (let s := links fun l => { l with unacked := [waits], replays := 7, failed := 8 }
     (13 : Nat) < 14 ∧ (linkOf s 13).unacked ≠ [] ∧ (∀ f ∈ (linkOf s 13).unacked, f.seq ≠ 2) ∧ (linkOf s 13).replays < 8 ∧ 8 ≤ (linkOf s 11).failed ∧
       flitFits 11 [0] = false) ∧
    linked.contstat.getLsbD 2 = false ∧ linked.contstat.getLsbD 13 = false ∧ linked.frozen = false ∧ (11 : Nat) < ground.links.length ∧
    (linkOf ground 11).up = false ∧ (linkOf ground 11).queue = [] ∧ linked.hostlanes = 16 ∧
    (linkOf (links id) 13).recal = none ∧ (linkOf (links id) 13).audit = none ∧ (linkOf (links id) 13).audited + 15000 ≤ (links id).clock := by decide
theorem witness_LinksAndAudits_up : LinkUp linked 0 ∧ LinkUp linked 11 ∧ LinkUp (links id) 13 ∧ LinkUp (links fun l => { l with unacked := [waits], replays := 7, failed := 8 }) 13 ∧
    LinkUp (links fun l => { l with audit := some (30, 1) }) 13 ∧ LinkUp (links fun l => { l with recal := some ⟨0, false⟩ }) 13 ∧
    LinkUp (links fun l => { l with recal := some ⟨0, true⟩ }) 11 := by
  refine ⟨?_, ?_, ?_, ?_, ?_, ?_, ?_⟩ <;> exact linkUp_of _ _ (by decide) (by decide)
theorem witness_LinksAndAudits_states : Still linked ∧ NoMigration linked ∧ Still (links fun l => { l with recal := some ⟨0, false⟩ }) ∧
    Still (links fun l => { l with recal := some ⟨0, true⟩ }) := by
  unfold Still NoMigration
  decide
theorem witness_LinksAndAudits_performed : AllPerformed ground ∧ ∀ c ∈ ground.cores, ∀ l ∈ c.2.l1, ∀ w ∈ l.words, w.2.dirty = 0 := by
  unfold AllPerformed
  decide
theorem witness_LinksAndAudits_audits : (let s := links fun l => { l with audit := some (30, 1) }
     s.stores = [] ∧ (linkOf s 13).recal = none ∧ (linkOf s 13).audit = some (30, 1) ∧ 30 + 1 + 1 ≠ s.glowtotal.getD 13 0 ∧
       30 + 1 + 1 = { s with glowtotal := List.replicate 22 32 }.glowtotal.getD 13 0) ∧
    (let s := links fun l => { l with recal := some ⟨0, false⟩ }
     (linkOf s 13).recal = some ⟨0, false⟩ ∧ (linkOf s 13).unacked = [] ∧ (linkOf s 13).queue = [] ∧ 0 + 300000 ≤ s.clock) ∧
    (let s := links fun l => { l with recal := some ⟨0, true⟩ }
     (linkOf s 11).recal = some ⟨0, true⟩ ∧ s.contstat.getLsbD 13 = false) := by decide

/-- Ports whose stacks have every channel. -/
def ports (f : Isais → Isais) : State := { ground with isais := ground.isais.map fun p => f { p with capability := ~~~0 }, clock := 15000 }
/-- A device whose stacks present no channel. -/
def noStacks : State := { ground with isais := List.replicate 8 Isais.blank }
theorem canRequest_of (s : State) (k tag : Nat) (h : k < 8 ∧ s.isais.length = 8 ∧ tag < 2048 ∧ (portOf s k).outstanding = [] ∧ (portOf s k).recal = none) :
    CanRequest s k tag := h
theorem witness_RequestsOfStacks : (ports id).stores = [] ∧ (ports id).poison = [] ∧ (ports id).raws = [] ∧ MemOk (ports id) ∧
    CanRequest (ports id) 7 2047 ∧ CanRequest (ports id) 0 0 ∧ CanRequest noStacks 7 0 ∧ Present (ports id) 7 (2 ^ 48 - 64) ∧ ¬ Present noStacks 7 0 ∧ Sound (ports id) 0 ∧
    Apart2 0 (64 * 64) 0x8000 (64 * 64) := by
  refine ⟨by decide, by decide, by decide, by decide, canRequest_of _ _ _ (by decide), canRequest_of _ _ _ (by decide), canRequest_of _ _ _ (by decide), ?_, ?_, ?_, ?_⟩
  · unfold Present; decide
  · unfold Present; decide
  · unfold Sound; decide
  · unfold Apart2; decide
theorem witness_RequestsOfStacks_script : (portOf (ports id) 0).capability.toNat / 2 ^ 80 % 256 ≠ 0 ∧ stack 0 = 0 ∧ stack 0x8000 = 0 ∧ 0x8000 % 64 = 0 ∧
    0 % 4096 + 64 * 64 ≤ 4096 ∧ 0x8000 % 4096 + 64 * 64 ≤ 4096 ∧
    (let s := ports fun p => { p with outstanding := [⟨9, 0, 0⟩], audit := some (5, 2) }
     s.stores = [] ∧ 7 < s.isais.length ∧ (portOf s 7).outstanding = [⟨9, 0, 0⟩] ∧ 0 + 15000 ≤ s.clock ∧ s.frozen = false ∧
       (portOf s 7).audit = some (5, 2) ∧ 5 + 2 + 1 = { s with glowtotal := List.replicate 22 8 }.glowtotal.getD (14 + 7) 0) := by decide
theorem witness_RequestsOfStacks_replays :
    ∀ n ∈ [7, 8], let s := ports fun p => { p with outstanding := [⟨9, 0, n⟩], buffer := [(9, 5, [])] }
      s.stores = [] ∧ 7 < s.isais.length ∧ (portOf s 7).outstanding = [⟨9, 0, n⟩] ∧ ((portOf s 7).buffer.find? fun m => m.1 == 9) = some (9, 5, []) ∧
        s.frozen = false := by decide
/-- A burst whose stored codeword is in error. -/
def erring : State := { ground with raws := [⟨0x40, List.replicate 80 1, true⟩] }
theorem witness_ErrorsAndScrubbing : erring.stores = [] ∧ 0x40 % 64 = 0 ∧ (List.replicate 64 (1 : Byte)).length = 64 ∧ Sound erring 0 ∧
    erring.raws = [⟨0x40, List.replicate 80 1, true⟩] ∧ List.replicate 80 (2 : Byte) ≠ List.replicate 80 1 ∧
    (∀ ch : Fin 256, (look ground.weevil ch 0x118).getLsbD 8 = true) ∧ ground.raws = [] ∧ LogFree ground ∧ Focused ground 1 ∧
    ground.grp.task.repl = false ∧ (ground.modG fun g => { g with task := { g.task with repl := true } }).grp.task.repl = true := by
  refine ⟨by decide, by decide, by decide, ?_, by decide, by decide, by decide, by decide, ?_, ?_, by decide, by decide⟩
  · unfold Sound; decide
  · unfold LogFree; decide
  · unfold Focused; decide

theorem witness_ErrorsAndScrubbing_report : (1#16).getLsbD 0 = true ∧ 0x40 + 4 * 0 ∉ ground.poison ∧
    (∀ i : Fin 16, (0#16).getLsbD i = true → 0x40 + 4 * i.val ∈ ground.poison) := by decide

/-- Objects of each kind. Whether a signature verifies, and whether links train, is not the model's to say (Config.verifies, Config.trains): the witnesses of
statements about signed objects meet every other hypothesis, and hold for either answer. -/
def object (kind : Nat) (b : RecordBody) : SignedObject := ⟨kind, 5, 4096, 0, b⟩
def record_ : ConfigRecord := ⟨List.replicate 14 [8, 8, 8, 8], 0x200000, 0x300000, 2 ^ 21, List.replicate 12 0, 0, [], List.replicate 8 0⟩
def booting : State := { State.reset with retryAt := some 0, bootstat := 0x15 }
theorem witness_FreezeResetAndBoot : booting.stores = [] ∧ booting.frozen = false ∧ booting.retryAt = some 0 ∧ 0 ≤ booting.clock ∧ booting.bootstat.toNat % 8 < 6 ∧
    booting.linksOut = [] ∧ (object 1 (.image [] [(2, 5)])).kind = 1 ∧ kindFits (object 1 (.image [] [(2, 5)])) = true ∧ (∀ e ∈ ground.l2, ¬ Lost e) ∧
    (object 1 (.image [] [(2, 5)])).body = .image [] [(2, (object 2 (.configuration record_)).version)] := by
  unfold Lost
  decide
/-- A line that L2 holds dirty with bytes that memory has not seen, apart from every frame record. -/
theorem witness_FreezeResetAndBoot_lost : (let l : L2Line := ⟨0x100, false, true, List.replicate 256 7⟩
    let s := { ground with l2 := [l] }
    MemOk s ∧ l ∈ s.l2 ∧ Lost l ∧ (∀ f ∈ s.l2, Lost f → f.line = l.line → f = l) ∧ l.old.length = 256 ∧ ¬ InFrameTable record_ (l.line * 256 + 255)) := by
  unfold Lost InFrameTable
  decide
theorem genuine_of (o : SignedObject) (h : kindFits o = true) (v : Config.verifies o = true) : Genuine o := ⟨v, h⟩
theorem accepted_of (s : State) (kind : Nat) (o : SignedObject) (v : Config.verifies o = true)
    (h : kindFits o = true ∧ o.kind = kind ∧ look s.minVersions kind 0 ≤ o.version) : Accepted s kind o := ⟨⟨v, h.1⟩, h.2⟩
theorem witness_FreezeResetAndBoot_record : MemOk booting ∧ (object 2 (.configuration record_)).kind = 2 ∧ kindFits (object 2 (.configuration record_)) = true ∧
    look [] 2 0 ≤ (object 2 (.configuration record_)).version ∧ booting.nfree = 0 ∧ (object 1 (.image [(2, 5)] [(2, 5)])).kind = 1 ∧
    look [(2, 5)] 2 0 ≤ (object 2 (.configuration record_)).version := by decide
theorem witness_ServiceAndAttestation : (∀ o ∈ [object 1 (.image [] []), object 2 (.configuration record_), object 3 (.spareMap (List.range 144) (List.range 144)), object 4 (.repair [(255, 9)] [] [])],
      Config.verifies o = true → Accepted ground o.kind o) ∧ ground.inbox = [] ∧ (0 : Nat) < (object 2 (.configuration record_)).version ∧
    (∀ p, (ground.applied.filter fun a => decide (a.kind = 2)).getLast? = some p → p.version < 5) ∧ (255 : Nat) / 32 = (7 : Fin 8).val ∧ ground.isais.length = 8 ∧ (portOf ground 7).retired = [] ∧
    (portOf ground 7).spared = [] ∧ (portOf ground 7).capability.toNat / 2 ^ 64 % 2 ^ 16 < 2 ^ 16 - 1 ∧ (portOf ground 7).capability.toNat / 2 ^ 80 % 256 = 0 ∧
    (let s := ports fun p => { p with capability := BitVec.ofNat 128 (2 ^ 80 + 2 ^ 56) }
     s.isais.length = 8 ∧ (portOf s 7).capability.toNat / 2 ^ 80 % 256 ≠ 0 ∧ (portOf s 7).capability.toNat / 2 ^ 56 % 256 ≠ 0) ∧
    (∀ g ∈ restoring.grp :: restoring.rest, g.live = true → g.core ≠ 5) ∧
    (let s := { ground with attestation := ⟨7, true, false, []⟩ }
     s.stores = [] ∧ s.attestation.busy = true) := by
  refine ⟨fun o ho v => accepted_of _ _ _ v ?_, by decide, by decide, (by intro p h; cases h), by decide⟩
  simp only [List.mem_cons, List.not_mem_nil, or_false] at ho
  rcases ho with rfl | rfl | rfl | rfl <;> decide
theorem witness_WindowWrites : ground.stores = [] ∧ (0x8000000000000000 : DWord).getLsbD 63 = true ∧ Still ground ∧ NoMigration ground ∧ (65535 : Nat) < 65536 ∧
    (8 * 48 * 2 ^ 11 - 1) * 2 ^ 19 < (ground.isais.map fun p => p.capability.toNat / 2 ^ 12 % 2 ^ 12).sum * 2 ^ 30 := by
  unfold Still NoMigration
  decide

/-- A page that a bank of each die holds in context 0, where a descriptor of a job lies. -/
def hosting : State := { ground with
  tlb := banked
  mem := ground.mem.writes 0x10000 (leBytes 4 4 ++ leBytes 4 1 ++ List.replicate 56 0) }
theorem witness_HostInterface : Still hosting ∧ NoMigration hosting ∧ hosting.contstat.getLsbD 1 = false ∧ { hosting with contstat := 2 }.contstat.getLsbD 1 = true ∧
    2 ^ 48 - 8 + (List.replicate 8 (1 : Byte)).length ≤ 2 ^ 48 ∧ 2 ^ 48 < 2 ^ 48 - 7 + (List.replicate 8 (1 : Byte)).length ∧ hosting.hostlanes ≠ 0 := by
  unfold Still NoMigration
  decide
/-- An access within a CXL.mem range, one that ends above it, and a compare-and-swap of eight bytes at its end; a submission while control cores restart. -/
def windowed : State := { hosting with cxlRanges := [(0x10000, 256)] }
theorem witness_HostInterface_ranges : Still windowed ∧ NoMigration windowed ∧ (∃ r ∈ windowed.cxlRanges, r.1 ≤ 0x100F8 ∧ 0x100F8 + 8 ≤ r.1 + r.2) ∧
    (∀ r ∈ windowed.cxlRanges, 0x100F9 < r.1 ∨ r.1 + r.2 < 0x100F9 + 8 / 2 ∨ ((1 : Nat) ≠ 4 ∧ r.1 + r.2 < 0x100F9 + 8)) ∧
    (∀ r ∈ windowed.cxlRanges, 0x100FD < r.1 ∨ r.1 + r.2 < 0x100FD + 8 / 2 ∨ ((4 : Nat) ≠ 4 ∧ r.1 + r.2 < 0x100FD + 8)) ∧
    hosting.restarting = none ∧ hosting.hostbusy = none ∧ { hosting with restarting := some (4, object 1 (.image [] [])) }.restarting ≠ none := by
  unfold Still NoMigration
  decide
theorem witness_HostInterface_submit : Tries (.hostsub 0x10000) 0 0x10000 hosting ∧ Tries .hostSubmitRetry 0 0x10000 { hosting with hostbusy := some ⟨0x10000, 0, none, []⟩ } ∧
    Still { hosting with ctxs := [] } ∧ Tries (.hostsub 0x10000) 0 0x10000 { hosting with ctxs := [] } ∧ HostPage 0 64 0x10000 0x10000 hosting := by
  refine ⟨.inl ⟨0x10000, rfl, by decide, by decide, by decide⟩, .inr ⟨rfl, rfl⟩, ?_, .inl ⟨0x10000, rfl, by decide, by decide, by decide⟩, ?_⟩
  · unfold Still; decide
  · refine ⟨by decide, by decide, by decide, fun die h => ?_⟩
    have : die = 0 ∨ die = 1 := by omega
    rcases this with rfl | rfl
    · exact ⟨pageAt (.bank 0) true, by rw [bank_low 0 _ (by decide)]; decide, rfl, rfl, by decide⟩
    · exact ⟨pageAt (.bank 160) true, by rw [bank_low 1 _ (by decide)]; decide, rfl, rfl, by decide⟩
theorem witness_HostInterface_states : (hosting.ctx 0).state = .live ∧ ({ hosting with ctxs := [] }.ctx 0).state ≠ .live ∧
    hosting.mem.bytes 0x10000 64 = leBytes 4 4 ++ leBytes 4 1 ++ List.replicate 56 0 ∧
    { hosting with hostbusy := some ⟨0x10000, 0, none, []⟩ }.hostbusy ≠ none ∧ (ground.mem.bytes 0x10000 64) = List.replicate 64 0 ∧ hosting.pokes = [] := by decide
theorem witness_HostInterface_descriptors : Wellformed (leBytes 4 4 ++ leBytes 4 1 ++ List.replicate 56 0) ∧ ¬ Wellformed (List.replicate 64 0) := by
  constructor <;> (simp only [Wellformed]; decide)
theorem witness_Contexts : ground.stores = [] ∧ (ground.ctx 65535).state = .free ∧ (ground.ctx 0).state = .live ∧ ground.owned = [] ∧
    (let s := { restoring with ctxs := [(0, { Context.blank with state := .tearing })] }
     s.stores = [] ∧ (s.ctx 0).state = .tearing ∧ (∀ g ∈ s.grp :: s.rest, g.live = true → g.task.ctx ≠ 0) ∧ s.fabrics = [] ∧ s.gathers = [] ∧
       s.die0.migrations ++ s.die1.migrations = [] ∧ s.bands = [] ∧ s.aliases = [] ∧ s.tlb = [page true] ∧ AllPerformed s ∧ s.fanOuts = [] ∧
       (∀ l ∈ s.links, l.leasesOut = []) ∧ s.leases = [] ∧ (page true).nc = false) := by
  unfold AllPerformed
  decide

theorem witness_DecodeOfEncode : (Instr.addB32 5 3 9).wellFormed = true ∧ (Instr.dictionaryCode 1 1023 15).wellFormed = true ∧
    (Instr.mma 15 7 7 255 15).wellFormed = true := by decide
theorem witness_EncodeOfDecode : decode [0x05, 0x40, 0x24, 0x06, 0x11] = .ok (.addB32 5 3 9, [0x11]) := by decide
/-- The device with add.b32 v5, v3, v9 at the PC of its one wave, and the state in which that wave issues it. -/
noncomputable def stepping : State := { State.reset.withFetchWord 32 0x40050624 with tlb := [page true] }
noncomputable def issuing : State := { (focusOn ⟨1, 2, .issue⟩ (chosen stepping)).modW (fun w => { w with issues := w.issues + 1 }) with
  iss := { Issue.of (~~~0#32) 0x1000 4 none with id := stepping.nextUid }, nextUid := stepping.nextUid + 1 }
theorem witness_StepRunsTheDecodedInstruction : stepping.inbox = [] ∧ running stepping = true ∧ nextDeed stepping = some ⟨1, 2, .issue⟩ ∧
    mustWait {} issuing = false ∧ issuing.stores = [] ∧ issuing.bands = [] ∧ issuing.aliases = [] ∧ issuing.provs = [] ∧ issuing.grp.failed = false ∧
    decode (issuing.mem.bytes 0x1000 4) = .ok (.addB32 5 3 9, []) := by decide
theorem witness_StepRunsTheDecodedInstruction_issue : Issues (focusOn ⟨1, 2, .issue⟩ (chosen stepping)) issuing ∧ FetchesAt issuing 0x1000 4 := by
  refine ⟨⟨(focusOn ⟨1, 2, .issue⟩ (chosen stepping)).w, Issue.of (~~~0#32) 0x1000 4 none, by decide, rfl⟩, by decide, by decide, by decide, by decide, by decide, page true, by decide, rfl,
    rfl, by decide, by decide, fun k hk => ?_⟩
  exact cached_page _ _ true (by decide) (by decide) (by decide) (by
    have : issuing.iss.pc.toNat = 0x1000 := by decide
    omega)
/-- The host asks whether a step runs the placed word: the sum stands in lane register 5 of every lane, and the PCs stand after it. -/
theorem test_step_add : (match step ((setV 3 (fun l => BitVec.ofNat 32 l.val) (setV 9 (fun _ => 7) stepping))) with
    | .next t => decide ((∀ l : Fin 32, t.w.v[5][l] = BitVec.ofNat 32 (l.val + 7) ∧ t.w.pc[l] = 0x1004))
    | .fault _ => false
    | .refused _ => false) = true := by decide
theorem witness_ChoiceOfTheRun : Claims.Ready ground.w 0 ∧ Candidate ground.w 31 ∧ (chooseRun ground.w).isSome = true ∧ ground.w.promise = false := by
  unfold Candidate Claims.Ready
  decide
theorem witness_StepKeepsMemory : MemOk stepping ∧ MemOk State.reset := by decide
theorem witness_StandstillWhileFrozen : MemOk State.reset ∧ running State.reset = false ∧ State.reset.inbox = [] ∧
    MemOk { stepping with frozen := true, inbox := [.queueBalancing 0] } ∧ running { stepping with frozen := true, inbox := [.queueBalancing 0] } = false ∧
    offDie (.queueBalancing 0) = false := by decide

/-! ## Words that the manual works out, as sums of their fields -/

/-- From the chapters on encoding, arithmetic, control, matrices, translation and floating point. -/
theorem test_written_words : ([
    (0x80 * 2 ^ 23 + 5 * 2 ^ 16 + 3 * 2 ^ 9 + 9 * 2 ^ 2, .addB32 5 3 9),
    (0x6B * 2 ^ 23 + 2 ^ 30 + 3 * 2 ^ 16, .gets 3 0),
    (0x40050624, .addB32 5 3 9), (0x44020001, .addi 2 0 1), (0x50050411, .xlaneBack 5 2 4), (0x50880424, .lshB32 8 2 9), (0x4D01041D, .cmpLtN32 1 2 7),
    (0x52060200, .ballot 6 1), (0xE60A0100, .votec 10 1 0), (0xE38B05F0, .rdlane 11 2 31 0), (0xD2800000, .exit), (0xD5000000, .barG), (0xD5000100, .barC),
    (0x59080403, .fsqrtF32 8 2 0 3), (0x55091008, .fmulF32 9 8 2 0), (0xCB893F80, .lcHi 9 0x3F80), (0x75830000, .gets 3 0),
    (0x74000000 + 2 * 0x80000 + 1 * 0x10000 + 4 * 0x2000 + 0x009 * 0x10 + 3, .mma 2 1 4 9 3),
    (0xEE0A0000, .tlbinv 5 0), (0xF30C0000, .combInv 6 0), (0xF2000000 + 4 * 0x20000 + 5 * 0x800 + 3 * 0x10, .migrate 4 5 3)] : List (Nat × Instr)).all
    (fun e => decide (decodeWord (e.1 % 2 ^ 32) = .ok e.2)) = true := by decide

/-! ## One step at a time; the expected values are the manual's examples or computed by hand from its rules -/

/-- A property of the state that an instruction leaves. -/
def leaves (i : Instr) (s : State) (f : State → Bool) : Bool :=
  match exec i s with
  | .next t => f t
  | .fault _ => false
  | .refused _ => false
/-- Lane registers 1 and 2 of every lane hold two words, lane register 3 its lane's number. -/
def two (a b : Word) : State := setV 3 (fun l => BitVec.ofNat 32 l.val) (setV 2 (fun _ => b) (setV 1 (fun _ => a) ground))
def lane (n : Fin 128) (l : Fin 32) (x : Word) (t : State) : Bool := t.w.v[n][l] == x
def group (n : Fin 128) (x : Word) (t : State) : Bool := t.grp.s[n] == x

theorem test_addSat : leaves (.addSatI32 5 1 2) (two 0x7FFFFFFF 1) (lane 5 31 0x7FFFFFFF) ∧ leaves (.addSatI32 5 1 2) (two 0x80000000 0xFFFFFFFF) (lane 5 0 0x80000000) := by
  decide
theorem test_subSatN : leaves (.subSatN32 5 1 2) (two 3 5) (lane 5 7 0) := by decide
theorem test_mulHi : leaves (.mulHiI32 5 1 2) (two 0xFFFFFFFF 2) (lane 5 7 0xFFFFFFFF) ∧ leaves (.mulHiN32 5 1 2) (two 0xFFFFFFFF 2) (lane 5 7 1) := by decide
/-- A shift by the width or more; the count is the low byte of the word. -/
theorem test_shl : leaves (.shlB32 5 1 2) (two 1 32) (lane 5 0 0) ∧ leaves (.shlB32 5 1 2) (two 1 0x11F) (lane 5 0 0x80000000) := by decide
theorem test_sar : leaves (.sarI32 5 1 2) (two 0x80000000 200) (lane 5 0 0xFFFFFFFF) := by decide
/-- A field of width 8 at bit 28 has its top cut off at bit 31. -/
theorem test_bfe : leaves (.bfeN32 5 1 2) (two 0xF1234567 (28 + 8 * 256)) (lane 5 0 0xF) ∧ leaves (.bfeI32 5 1 2) (two 0xF1234567 (28 + 8 * 256)) (lane 5 0 0xFFFFFFFF) := by
  decide
/-- The manual's example of a selector. -/
theorem test_perm : leaves (.permB8 5 1 2) (setV 5 (fun _ => 0x44444404) (two 0x11 0x80)) (lane 5 0 0xFFFFFF80) := by decide
theorem test_xlaneBack : leaves (.xlaneBack 5 3 1) (two 1 0) (fun t => lane 5 0 0 t && lane 5 31 30 t) := by decide
theorem test_guard : (match exec (.guardN 0 0) ground with
    | .next s => leaves (.addB32 5 3 3) (setV 3 (fun l => BitVec.ofNat 32 l.val) (s.modW fun w => { w with p := w.p.set 0 1 })) fun t => lane 5 0 0 t && lane 5 1 2 t
    | .fault _ => false
    | .refused _ => false) = true := by decide
/-- The worked program of the chapter on floating point. -/
theorem test_fmul : leaves (.fmulF32 5 1 2 0) (two 0x3F800800 0x3F800800) (lane 5 0 0x3F801000) := by decide
theorem test_fadd : leaves (.faddF32 5 1 2 0) (two 0x3F801000 0xBF801000) (lane 5 0 0) := by decide
theorem test_ffma : leaves (.ffmaF32 5 1 2 0) (setV 5 (fun _ => 0xBF801000) (two 0x3F800800 0x3F800800)) (lane 5 0 0x33800000) := by decide
theorem test_cvtf : leaves (.cvtf 8 4 3 0 0) (setV 7 (fun _ => 0xFFC12345) (setV 6 (fun _ => 0x43FA0000) (setV 4 (fun _ => 0x33800000) ground))) (lane 8 0 0xFF7E0000) := by
  decide
/-- The manual's table of conversions: FP32 to BF16, FP16, E4M3 and E5M2, and FP16 back. -/
theorem test_conversions : ([(0x3EAAAAAB, 0x3EAB, 0x3555, 0x2B, 0x35, 0x3EAAA000), (0x43FA0000, 0x43FA, 0x5FD0, 0x7E, 0x60, 0x43FA0000),
    (0x38400000, 0x3840, 0x0300, 0x00, 0x03, 0x38400000), (0x80000000, 0x8000, 0x8000, 0x80, 0x80, 0x80000000),
    (0x7F800001, 0x7F81, 0x7C01, 0x7F, 0x7D, 0x7F802000), (0xFFC12345, 0xFFC1, 0xFE09, 0xFF, 0xFE, 0xFFC12000)] : List (Nat × Nat × Nat × Nat × Nat × Nat)).all
    (fun e => decide (narrow bf16 .nearest e.1 = e.2.1 ∧ narrow fp16 .nearest e.1 = e.2.2.1 ∧ narrow e4m3 .nearest e.1 = e.2.2.2.1 ∧
      narrow e5m2 .nearest e.1 = e.2.2.2.2.1 ∧ widen fp16 e.2.2.1 = e.2.2.2.2.2)) = true := by decide
theorem test_ckAcc : (match exec (.ckAccB32 0 1) (two 0xFF7E0000 0) with
    | .next t => t.w.h[0] == 0x00000000EFC00000
    | .fault _ => false
    | .refused _ => false) = true := by decide
theorem test_handle : handleOf (0x001230511011170A : DWord) = ⟨0x123, 5, 0x11, 70000, 1, 2⟩ := by decide
theorem test_slice : sliceOf 0x012345678000 = 44 := by decide
theorem test_lc : leaves (.lcHi 9 0x3F80) (setS 9 0x0800 ground) (group 9 0x3F800800) := by decide
theorem test_cmp : leaves (.gCmpLtI32 5 1 2) (setS 2 1 (setS 1 0xFFFFFFFF ground)) (group 5 1) ∧ leaves (.gCmpLtN32 5 1 2) (setS 2 1 (setS 1 0xFFFFFFFF ground)) (group 5 0) := by
  decide
theorem test_call : leaves (.call 8) ground fun t => lane 14 3 0x1004 t && lane 15 3 0 t && t.w.pc[(3 : Fin 32)] == 0x1010 := by decide
/-- The lane that exits is gone; the others stand after the instruction. -/
theorem test_exit : leaves .exit (onRun 1 ground) fun t => t.w.st[(0 : Fin 32)] == .exited && t.w.st[(1 : Fin 32)] == .ready := by decide
theorem test_trap : leaves (.trap 0xAB) ground fun t => t.w.st[(9 : Fin 32)] == .parked && t.w.recs[(9 : Fin 32)].cause == 0x40 &&
    t.w.recs[(9 : Fin 32)].addr == 0xAB && t.w.recs[(9 : Fin 32)].entry == 0x1004 && t.w.recs[(9 : Fin 32)].pc == 0x1000 := by decide
theorem test_privilege : leaves (.migrate 0 1 5) user fun t => t.w.st[(0 : Fin 32)] == .parked && t.w.recs[(0 : Fin 32)].cause == 0x04 && t.w.recs[(0 : Fin 32)].entry == 0x1000 := by
  decide
theorem test_store : leaves (.stB32 3 1 0) (setV 3 (fun l => BitVec.ofNat 32 (0x01020304 + l.val)) (data 8)) fun t => t.mem.bytes 0x10008 4 == [5, 3, 2, 1] && t.mem.read 0x1000C == 0 := by
  decide
/-- Two lanes at one word: the higher lane's store is the last; the atomics of two lanes take place in lane order. -/
theorem test_atomic : leaves (.atomAdd 3 1 0 0 0) (setV 3 (fun _ => 1) (onRun 3 (setS 0 0x10000 (setV 1 (fun _ => 0) ground))))
    fun t => lane 3 0 0 t && lane 3 1 1 t && t.num 0x10000 4 == 2 := by decide
theorem test_misaligned : leaves (.ldB32 5 1 0 0) (setS 0 0x10002 (data 8)) fun t => t.w.st[(4 : Fin 32)] == .parked && t.w.recs[(4 : Fin 32)].cause == 0x1011 &&
    t.w.recs[(4 : Fin 32)].addr == 0x10022 && t.w.recs[(4 : Fin 32)].entry == 0x1004 := by decide
/-- A lane's load from a channel that its stack does not present finds poison (R441); its store is refused and logged. -/
theorem test_absentChannel : leaves (.ldB32 5 1 0 0) { data 8 with isais := List.replicate 8 Isais.blank } (fun t => t.w.st[(4 : Fin 32)] == .parked &&
      t.w.recs[(4 : Fin 32)].cause == 0x1019) ∧
    leaves (.stB32 3 1 0) { onRun 1 (data 8) with isais := List.replicate 8 Isais.blank } fun t => t.poison == [0x10000] && t.errlog.pos == 1 := by decide
theorem test_poisoned : leaves (.ldB32 5 1 0 0) spoiled (fun t => t.w.st[(4 : Fin 32)] == .parked && t.w.recs[(4 : Fin 32)].cause == 0x1019 &&
      t.w.recs[(4 : Fin 32)].addr == 0x10020 && t.errlog.pos == 1 && (t.errlog.slots.getD 0 (0, 0)).1 == 0x8100000000010000) ∧
    leaves (.redF32 5 1 0) spoiled (fun t => t.w.st[(4 : Fin 32)] == .parked && t.w.recs[(4 : Fin 32)].cause == 0x1019 && t.out == [.msix 2]) := by decide
theorem test_bar : leaves .barG twoWaves fun t => t.w.hold == some .barG && t.grp.barG == [2] := by decide
theorem test_sets_fairness : leaves (.sets 1 0x21 0) (setS 1 7 ground) (fun t => t.w.fairness == 8) ∧ leaves (.sets 1 0x21 0) (setS 1 2047 ground) fun t => t.w.fairness == 1024 := by
  decide
theorem test_acquire : leaves (.acquireExplicit 2) (setS 3 0x30 (setS 2 0x04084080 small)) fun t => t.w.hold == some .acquire := by decide
theorem test_reset : State.reset.die0.schedcfg = 0x6400071808 ∧ State.reset.die1.cohcfg = 0x1414 := by decide

/-! ## A word for every constructor, and the terms that the checks refuse -/

/-- Words written out from the opcode table: each row's word with a value of its own in every field. -/
theorem test_decode_1 : ([
    (0x4032A618, .addB32 50 83 6),
    (0x4009D311, .addSatI32 9 105 68),
    (0x400C5D2A, .addSatN32 12 46 74),
    (0x4087E900, .subB32 7 116 64),
    (0x409B082D, .subSatI32 27 4 11),
    (0x40B76A22, .subSatN32 55 53 8),
    (0x411E1718, .mulLoB32 30 11 70),
    (0x41360FA5, .mulHiI32 54 7 105),
    (0x41481FE6, .mulHiN32 72 15 121),
    (0x41CAF21C, .madB32 74 121 7),
    (0x424994C8, .minI32 73 74 50),
    (0x4206F871, .minN32 6 124 28),
    (0x42858FB4, .maxI32 5 71 109),
    (0x42914AD5, .maxN32 17 37 53),
    (0x434AECE8, .addB64 74 118 58),
    (0x4356BC19, .subB64 86 94 6),
    (0x440D877F, .addi 13 67 383),
    (0x44F722DE, .muli 119 17 222),
    (0x457EDE63, .andi 126 111 99),
    (0x45E9DE6C, .ori 105 111 108),
    (0x4603406C, .xori 3 32 108),
    (0x46EA201F, .shli 106 16 31),
    (0x47438209, .shri 67 65 9),
    (0x47979A02, .sari 23 77 2)] : List (Nat × Instr)).all (fun e => decide (decodeWord e.1 = .ok e.2)) = true := by decide

/-- Words written out from the opcode table: each row's word with a value of its own in every field. -/
theorem test_decode_2 : ([
    (0x481624F0, .andB32 22 18 60),
    (0x484FB83D, .orB32 79 92 15),
    (0x48470EA6, .xorB32 71 7 41),
    (0x4857850F, .andnB32 87 66 67),
    (0x48C77B90, .shlB32 71 61 100),
    (0x48E31BC5, .shrN32 99 13 113),
    (0x48C70E7E, .sarI32 71 7 31),
    (0x48984617, .rotB32 24 35 5),
    (0x49621800, .popcB32 98 12),
    (0x49407201, .clzB32 64 57),
    (0x49470602, .ctzB32 71 3),
    (0x4961E403, .brevB32 97 114),
    (0x49F410E0, .bfeN32 116 8 56),
    (0x49A99DF1, .bfeI32 41 78 124),
    (0x4A409B04, .bfiB32 64 77 65),
    (0x4A99B08C, .permB8 25 88 35),
    (0x4ABB397D, .lutN4 59 28 95),
    (0x4B7EAA00, .movB32 126 85),
    (0x4B6A3801, .movB64 106 28),
    (0x4BE43A00, .movs 100 29),
    (0x4C05E78C, .cmpEqB32 5 115 99),
    (0x4C010575, .cmpEqF32 1 2 93),
    (0x4C86D640, .cmpNeB32 6 107 16),
    (0x4C8054C1, .cmpNeF32 0 42 48)] : List (Nat × Instr)).all (fun e => decide (decodeWord e.1 = .ok e.2)) = true := by decide

/-- Words written out from the opcode table: each row's word with a value of its own in every field. -/
theorem test_decode_3 : ([
    (0x4D001684, .cmpLtI32 0 11 33),
    (0x4D052345, .cmpLtN32 5 17 81),
    (0x4D02A112, .cmpLtF32 2 80 68),
    (0x4D817A1C, .cmpLeI32 1 61 7),
    (0x4D824AE9, .cmpLeN32 2 37 58),
    (0x4D832802, .cmpLeF32 3 20 0),
    (0x4E39669A, .sel 57 51 38 2),
    (0x50126AB0, .xlaneFrom 18 53 44),
    (0x5030503D, .xlaneBack 48 40 15),
    (0x506B5402, .xlaneFwd 107 42 0),
    (0x5029C0AF, .xlaneSwap 41 96 43),
    (0x50EB643C, .lshB32 107 50 15),
    (0x50F8EC65, .lshB8 120 118 25),
    (0x5123DA18, .bcast 35 109 6),
    (0x51800200, .wtestEvery 0 1),
    (0x51850401, .wtestSome 5 2),
    (0x51840602, .wtestAgree 4 3),
    (0x52210400, .ballot 33 2),
    (0x5477481A, .faddF32 119 36 6 2),
    (0x54E15FD1, .fsubF32 97 47 116 1),
    (0x5562F736, .fmulF32 98 123 77 2),
    (0x55BCD892, .ffmaF32 60 108 36 2),
    (0x565F0790, .fminF32 95 3 100),
    (0x563406DD, .fminNumF32 52 3 55)] : List (Nat × Instr)).all (fun e => decide (decodeWord e.1 = .ok e.2)) = true := by decide

/-- Words written out from the opcode table: each row's word with a value of its own in every field. -/
theorem test_decode_4 : ([
    (0x56C2C430, .fmaxF32 66 98 12),
    (0x56AC7969, .fmaxNumF32 44 60 90),
    (0x57068800, .fabsF32 6 68),
    (0x57483601, .fnegF32 72 27),
    (0x575BDDA6, .fcopysignF32 91 110 105),
    (0x580B920D, .frcpF32 11 73 13),
    (0x58A42A06, .frsqF32 36 21 6),
    (0x5961C030, .fsqrtF32 97 96 3 0),
    (0x59805807, .fexp2F32 0 44 7),
    (0x5A0C7C0B, .flog2F32 12 62 11),
    (0x5AE5D202, .fsinF32 101 105 2),
    (0x5AFB7E19, .fcosF32 123 63 9),
    (0x5B49F053, .cvtf 73 120 1 2 3),
    (0x5BDAD3A0, .cvti 90 105 6 4 0),
    (0x5C535200, .sbpackSb3 83 41),
    (0x5C630201, .sbpackSb5 99 1),
    (0x5C31D402, .sbpackSb8 49 106),
    (0x5CBEE800, .sbunpSb3 62 116),
    (0x5CFC1A01, .sbunpSb5 124 13),
    (0x5C844002, .sbunpSb8 4 32),
    (0x5D011200, .ckAccB32 1 9),
    (0x5D01A801, .ckAccB64 1 84),
    (0x6050AD6B, .ldN8 80 86 22 11),
    (0x60BAA182, .ldI8 58 80 24 2)] : List (Nat × Instr)).all (fun e => decide (decodeWord e.1 = .ok e.2)) = true := by decide

/-- Words written out from the opcode table: each row's word with a value of its own in every field. -/
theorem test_decode_5 : ([
    (0x61046B81, .ldN16 4 53 24 1),
    (0x61B508A0, .ldB32 53 4 10 0),
    (0x620A4B48, .ldB64 10 37 20 8),
    (0x62D62A4F, .ldRoB32 86 21 4 15),
    (0x636473E4, .ldRoB64 100 57 30 4),
    (0x645800A0, .stB8 88 0 10),
    (0x64E8C3C0, .stB16 104 97 28),
    (0x65492480, .stB32 73 18 8),
    (0x65AC8820, .stB64 44 68 2),
    (0x663A8A20, .stNtB32 58 69 2),
    (0x66B29500, .stNtB64 50 74 16),
    (0x6742DA40, .tst 66 109 4),
    (0x67805B0E, .retract 0 45 16 14),
    (0x6802D73A, .ldsN8 2 107 19 10),
    (0x68C97703, .ldsN16 73 59 16 3),
    (0x69597035, .ldsB32 89 56 3 5),
    (0x69B2F9E0, .ldsB64 50 124 30 0),
    (0x6A1ED6A0, .stsB8 30 107 10),
    (0x6ADB6FA0, .stsB16 91 55 26),
    (0x6B7D9190, .stsB32 125 72 25),
    (0x6BFEE8A0, .stsB64 126 116 10),
    (0x6C4225EE, .atomAdd 66 18 7 2 14),
    (0x6CD00288, .atomMin 80 1 2 0 8),
    (0x6D77754C, .atomMax 119 58 5 0 12)] : List (Nat × Instr)).all (fun e => decide (decodeWord e.1 = .ok e.2)) = true := by decide

/-- Words written out from the opcode table: each row's word with a value of its own in every field. -/
theorem test_decode_6 : ([
    (0x6DC5CFC9, .atomAnd 69 103 7 0 9),
    (0x6E381F0E, .atomOr 56 15 4 0 14),
    (0x6ED89066, .atomXor 88 72 1 2 6),
    (0x6F3CD083, .atomXchg 60 104 2 0 3),
    (0x6FB8A826, .atomCas 56 84 0 2 6),
    (0x70001CC0, .settle 14 12),
    (0x70CC6340, .redF32 76 49 20),
    (0x713F60E0, .redBf16 63 48 14),
    (0x71A6CC40, .redE4m3 38 102 4),
    (0x727A5260, .redE5m2 122 41 6),
    (0x72A7893F, .combLd 39 68 19 15),
    (0x734CACB0, .combSt 76 86 11),
    (0x73865F00, .epiSt 0 6 47 16),
    (0x743E8E6F, .mma 7 6 4 230 15),
    (0x74CAA87B, .mmaZ 9 2 5 135 11),
    (0x750D0000, .accZero 13 0),
    (0x75020A01, .accMov 2 5 0),
    (0x752E1E26, .accRd 46 15 9),
    (0x750D826B, .accWr 13 65 26),
    (0x75DC0015, .gets 92 21),
    (0x763B0040, .qpush 59 4),
    (0x76AC0036, .qpop 44 3 6),
    (0xC0044754, .gAddB32 4 35 85),
    (0xC003579D, .gAddSatI32 3 43 103)] : List (Nat × Instr)).all (fun e => decide (decodeWord e.1 = .ok e.2)) = true := by decide

/-- Words written out from the opcode table: each row's word with a value of its own in every field. -/
theorem test_decode_7 : ([
    (0xC0133D6A, .gAddSatN32 19 30 90),
    (0xC0901664, .gSubB32 16 11 25),
    (0xC0A28BA9, .gSubSatI32 34 69 106),
    (0xC0E4211E, .gSubSatN32 100 16 71),
    (0xC13877AC, .gMulLoB32 56 59 107),
    (0xC165CE79, .gMulHiI32 101 103 30),
    (0xC1145EB6, .gMulHiN32 20 47 45),
    (0xC19BB8CC, .gMadB32 27 92 51),
    (0xC230A1E8, .gMinI32 48 80 122),
    (0xC24A3499, .gMinN32 74 26 38),
    (0xC2F97900, .gMaxI32 121 60 64),
    (0xC29A3BB5, .gMaxN32 26 29 109),
    (0xC3263020, .gAddB64 38 24 8),
    (0xC34ED471, .gSubB64 78 106 28),
    (0xC46CED8E, .gAddi 108 118 398),
    (0xC4907D86, .gMuli 16 62 390),
    (0xC5180BE7, .gAndi 24 5 487),
    (0xC5D9D39C, .gOri 89 105 412),
    (0xC6474259, .gXori 71 33 89),
    (0xC6DA3C03, .gShli 90 30 3),
    (0xC71A0A1E, .gShri 26 5 30),
    (0xC7C71217, .gSari 71 9 23),
    (0xC87DC0F8, .gAndB32 125 96 62),
    (0xC80ABF6D, .gOrB32 10 95 91)] : List (Nat × Instr)).all (fun e => decide (decodeWord e.1 = .ok e.2)) = true := by decide

/-- Words written out from the opcode table: each row's word with a value of its own in every field. -/
theorem test_decode_8 : ([
    (0xC82AFB7A, .gXorB32 42 125 94),
    (0xC8484237, .gAndnB32 72 33 13),
    (0xC8D27DE8, .gShlB32 82 62 122),
    (0xC8B77C61, .gShrN32 55 62 24),
    (0xC8E48AA6, .gSarI32 100 69 41),
    (0xC8815BD7, .gRotB32 1 45 117),
    (0xC90BA400, .gPopcB32 11 82),
    (0xC924A001, .gClzB32 36 80),
    (0xC94EEE02, .gCtzB32 78 119),
    (0xC95DA603, .gBrevB32 93 83),
    (0xC9D9414C, .gBfeN32 89 32 83),
    (0xC99F1445, .gBfeI32 31 10 17),
    (0xCA6365AC, .gBfiB32 99 50 107),
    (0xCA924A00, .gMovB32 18 37),
    (0xCAF2EC01, .gMovB64 114 118),
    (0xCB302F3E, .lcLo 48 12094),
    (0xCBD2D348, .lcHi 82 54088),
    (0xCC2D5074, .gCmpEqB32 45 40 29),
    (0xCC2F2319, .gCmpEqF32 47 17 70),
    (0xCCF55FAC, .gCmpNeB32 117 47 107),
    (0xCCEA4079, .gCmpNeF32 106 32 30),
    (0xCD070A34, .gCmpLtI32 7 5 13),
    (0xCD48CD41, .gCmpLtN32 72 102 80),
    (0xCD75D1FE, .gCmpLtF32 117 104 127)] : List (Nat × Instr)).all (fun e => decide (decodeWord e.1 = .ok e.2)) = true := by decide

/-- Words written out from the opcode table: each row's word with a value of its own in every field. -/
theorem test_decode_9 : ([
    (0xCDDA67CC, .gCmpLeI32 90 51 115),
    (0xCD86F06D, .gCmpLeN32 6 120 27),
    (0xCDDD29FE, .gCmpLeF32 93 20 127),
    (0xCE269B2A, .gFaddF32 38 77 74 2),
    (0xCE8A2560, .gFsubF32 10 18 88 0),
    (0xCF1422E2, .gFmulF32 20 17 56 2),
    (0xCFFC662F, .gFfmaF32 124 51 11 3),
    (0xD0051CDA, .br 335066),
    (0xD0ECE2BC, .call 7135932),
    (0xD1007000, .jmp 56),
    (0xD1980000, .ret 24),
    (0xD2000320, .guard 3 2),
    (0xD2000A10, .guardN 2 1),
    (0xD2800000, .exit),
    (0xD3000000, .yield),
    (0xD3800020, .join 2),
    (0xD40000B0, .leave 11),
    (0xD4800090, .wait 9),
    (0xD5000000, .barG),
    (0xD5000100, .barC),
    (0xD5800BA0, .kmov 11 10),
    (0xD600A200, .trap 162),
    (0xD6800000, .rett),
    (0xD7000000, .nop)] : List (Nat × Instr)).all (fun e => decide (decodeWord e.1 = .ok e.2)) = true := by decide

/-- Words written out from the opcode table: each row's word with a value of its own in every field. -/
theorem test_decode_10 : ([
    (0xD7830000, .sleep 3),
    (0xD86C3000, .gGets 108 96),
    (0xD8AF0A80, .sets 47 21 0),
    (0xD9000000, .acquire),
    (0xD9100100, .acquireExplicit 16),
    (0xD9B04000, .spawn 48 32),
    (0xDA160000, .joindec 22),
    (0xDAA00000, .cancel 32),
    (0xDB6A7000, .submit 106 56),
    (0xDB8000B0, .qbind 0 11),
    (0xDC000000, .fenceAcq),
    (0xDC000100, .fenceRel),
    (0xDC000200, .fenceFull),
    (0xDC800000, .drainNt),
    (0xDD2E0A00, .wbRange 46 5),
    (0xDDB46E00, .invRange 52 55),
    (0xDE2D3CC5, .ldgB32 45 30 197),
    (0xDEAADC24, .ldgB64 42 110 36),
    (0xDF2AC4C6, .stgB32 42 98 198),
    (0xDFC6B17E, .stgB64 70 88 382),
    (0xE020A800, .cpSc 32 84),
    (0xE0A60000, .waitAny 38),
    (0xE16E0000, .waitAll 110),
    (0xE1992000, .ffrTag 25 16)] : List (Nat × Instr)).all (fun e => decide (decodeWord e.1 = .ok e.2)) = true := by decide

/-- Words written out from the opcode table: each row's word with a value of its own in every field. -/
theorem test_decode_11 : ([
    (0xE1BBA900, .ffrTagHeld 59 84),
    (0xE2660000, .prefetch 102),
    (0xE23A0100, .prefetchL2 58),
    (0xE2DA8F53, .ldsgB32 90 71 339),
    (0xE306BAA0, .stsgB32 6 93 160),
    (0xE3818826, .rdlane 1 68 2 6),
    (0xE41ACDF0, .cpy 26 102 31),
    (0xE4EEE020, .relayout 110 112 2),
    (0xE55C0000, .pub 92),
    (0xE546D610, .pubOpen 70 107),
    (0xE5660020, .pubDrop 102),
    (0xE5320030, .pubClose 50),
    (0xE5B02740, .wrlane 48 19 20),
    (0xE625010A, .votec 37 1 10),
    (0xE6800120, .ckChk 0 1 2),
    (0xE7620070, .obres 98 7),
    (0xE7F33A40, .obfill 115 29 4),
    (0xE8764C00, .obfillX 118 38 0),
    (0xE8801440, .cmergeSoft 2 1 4 0),
    (0xE8801DAD, .cmergeSum 3 1 10 13),
    (0xE8803647, .cmergeIsum 6 1 4 7),
    (0xE95494BA, .attnQk 42 4 5 11 10),
    (0xE98DF17D, .attnPv 6 15 8 23 13),
    (0xEA6114C2, .combSum 48 8 5 12 2)] : List (Nat × Instr)).all (fun e => decide (decodeWord e.1 = .ok e.2)) = true := by decide

/-- Words written out from the opcode table: each row's word with a value of its own in every field. -/
theorem test_decode_12 : ([
    (0xEAF6C0E4, .topk 118 24 14 4),
    (0xEAD56C18, .topkC 85 13 1 8),
    (0xEB31E800, .gatherComb 24 30 8),
    (0xEB80E800, .obrel 232),
    (0xEC520700, .fabStr 41 7),
    (0xECBE0500, .fabA2a 31 5),
    (0xED580F00, .fabRing 44 15),
    (0xED820000, .qstat 2 0),
    (0xEE700200, .tlbinv 56 2),
    (0xEEC1E44D, .atomgAdd 65 114 77),
    (0xEF3A09E5, .atomgCas 58 4 485),
    (0xEFB58DF4, .cmpiEq 53 70 500),
    (0xF034A62B, .cmpiLt 52 83 43),
    (0xF0E7F358, .selz 103 121 86),
    (0xF1510060, .popk 81 6),
    (0xF1800000, .settleAll),
    (0xF27D6AE0, .migrate 62 45 46),
    (0xF2800000, .icinv),
    (0xF3220100, .combInv 17 1),
    (0xF3800000, .bkpt),
    (0xF4000000, .halt)] : List (Nat × Instr)).all (fun e => decide (decodeWord e.1 = .ok e.2)) = true := by decide

/-- A term that breaks a limit, and the limit: WellFormed refuses the term, and the decoder its word. -/
theorem test_refuses_1 : ([
    (0x432BB0B0, .oddPair, .addB64 43 88 44),
    (0x434C7F28, .oddPair, .addB64 76 63 74),
    (0x43227964, .oddPair, .addB64 34 60 89),
    (0x436F3539, .oddPair, .subB64 111 26 78),
    (0x432AA271, .oddPair, .subB64 42 81 28),
    (0x437CB94D, .oddPair, .subB64 124 92 83),
    (0x46F4BCB5, .fieldRange, .shli 116 94 181),
    (0x476F718D, .fieldRange, .shri 111 56 397),
    (0x47E3CC4C, .fieldRange, .sari 99 102 76),
    (0x4AF17C51, .fieldRange, .lutN4 113 62 20),
    (0x4B41F401, .oddPair, .movB64 65 122),
    (0x4B7EEA01, .oddPair, .movB64 126 117),
    (0x4C174580, .predicateDestination, .cmpEqB32 23 34 96),
    (0x4C408DF5, .predicateDestination, .cmpEqF32 64 70 125),
    (0x4CDEE080, .predicateDestination, .cmpNeB32 94 112 32),
    (0x4C8A788D, .predicateDestination, .cmpNeF32 10 60 35),
    (0x4D681648, .predicateDestination, .cmpLtI32 104 11 18),
    (0x4D2EF435, .predicateDestination, .cmpLtN32 46 122 13),
    (0x4D573EFA, .predicateDestination, .cmpLtF32 87 31 62),
    (0x4DBE45F0, .predicateDestination, .cmpLeI32 62 34 124),
    (0x4D89D101, .predicateDestination, .cmpLeN32 9 104 64),
    (0x4DF97D5E, .predicateDestination, .cmpLeF32 121 62 87),
    (0x516AA890, .fieldRange, .bcast 106 84 36),
    (0x51870400, .predicateDestination, .wtestEvery 7 2),
    (0x5180CC00, .fieldRange, .wtestEvery 0 102),
    (0x51FB0201, .predicateDestination, .wtestSome 123 1)] : List (Nat × Reject × Instr)).all (fun e => decide (e.2.2.check = some e.2.1) && decide (decodeWord e.1 = .error e.2.1)) = true := by decide

/-- A term that breaks a limit, and the limit: WellFormed refuses the term, and the decoder its word. -/
theorem test_refuses_2 : ([
    (0x51836601, .fieldRange, .wtestSome 3 51),
    (0x51D90602, .predicateDestination, .wtestAgree 89 3),
    (0x5185B202, .fieldRange, .wtestAgree 5 89),
    (0x522C4000, .fieldRange, .ballot 44 32),
    (0x5B0A7DBA, .fieldRange, .cvtf 10 62 6 7 2),
    (0x5B71A410, .oddPair, .cvtf 113 82 0 2 0),
    (0x5BFCF578, .fieldRange, .cvti 124 122 5 7 0),
    (0x5BD4EF8B, .oddPair, .cvti 84 119 6 1 3),
    (0x5D35EA00, .checksumField, .ckAccB32 53 117),
    (0x5D0C9401, .checksumField, .ckAccB64 12 74),
    (0x5D000A01, .oddPair, .ckAccB64 0 5),
    (0x604CE151, .oddPair, .ldN8 76 112 21 1),
    (0x608CA85D, .oddPair, .ldI8 12 84 5 13),
    (0x61644F1B, .oddPair, .ldN16 100 39 17 11),
    (0x61F7E817, .oddPair, .ldB32 119 116 1 7),
    (0x620A6294, .oddPair, .ldB64 10 49 9 4),
    (0x6249BAE7, .oddPair, .ldB64 73 93 14 7),
    (0x62E61CBF, .oddPair, .ldRoB32 102 14 11 15),
    (0x636A273D, .oddPair, .ldRoB64 106 19 19 13),
    (0x63713EC6, .oddPair, .ldRoB64 113 31 12 6),
    (0x642144D0, .oddPair, .stB8 33 34 13),
    (0x64E40A90, .oddPair, .stB16 100 5 9),
    (0x657CD990, .oddPair, .stB32 124 108 25),
    (0x65E4C170, .oddPair, .stB64 100 96 23),
    (0x6581CAC0, .oddPair, .stB64 1 101 12),
    (0x6644CEB0, .oddPair, .stNtB32 68 103 11)] : List (Nat × Reject × Instr)).all (fun e => decide (e.2.2.check = some e.2.1) && decide (decodeWord e.1 = .error e.2.1)) = true := by decide

/-- A term that breaks a limit, and the limit: WellFormed refuses the term, and the decoder its word. -/
theorem test_refuses_3 : ([
    (0x66981650, .oddPair, .stNtB64 24 11 5),
    (0x66AD6780, .oddPair, .stNtB64 45 51 24),
    (0x671F0BD0, .oddPair, .tst 31 5 29),
    (0x6783043E, .oddPair, .retract 3 2 3 14),
    (0x67D9BC64, .predicateDestination, .retract 89 94 6 4),
    (0x69E35CA6, .oddPair, .ldsB64 99 46 10 6),
    (0x6BC70CA0, .oddPair, .stsB64 71 6 10),
    (0x6C2D3F9A, .lookaheadField, .atomAdd 45 31 6 1 10),
    (0x6C971093, .lookaheadField, .atomMin 23 8 2 1 3),
    (0x6D75AD1A, .lookaheadField, .atomMax 117 86 4 1 10),
    (0x6D8F0F3F, .lookaheadField, .atomAnd 15 7 4 3 15),
    (0x6E454999, .lookaheadField, .atomOr 69 36 6 1 9),
    (0x6E998D57, .lookaheadField, .atomXor 25 70 5 1 7),
    (0x6F765A7F, .lookaheadField, .atomXchg 118 45 1 3 15),
    (0x6FC69416, .lookaheadField, .atomCas 70 74 0 1 6),
    (0x6FFBFF06, .oddPair, .atomCas 123 127 4 0 6),
    (0x70004970, .oddPair, .settle 36 23),
    (0x70A90190, .oddPair, .redF32 41 0 25),
    (0x71262F10, .oddPair, .redBf16 38 23 17),
    (0x71CDD670, .oddPair, .redE4m3 77 107 7),
    (0x7248E4F0, .oddPair, .redE5m2 72 114 15),
    (0x72DDAED6, .oddPair, .combLd 93 87 13 6),
    (0x7339F200, .oddPair, .combSt 57 121 0),
    (0x73BA8FD0, .oddPair, .epiSt 3 10 71 29),
    (0x73F67CC0, .fieldRange, .epiSt 7 6 62 12),
    (0x75690906, .fieldRange, .accRd 105 4 65)] : List (Nat × Reject × Instr)).all (fun e => decide (e.2.2.check = some e.2.1) && decide (decodeWord e.1 = .error e.2.1)) = true := by decide

/-- A term that breaks a limit, and the limit: WellFormed refuses the term, and the decoder its word. -/
theorem test_refuses_4 : ([
    (0x750A9137, .fieldRange, .accWr 10 72 77),
    (0x75D800D2, .absentRegister, .gets 88 210),
    (0x75B10061, .oddPair, .gets 49 97),
    (0xC363A1C0, .oddPair, .gAddB64 99 80 112),
    (0xC31606B8, .oddPair, .gAddB64 22 3 46),
    (0xC350185C, .oddPair, .gAddB64 80 12 23),
    (0xC32BB101, .oddPair, .gSubB64 43 88 64),
    (0xC356B269, .oddPair, .gSubB64 86 89 26),
    (0xC336AD05, .oddPair, .gSubB64 54 86 65),
    (0xC6C1B0E3, .fieldRange, .gShli 65 88 227),
    (0xC772469B, .fieldRange, .gShri 114 35 155),
    (0xC78177FB, .fieldRange, .gSari 1 59 507),
    (0xCA8DC801, .oddPair, .gMovB64 13 100),
    (0xCACE5201, .oddPair, .gMovB64 78 41),
    (0xD1007A00, .oddPair, .jmp 61),
    (0xD19B0000, .oddPair, .ret 27),
    (0xD20004B0, .fieldRange, .guard 4 11),
    (0xD2000DF0, .fieldRange, .guardN 5 15),
    (0xD38000E0, .maskField, .join 14),
    (0xD40000C0, .maskField, .leave 12),
    (0xD48000F0, .maskField, .wait 15),
    (0xD5800D50, .maskField, .kmov 13 5),
    (0xD58008E0, .maskField, .kmov 8 14),
    (0xD81CAD80, .absentRegister, .gGets 28 347),
    (0xD84F0E80, .oddPair, .gGets 79 29),
    (0xD89B7580, .absentRegister, .sets 27 235 0)] : List (Nat × Reject × Instr)).all (fun e => decide (e.2.2.check = some e.2.1) && decide (decodeWord e.1 = .error e.2.1)) = true := by decide

/-- A term that breaks a limit, and the limit: WellFormed refuses the term, and the decoder its word. -/
theorem test_refuses_5 : ([
    (0xD8DB1000, .oddPair, .sets 91 32 0),
    (0xD89301C0, .fieldRange, .sets 19 3 1),
    (0xD94F0100, .oddPair, .acquireExplicit 79),
    (0xD9990000, .oddPair, .spawn 25 0),
    (0xDA270000, .oddPair, .joindec 39),
    (0xDAA10000, .oddPair, .cancel 33),
    (0xDB0B8600, .oddPair, .submit 11 67),
    (0xDB800760, .fieldRange, .qbind 7 6),
    (0xDD5BC000, .oddPair, .wbRange 91 96),
    (0xDDE74000, .oddPair, .invRange 103 32),
    (0xDE769E62, .oddPair, .ldgB32 118 79 98),
    (0xDEF3A583, .oddPair, .ldgB64 115 82 387),
    (0xDEDE32CD, .oddPair, .ldgB64 94 25 205),
    (0xDF0993A2, .oddPair, .stgB32 9 73 418),
    (0xDFFD005F, .oddPair, .stgB64 125 0 95),
    (0xDFC2422C, .oddPair, .stgB64 66 33 44),
    (0xE06D4C00, .oddPair, .cpSc 109 38),
    (0xE0064E00, .oddPair, .cpSc 6 39),
    (0xE09F0000, .oddPair, .waitAny 31),
    (0xE1370000, .oddPair, .waitAll 55),
    (0xE1C4A600, .oddPair, .ffrTag 68 83),
    (0xE1AEEF00, .oddPair, .ffrTagHeld 46 119),
    (0xE22B0000, .oddPair, .prefetch 43),
    (0xE2750100, .oddPair, .prefetchL2 117),
    (0xE44B9CE0, .oddPair, .cpy 75 78 14),
    (0xE41A0E50, .oddPair, .cpy 26 7 5)] : List (Nat × Reject × Instr)).all (fun e => decide (e.2.2.check = some e.2.1) && decide (decodeWord e.1 = .error e.2.1)) = true := by decide

/-- A term that breaks a limit, and the limit: WellFormed refuses the term, and the decoder its word. -/
theorem test_refuses_6 : ([
    (0xE4EB2840, .oddPair, .relayout 107 20 4),
    (0xE4E417E0, .oddPair, .relayout 100 11 30),
    (0xE4A8B510, .oddPair, .relayout 40 90 17),
    (0xE5130000, .oddPair, .pub 19),
    (0xE51B2610, .oddPair, .pubOpen 27 19),
    (0xE5550020, .oddPair, .pubDrop 85),
    (0xE5290030, .oddPair, .pubClose 41),
    (0xE6800C30, .fieldRange, .ckChk 3 0 3),
    (0xE6800140, .checksumField, .ckChk 0 1 4),
    (0xE7610060, .oddPair, .obres 97 6),
    (0xE880647A, .fieldRange, .cmergeSoft 12 1 7 10),
    (0xE8804883, .fieldRange, .cmergeSoft 9 0 8 3),
    (0xE880756C, .fieldRange, .cmergeSum 14 1 6 12),
    (0xE8802147, .fieldRange, .cmergeSum 4 0 4 7),
    (0xE8806EEE, .fieldRange, .cmergeIsum 13 1 14 14),
    (0xE8801A9C, .fieldRange, .cmergeIsum 3 0 9 12),
    (0xEB675000, .oddPair, .gatherComb 51 21 0),
    (0xEE260300, .fieldRange, .tlbinv 19 3),
    (0xEEDD9B7F, .oddPair, .atomgAdd 93 77 383),
    (0xEF7F6458, .oddPair, .atomgCas 127 50 88),
    (0xEF628A0D, .oddPair, .atomgCas 98 69 13),
    (0xF13F00F0, .maskField, .popk 63 15),
    (0xF3140300, .fieldRange, .combInv 10 3)] : List (Nat × Reject × Instr)).all (fun e => decide (e.2.2.check = some e.2.1) && decide (decodeWord e.1 = .error e.2.1)) = true := by decide

end Sys2Proof.Tests
end

section
namespace Sys2Proof.Proofs.MachineState
open Sys2Proof Sys2Proof.Machine Sys2Proof.Claims

/-! ## Issuing -/

theorem stores_of_canIssue {s : State} (h : CanIssue s) : s.stores = [] := by
  obtain ⟨-, -, -, stores, -⟩ := h
  exact stores

/-- The state once a run that is ready has issued: the PCs stand behind the instruction and the effect, if a lane is enabled, has taken place. -/
theorem issue_past (g : Sig) (body : Exec → State → State) (s : State) (h : CanIssue s) (hw : Within (g.reads ++ g.writes) s)
    (hf : g.fence = false) (hc : g.waitsFor = []) (hp : g.privileged = true → s.privileged = true)
    (hh : g.handlerOnly = true → s.inHandler = true) (hn : g.notInHandler = false) (t : State)
    (ht : (if enabled g.perLane s = 0 then past g.perLane s else body (execOf g.perLane s) (past g.perLane s)) = t)
    (hs : t.stores = []) (hm : t.mem = s.mem) : issue g body s = .next t := by
  have clear : clearOf g.waitsFor (~~~0#32) s = true := by simp [clearOf, hc]
  rw [issue_ready g body s h hw (by simp [hf]) clear hp hh (by simp [hn])]
  exact next_of _ s t ht hs hm

/-- The same for an instruction that acts once for its run, which is not empty. -/
theorem issue_group (g : Sig) (body : Exec → State → State) (s : State) (h : CanIssue s) (hl : g.perLane = false)
    (hw : Within (g.reads ++ g.writes) s) (hf : g.fence = false) (hc : g.waitsFor = []) (hp : g.privileged = true → s.privileged = true)
    (hh : g.handlerOnly = true → s.inHandler = true) (hn : g.notInHandler = false) (t : State)
    (ht : body (execOf false s) (past false s) = t) (hs : t.stores = []) (hm : t.mem = s.mem) : issue g body s = .next t := by
  refine issue_past g body s h hw hf hc hp hh hn t ?_ hs hm
  obtain ⟨-, run, -⟩ := h
  rw [hl, if_neg (show enabled false s ≠ 0 from run), ht]

/-- What an instruction that acts once for its run leaves, its stores laid into memory. -/
theorem issue_group_stores (g : Sig) (body : Exec → State → State) (s : State) (h : CanIssue s) (hl : g.perLane = false)
    (hw : Within (g.reads ++ g.writes) s) (hf : g.fence = false) (hc : g.waitsFor = []) (hp : g.privileged = false) (hh : g.handlerOnly = false)
    (hn : g.notInHandler = false) (t : State) (ht : body (execOf false s) (past false s) = t) :
    issue g body s = .next { t with mem := s.mem.lay t.stores, stores := [] } := by
  have clear : clearOf g.waitsFor (~~~0#32) s = true := by simp [clearOf, hc]
  rw [issue_ready g body s h hw (by simp [hf]) clear (by simp [hp]) (by simp [hh]) (by simp [hn])]
  obtain ⟨-, run, -⟩ := h
  have acts : (if enabled g.perLane s = 0 then past g.perLane s else body (execOf g.perLane s) (past g.perLane s)) = t := by
    rw [hl, if_neg (show enabled false s ≠ 0 from run), ht]
  simp only [next, finish, acts]

/-- Group registers need no allotment (R14). -/
theorem within_sReg (n : Fin 128) (s : State) : Within (sReg n) s := by
  intro r hr
  obtain rfl := List.mem_singleton.mp hr
  rfl

theorem within_sPair (n : Fin 128) (s : State) : Within (sPair n) s := by
  intro r hr
  rcases List.mem_pair.mp hr with rfl | rfl <;> rfl

theorem within_nil (s : State) : Within [] s := nofun

theorem within_append {a b : List Reg} {s : State} (ha : Within a s) (hb : Within b s) : Within (a ++ b) s := by
  intro r hr
  exact (List.mem_append.mp hr).elim (ha r) (hb r)

@[simp] theorem enabled_true (s : State) : enabled true s = laneSet s := rfl
@[simp] theorem enabled_false (s : State) : enabled false s = s.iss.run := rfl
@[simp] theorem past_mem (b : Bool) (s : State) : (past b s).mem = s.mem := rfl
@[simp] theorem past_stores (b : Bool) (s : State) : (past b s).stores = s.stores := rfl

/-! ## Reading special registers -/

/-- The lowest lane of a mask. -/
theorem lowest_eq {m : Mask} {l : Fin 32} (h : bit m l = true) (least : ∀ j, bit m j = true → l ≤ j) : lowest m = some l := by
  have sorted : (lanesOf m).Pairwise (· < ·) := List.Pairwise.filter _ (by decide)
  have mem : l ∈ lanesOf m := (mem_lanesOf m l).mpr h
  unfold lowest
  cases e : lanesOf m with
  | nil => simp [e] at mem
  | cons j t =>
    rw [e] at mem sorted
    have hj : l ≤ j := least j ((mem_lanesOf m j).mp (by simp [e]))
    rcases List.mem_cons.mp mem with rfl | ht
    · rfl
    · exact absurd ((List.pairwise_cons.mp sorted).1 l ht) (not_lt.mpr hj)

/-- %retcode needs no allotment. -/
theorem within_specialReg (n : Nat) (s : State) : Within (specialReg n) s := by
  intro r hr
  unfold specialReg at hr
  split at hr
  · obtain rfl := List.mem_singleton.mp hr
    rfl
  · cases hr

/-- %progress (R34): COUNT stands above the promise. -/
theorem specialValue_progress (s : State) (l : Fin 32) :
    specialValue 0x22 s l = BitVec.ofNat 64 (s.w.count * 2 ^ 16 + if s.w.promise then 1 else 0) :=
  congrArg (BitVec.ofNat 64) (Nat.add_comm _ _)

/-- %aliasused (R35) counts the entries of the context. -/
theorem specialValue_aliasUsed (s : State) (l : Fin 32) :
    specialValue 0x31 s l = BitVec.ofNat 64 (s.aliases.countP fun e => e.ctx == s.grp.task.ctx) :=
  congrArg (BitVec.ofNat 64) List.countP_eq_length_filter.symm

/-- %mask0 to %mask11 are the mask registers (R33). -/
theorem specialValue_mask (k : Fin 12) (s : State) (l : Fin 32) : specialValue (0x10 + k.val) s l = s.w.k[k].setWidth 64 := by
  have range : 0x10 ≤ 0x10 + k.val ∧ 0x10 + k.val < 0x1C := by omega
  simp [specialValue, range, Wave.rdK]

/-- %ck0 to %ck3 are the checksum registers. -/
theorem specialValue_checksum (h : Fin 4) (s : State) (l : Fin 32) : specialValue (0x1C + h.val) s l = s.w.h[h] := by
  have range : ¬ (0x10 ≤ 0x1C + h.val ∧ 0x1C + h.val < 0x1C) ∧ 0x1C ≤ 0x1C + h.val ∧ 0x1C + h.val < 0x20 := by omega
  simp [specialValue, range]

/-- The table of R28 gives the width and the value of each special register; an issue changes none of the values. -/
theorem specials_value : ∀ e ∈ specials, specialWide e.1 = e.2.1 ∧ ∀ b s l, specialValue e.1 (past b s) l = e.2.2 s l := by
  intro e he
  rw [specials, List.mem_append, List.mem_append] at he
  rcases he with (he | he) | he
  · revert e
    simp only [List.forall_mem_cons]
    exact ⟨⟨rfl, fun _ _ _ => rfl⟩, ⟨rfl, fun _ _ _ => rfl⟩, ⟨rfl, fun _ _ _ => rfl⟩, ⟨rfl, fun _ _ _ => rfl⟩, ⟨rfl, fun _ _ _ => rfl⟩,
      ⟨rfl, fun _ _ _ => rfl⟩, ⟨rfl, fun _ _ _ => rfl⟩, ⟨rfl, fun _ _ _ => rfl⟩, ⟨rfl, fun _ _ _ => rfl⟩,
      ⟨rfl, fun _ s l => specialValue_progress s l⟩, ⟨rfl, fun _ _ _ => rfl⟩, ⟨rfl, fun _ s l => specialValue_aliasUsed s l⟩,
      ⟨rfl, fun _ _ _ => rfl⟩, ⟨rfl, fun _ _ _ => rfl⟩, ⟨rfl, fun _ _ _ => rfl⟩, ⟨rfl, fun _ _ _ => rfl⟩, ⟨rfl, fun _ _ _ => rfl⟩,
      ⟨rfl, fun _ _ _ => rfl⟩, ⟨rfl, fun _ _ _ => rfl⟩, ⟨rfl, fun _ _ _ => rfl⟩, ⟨rfl, fun _ _ _ => rfl⟩, by simp⟩
  · obtain ⟨k, -, rfl⟩ := List.mem_map.mp he
    have narrow : ∀ k : Fin 12, specialWide (0x10 + k.val) = false := by decide
    exact ⟨narrow k, fun b s l => specialValue_mask k (past b s) l⟩
  · obtain ⟨h, -, rfl⟩ := List.mem_map.mp he
    have wide : ∀ h : Fin 4, specialWide (0x1C + h.val) = true := by decide
    exact ⟨wide h, fun b s l => specialValue_checksum h (past b s) l⟩

/-- The lane form of gets as one write: a pair or a register, and nothing where no lane is enabled. -/
theorem getsLane_past (d : Fin 128) (n : Nat) (value : State → Fin 32 → DWord) (s : State)
    (hv : ∀ l, specialValue n (past true s) l = value s l) :
    (if enabled true s = 0 then past true s else getsLane d n (execOf true s) (past true s)) =
      (past true s).modW fun w => if specialWide n then w.wrVV d (laneSet s) fun l => value s l
        else w.wrV d (laneSet s) fun l => (value s l).setWidth 32 := by
  have values : specialValue n (past true s) = value s := funext hv
  by_cases none : laneSet s = 0
  · rw [enabled_true, if_pos none, none]
    cases specialWide n
    · exact (congrArg (past true s).modW (funext fun w => Wave.wrV_zero w d _)).symm
    · exact (congrArg (past true s).modW (funext fun w => Wave.wrVV_zero w d _)).symm
  · rw [enabled_true, if_neg none, getsLane, values]
    cases specialWide n <;> rfl

/-- R28 and R267. -/
theorem specialRegisterReads : SpecialRegisterReads := by
  rintro ⟨n0, wide, value⟩ he n rfl d s h
  obtain ⟨hw, hv⟩ := specials_value _ he
  obtain rfl : specialWide n.val = wide := hw
  refine ⟨fun within => ?_, fun l hl least => ?_⟩
  · refine issue_past _ _ s h (within_append (within_specialReg _ _) ?_) rfl rfl (by simp) (by simp) rfl _
      (getsLane_past d n.val value s (hv true s)) ?_ ?_
    · exact within
    · exact stores_of_canIssue (s := s) h
    · rfl
  · refine issue_group _ _ s h rfl (within_append (within_specialReg _ _) ?_) rfl rfl (by simp) (by simp) rfl _ ?_ ?_ ?_
    · split
      · exact within_sPair d s
      · exact within_sReg d s
    · have low : (lowest (execOf false s).run).getD 0 = l := congrArg (·.getD 0) (lowest_eq hl least)
      rw [getsGroup, low, hv false s l]
      rfl
    · cases specialWide n.val <;> simp [(stores_of_canIssue h)]
    · cases specialWide n.val <;> simp

/-! ## Writing special registers -/

/-- A mask register written whole keeps the lanes that are ready, waiting or parked (R138). -/
theorem wrK_eq_maskSet (k : Fin 12) (x : Mask) (w : Wave) : w.wrK k.val x = maskSet k x w := by
  have present : w.present = maskOf fun l => decide (w.st[l] ≠ .exited ∧ w.st[l] ≠ .inactive) := by
    unfold Wave.present
    congr 1
    funext l
    cases w.st[l] <;> rfl
  unfold Wave.wrK maskSet
  rw [dif_pos k.isLt, present]

/-- Release of a mask (R142) makes its waiters ready once every member waits on it. -/
theorem release_eq_released (k : Fin 12) (w : Wave) : w.release k.val = released k w := by
  have waiters (p : LaneState → Bool) (hp : ∀ x, p x = decide (x = .waiting (k.castLE (by decide)))) :
      w.lanesIn p = maskOf fun l => decide (w.st[l] = .waiting (k.castLE (by decide))) :=
    congrArg maskOf (funext fun l => hp w.st[l])
  have member : w.rdK k.val = w.k[k] := dif_pos k.isLt
  unfold Wave.release released
  rw [waiters _ fun x => by cases x <;> simp [Fin.ext_iff, Bool.beq_eq_decide_eq], member]
  rfl

theorem within_setsReads (n : Nat) (a : Fin 128) (s : State) : Within (setsReads n a false) s := by
  unfold setsReads
  cases specialWide n
  · exact within_sReg a s
  · exact within_sPair a s

/-- sets from the group set: the value of the source, once for the run, goes to the special register. -/
theorem sets_group (a : Fin 128) (n : Fin 512) (s t : State) (h : CanIssue s) (hp : n.val ≠ 0x32 ∨ s.privileged = true)
    (hh : handlerSpecial n.val = false ∨ s.inHandler = true)
    (ht : writeSpecial n.val (setsValue n.val a false (past false s)) (execOf false s) (past false s) = t) (hs : t.stores = [])
    (hm : t.mem = s.mem) : exec (.sets a n 0) s = .next t := by
  have within : Within (setsReads n.val a false ++ []) s := within_append (within_setsReads n.val a s) (within_nil s)
  have privileged (e : (n.val == 0x32) = true) : s.privileged = true := hp.resolve_left (not_not.mpr (beq_iff_eq.mp e))
  have handler (e : handlerSpecial n.val = true) : s.inHandler = true := hh.resolve_left (by simp [e])
  exact issue_group _ _ s h rfl within rfl rfl privileged handler rfl t ht hs hm

/-- A register as sets passes it on, in a pair. -/
theorem loWord_setWidth (x : Word) : loWord (x.setWidth 64) = x := BitVec.setWidth_setWidth_of_le x (by decide)

/-- %fairness takes bits 10:0 between 8 and 1024 (R34). -/
theorem clampFair_word (x : Word) : clampFair (bitsOf (x.setWidth 64).toNat 0 11) = max 8 (min (x.setWidth 11).toNat 1024) := by
  have bits : bitsOf (x.setWidth 64).toNat 0 11 = (x.setWidth 11).toNat := by
    simp only [bitsOf, BitVec.toNat_setWidth]
    omega
  rw [bits]
  unfold clampFair
  split_ifs <;> omega

/-- %aliasquota takes a value from 1 to the ceiling (R35), and CEILING one from 1 to 81920 (R367). -/
theorem clampQuota_word (c : Nat) (x : Word) : clampQuota c x.toNat = if x = 0 then 1 else min x.toNat c := by
  simp [clampQuota, BitVec.toNat_eq]

theorem clampCeiling_word (x : Word) : clampCeiling x.toNat = if x = 0 then 1 else min x.toNat 81920 := by
  simp [clampCeiling, BitVec.toNat_eq]

/-- %mask0 to %mask11 (R138): the register is written whole, and outside a handler its release is evaluated at once. -/
theorem sets_mask (a : Fin 128) (k : Fin 12) (n : Fin 512) (hn : n.val = 0x10 + k.val) (s : State) (h : CanIssue s) :
    exec (.sets a n 0) s =
      .next ((past false s).modW fun w => if s.inHandler then maskSet k (s.rdS a) w else released k (maskSet k (s.rdS a) w)) := by
  have number : n.val ≠ 0x32 ∧ handlerSpecial n.val = false ∧ specialWide n.val = false := by
    have table : ∀ k : Fin 12, 0x10 + k.val ≠ 0x32 ∧ handlerSpecial (0x10 + k.val) = false ∧ specialWide (0x10 + k.val) = false := by decide
    rw [hn]
    exact table k
  have range : 0x10 ≤ n.val ∧ n.val < 0x1C := by omega
  have register : n.val - 0x10 = k.val := by omega
  have value (l : Fin 32) : loWord (setsValue n.val a false (past false s) l) = s.rdS a := by
    simp only [setsValue, number]
    exact loWord_setWidth _
  refine sets_group a n s _ h (.inl number.1) (.inl number.2.1) ?_ (stores_of_canIssue (s := s) h) rfl
  simp only [writeSpecial, if_pos range, register, value, wrK_eq_maskSet, release_eq_released]
  rfl

/-- %ck0 to %ck3: the checksum register takes the pair. -/
theorem sets_checksum (a : Fin 128) (c : Fin 4) (n : Fin 512) (hn : n.val = 0x1C + c.val) (s : State) (h : CanIssue s) :
    exec (.sets a n 0) s = .next ((past false s).modW fun w => { w with h := w.h.set c.val (s.rdSS a) }) := by
  have number : n.val ≠ 0x32 ∧ handlerSpecial n.val = false ∧ specialWide n.val = true := by
    have table : ∀ c : Fin 4, 0x1C + c.val ≠ 0x32 ∧ handlerSpecial (0x1C + c.val) = false ∧ specialWide (0x1C + c.val) = true := by decide
    rw [hn]
    exact table c
  have range : ¬ (0x10 ≤ n.val ∧ n.val < 0x1C) ∧ 0x1C ≤ n.val ∧ n.val < 0x20 := by omega
  have register : Fin.ofNat 4 (n.val - 0x1C) = c := Fin.ext (by simp [hn])
  refine sets_group a n s _ h (.inl number.1) (.inl number.2.1) ?_ (stores_of_canIssue h) rfl
  simp only [writeSpecial, if_neg range.1, if_pos range.2, register, setsValue, number]
  rfl

/-- The registers that no write changes (R10, R28). -/
def readOnly : List Nat := [0x00, 0x01, 0x02, 0x03, 0x04, 0x05, 0x08, 0x22, 0x31, 0x40, 0x51, 0x60, 0x61]

/-- A read-only register ignores a write. -/
theorem sets_readOnly (a : Fin 128) (n : Fin 512) (hn : n.val ∈ readOnly) (s : State) (h : CanIssue s) :
    exec (.sets a n 0) s = .next (past false s) := by
  have number : ∀ n ∈ readOnly, n ≠ 0x32 ∧ handlerSpecial n = false := by decide
  have ignored : ∀ n ∈ readOnly, ∀ f x t, writeSpecial n f x t = t := by
    simp only [readOnly, List.forall_mem_cons]
    exact ⟨fun _ _ _ => rfl, fun _ _ _ => rfl, fun _ _ _ => rfl, fun _ _ _ => rfl, fun _ _ _ => rfl, fun _ _ _ => rfl, fun _ _ _ => rfl,
      fun _ _ _ => rfl, fun _ _ _ => rfl, fun _ _ _ => rfl, fun _ _ _ => rfl, fun _ _ _ => rfl, fun _ _ _ => rfl, by simp⟩
  exact sets_group a n s _ h (.inl (number _ hn).1) (.inl (number _ hn).2) (ignored _ hn _ _ _) (stores_of_canIssue h) rfl

/-- R33 to R35, R37, R138 and R268. -/
theorem specialRegisterWrites : SpecialRegisterWrites := by
  intro a s h
  have stores : s.stores = [] := (stores_of_canIssue h)
  refine ⟨fun k n hn => sets_mask a k n hn s h, fun c n hn => sets_checksum a c n hn s h, ?_, ?_, ?_, fun priv => ?_,
    fun handler => ⟨?_, ?_, ?_, ?_, fun within => ?_⟩, fun n hn => ?_⟩
  · exact sets_group a _ s _ h (.inl (by decide)) (.inl rfl) rfl stores rfl
  · refine sets_group a _ s _ h (.inl (by decide)) (.inl rfl) ?_ stores rfl
    rw [← clampFair_word]
    rfl
  · refine sets_group a _ s _ h (.inl (by decide)) (.inl rfl) ?_ stores rfl
    simp only [← clampQuota_word]
    rw [← loWord_setWidth (s.rdS a)]
    rfl
  · refine sets_group a _ s _ h (.inr priv) (.inl rfl) ?_ stores rfl
    rw [← clampCeiling_word, ← loWord_setWidth (s.rdS a)]
    rfl
  · refine sets_group a _ s _ h (.inl (by decide)) (.inr handler) ?_ stores rfl
    rw [← loWord_setWidth (s.rdS a)]
    rfl
  · refine sets_group a _ s _ h (.inl (by decide)) (.inr handler) ?_ stores rfl
    rw [← loWord_setWidth (s.rdS a)]
    rfl
  · exact sets_group a _ s _ h (.inl (by decide)) (.inr handler) rfl stores rfl
  · exact sets_group a _ s _ h (.inl (by decide)) (.inr handler) rfl stores rfl
  · refine issue_group _ _ s h rfl ?_ rfl rfl (fun (e : false = true) => nomatch e) (fun _ => handler) rfl _ rfl stores rfl
    exact within_append within (within_nil s)
  · exact sets_readOnly a n hn s h

/-- Settles O14: every read is a row of the table of R28 (`specials_value`), every write one of the registers of R33 to R37. -/
theorem specialRegisters : Obligations.SpecialRegisters := ⟨specialRegisterReads, specialRegisterWrites⟩

end Sys2Proof.Proofs.MachineState
end

section
/-! Scratch accesses (R39, R40, R168 to R171): within the allotment nothing faults and nothing is held, so a load delivers the numbers that the lanes
name and a store writes the lanes' bytes in ascending order. -/
namespace Sys2Proof.Proofs.MachineState
open Sys2Proof Sys2Proof.Machine Sys2Proof.Claims

/-- What is pending for other lanes than the run's holds no access of the run's lanes behind it (R288). -/
theorem heldBehind_none (g : Sig) (s : State) (h : CanIssue s) (own : FaultsOwn s)
    (run : ∀ a ∈ g.reach, bit s.iss.run a.1 = true) (t : State) (ht : t.w.pending = s.w.pending) : heldBehind g t = false := by
  obtain ⟨-, -, -, -, apart⟩ := h
  refine Bool.eq_false_iff.mpr fun held => ?_
  simp only [heldBehind, ht, List.any_eq_true, Bool.and_eq_true] at held
  obtain ⟨p, hp, -, f, hf, a, ha, ⟨same, -⟩, -⟩ := held
  have pending : bit p.lanes f.1 = true := (own p hp).2 f hf
  have both : bit (p.lanes &&& s.iss.run) f.1 = true := by
    rw [bit_and, pending, ← beq_iff_eq.mp same, run a ha]
    rfl
  simp [apart p hp] at both

theorem laneSet_run (s : State) (l : Fin 32) (h : bit (laneSet s) l = true) : bit s.iss.run l = true := by
  rw [laneSet, bit_and, Bool.and_eq_true] at h
  exact h.1

/-- Nothing holds accesses of lanes of the run. -/
theorem heldBehind_lanes (g : Sig) (n : Nat) (m : Mask) (f : Fin 32 → Nat) (s t : State) (h : CanIssue s) (own : FaultsOwn s)
    (hg : g.reach = ((lanesOf m).map fun l => (l, f l)).map fun a => (a.1, a.2, n)) (sub : ∀ l, bit m l = true → bit s.iss.run l = true)
    (ht : t.w.pending = s.w.pending) : heldBehind g t = false := by
  refine heldBehind_none g s h own (fun a ha => ?_) t ht
  rw [hg, List.map_map, List.mem_map] at ha
  obtain ⟨l, hl, rfl⟩ := ha
  exact sub l ((mem_lanesOf m l).mp hl)

/-! ## Checks and results -/

/-- An aligned access within the allotment does not fault (R40, R168). -/
theorem scratchFault_none (s : State) (off z : Nat) (aligned : off % z = 0) (fits : off + z ≤ scratchOf s.grp.allot * 4096) :
    scratchFault s off z = none := by
  rw [scratchFault, if_neg (not_not.mpr aligned), if_neg (by omega)]

/-- Where no lane faults every lane is ready. -/
theorem planScratch_all (s : State) (off : Fin 32 → Nat) (z : Nat) (m : Mask) (h : ∀ l, bit m l = true → scratchFault s (off l) z = none) :
    planScratch s off z m = (lanesOf m, []) := by
  unfold planScratch
  rw [List.filter_eq_self.mpr fun l hl => by rw [h l ((mem_lanesOf m l).mp hl)]; rfl,
    List.filterMap_eq_nil_iff.mpr fun l hl => by rw [h l ((mem_lanesOf m l).mp hl)]; rfl]

@[simp] theorem scratchBad_none (s : State) (off z : Nat) (h : s.grp.scratchPoison = []) : scratchBad s off z = false := by
  simp [scratchBad, h]

/-- The mask of lanes that each have a value. -/
theorem maskFrom_lanes {α : Type} (m : Mask) (f : Fin 32 → α) : maskFrom ((lanesOf m).map fun l => (l, f l)) = m := by
  refine mask_ext _ _ fun l => ?_
  rw [maskFrom, bit_maskOf, Bool.eq_iff_iff]
  simp

/-- The entry of a lane among those of the lanes of a mask. -/
theorem find_lanes {α : Type} (m : Mask) (f : Fin 32 → α) (l : Fin 32) :
    ((lanesOf m).map fun l => (l, f l)).find? (fun e => e.1 == l) = if bit m l then some (l, f l) else none := by
  rw [List.find?_map]
  cases found : (lanesOf m).find? ((fun e : Fin 32 × α => e.1 == l) ∘ fun l => (l, f l)) with
  | none =>
    have absent : bit m l ≠ true := fun h => by simpa using List.find?_eq_none.mp found l ((mem_lanesOf m l).mpr h)
    rw [if_neg absent]
    rfl
  | some j =>
    obtain rfl : j = l := by simpa using List.find?_some found
    rw [if_pos ((mem_lanesOf m j).mp (List.mem_of_find?_eq_some found))]
    rfl

/-- The value of each lane of a mask, 0 elsewhere. -/
theorem lanesFrom_lanes (m : Mask) (f : Fin 32 → Word) : lanesFrom 0 ((lanesOf m).map fun l => (l, f l)) = perLane m f := by
  unfold lanesFrom perLane
  congr 1
  funext l
  rw [find_lanes]
  cases bit m l <;> rfl

/-- The results of a load in a register, each enabled lane its own. -/
theorem vWrite_lanes (d : Fin 128) (f : Nat → Word) (m : Mask) (x : Fin 32 → Nat) :
    vWrite d f ((lanesOf m).map fun l => (l, x l)) = [.v d m (perLane m fun l => f (x l))] := by
  rw [vWrite, maskFrom_lanes, List.map_map, ← lanesFrom_lanes]
  rfl

/-- The results of an instruction none of whose lanes faulted stand at once, or are pending (R56, R60). -/
theorem deliver_noFault (g : Sig) (acc : Accesses) (ws : List RegWrite) (s t : State) (h : CanIssue s) (iss : t.iss = s.iss)
    (load : acc.load = decide (g.kind = .memory ∧ g.space = 1)) (space : acc.space = g.space)
    (stores : acc.stores = decide (g.kind = .store)) :
    deliver g (execOf true s) ws [] t = deliveredAs acc g.lookahead g.writes ws (laneSet s) g.ordered s t := by
  obtain ⟨-, -, replay, -, -⟩ := h
  have restarts : notRestarted g [] = false := by simp [notRestarted]
  have performed : (g.reach.filter fun r => (faultOf [] r.1).isSome) = [] := by simp [faultOf]
  unfold deliver deliveredAs
  rw [iss, replay, restarts, performed, load, space, stores]
  by_cases now : g.lookahead = 0
  · simp [now]
  · simp [now, State.here, iss, execOf]

/-! ## Lane accesses -/

section lanes
variable (s : State) (z : Nat) (off : Fin 32 → Nat)

/-- Every enabled lane's access is aligned and lies within the group's allotment. -/
def LanesFit : Prop := ∀ l, bit (laneSet s) l = true → off l % z = 0 ∧ off l + z ≤ scratchOf s.grp.allot * 4096

theorem planScratch_fit (h : LanesFit s z off) : planScratch (past true s) off z (laneSet s) = (lanesOf (laneSet s), []) :=
  planScratch_all _ _ _ _ fun l hl => scratchFault_none _ _ _ (h l hl).1 (h l hl).2

/-- A scratch load delivers the number that each enabled lane names. -/
theorem scratchLoad_fit (g : Sig) (wr : List (Fin 32 × Nat) → List RegWrite) (h : CanIssue s) (own : FaultsOwn s)
    (clean : s.grp.scratchPoison = []) (fit : LanesFit s z off) (memory : g.kind = .memory) :
    scratchLoad g z off wr (execOf true s) (past true s) = deliveredAs ⟨false, false, 2⟩ g.lookahead g.writes
      (wr ((lanesOf (laneSet s)).map fun l => (l, leNat (s.grp.scratch.bytes (off l) z)))) (laneSet s) g.ordered s (past true s) := by
  have mode : (past true s).w.mode ≠ .ahead := by rw [show (past true s).w.mode = .normal from h.1]; decide
  have good (l : Fin 32) : scratchBad (past true s) (off l) z = false := scratchBad_none _ _ _ clean
  have free : heldBehind (g.over 2 z ((lanesOf (laneSet s)).map fun l => (l, off l))) (past true s) = false :=
    heldBehind_lanes _ z (laneSet s) off s _ h own rfl (laneSet_run s) rfl
  have plan : planScratch (past true s) off z (execOf true s).en = (lanesOf (laneSet s), []) := planScratch_fit s z off fit
  have lanes : lanesOf (execOf true s).en = lanesOf (laneSet s) := rfl
  have poisoned : (lanesOf (laneSet s)).filter (fun _ => false) = [] := by simp
  have delivery := deliver_noFault (g.over 2 z ((lanesOf (laneSet s)).map fun l => (l, off l))) ⟨false, false, 2⟩
    (wr ((lanesOf (laneSet s)).map fun l => (l, leNat (s.grp.scratch.bytes (off l) z)))) s (past true s) h rfl
    (by simp [Sig.over]) rfl (by simp [Sig.over, memory])
  simp only [scratchLoad, if_neg mode, lanes, free, plan, good, poisoned, List.map_nil, poisonFaults, Bool.not_false, List.filter_true,
    List.append_nil, Bool.false_eq_true, if_false]
  exact delivery

/-- Stores of lanes in scratch, one after another (R170). -/
theorem foldl_scratchStore (f : Fin 32 → List Byte) (lanes : List (Fin 32)) (t : State) (clean : t.grp.scratchPoison = []) :
    lanes.foldl (fun s l => scratchStore (off l) (f l) s) t =
      t.modG fun g => { g with scratch := storedBy g.scratch lanes off f } := by
  induction lanes generalizing t with
  | nil => rfl
  | cons l ls ih =>
    have first : scratchStore (off l) (f l) t = t.modG fun g => { g with scratch := g.scratch.writes (off l) (f l) } := by
      simp [scratchStore, State.modG, clean]
    rw [List.foldl_cons, first]
    exact ih _ clean

/-- A scratch store writes the bytes of the enabled lanes in ascending order. -/
theorem scratchStores_fit (g : Sig) (f : Fin 32 → List Byte) (h : CanIssue s) (own : FaultsOwn s)
    (clean : s.grp.scratchPoison = []) (fit : LanesFit s z off) (now : g.lookahead = 0) :
    scratchStores g z off f (execOf true s) (past true s) =
      (past true s).modG fun g => { g with scratch := storedBy g.scratch (lanesOf (laneSet s)) off f } := by
  have free : heldBehind { g.over 2 z ((lanesOf (laneSet s)).map fun l => (l, off l)) with kind := .store } (past true s) = false :=
    heldBehind_lanes _ z (laneSet s) off s _ h own rfl (laneSet_run s) rfl
  have plan : planScratch (past true s) off z (execOf true s).en = (lanesOf (laneSet s), []) := planScratch_fit s z off fit
  have lanes : lanesOf (execOf true s).en = lanesOf (laneSet s) := rfl
  have delivery (t : State) (iss : t.iss = s.iss) := deliver_noFault { g.over 2 z ((lanesOf (laneSet s)).map fun l => (l, off l)) with kind := .store }
    ⟨false, true, 2⟩ [] s t h iss (by simp) rfl rfl
  simp only [scratchStores, lanes, free, plan, Bool.false_eq_true, if_false, foldl_scratchStore off f _ (past true s) clean]
  exact (delivery ((past true s).modG fun g => { g with scratch := storedBy g.scratch (lanesOf (laneSet s)) off f }) rfl).trans (if_pos now)

end lanes

/-- A pending instruction touches no memory. -/
theorem deliveredAs_frame (acc : Accesses) (look : Nat) (dests : List Reg) (ws : List RegWrite) (en : Mask) (ordered : Bool) (s t : State) :
    (deliveredAs acc look dests ws en ordered s t).mem = t.mem ∧ (deliveredAs acc look dests ws en ordered s t).stores = t.stores := by
  unfold deliveredAs
  split
  · exact ⟨applyAll_mem _ _, applyAll_stores _ _⟩
  · exact ⟨rfl, rfl⟩

/-- The registers of a scratch load lie within the allotment where its destinations and its offset do. -/
theorem within_lds {dst : List Reg} {a : Fin 128} {b : Fin 32} {s : State} (h : Within (dst ++ vReg a) s) (k : Fin 16) :
    Within ((ldsSig dst a b k).reads ++ (ldsSig dst a b k).writes) s := by
  intro r hr
  simp only [ldsSig, List.mem_append] at hr
  rcases hr with (hr | hr) | hr
  · exact h r (List.mem_append_right _ hr)
  · exact within_sReg _ s r hr
  · exact h r (List.mem_append_left _ hr)

section issued
variable (s : State) (z : Nat) (off : Fin 32 → Nat) (h : CanIssue s) (own : FaultsOwn s) (clean : s.grp.scratchPoison = []) (lanes : laneSet s ≠ 0)
  (fit : LanesFit s z off) (regs : List Reg) (a : Fin 128) (b : Fin 32) (hw : Within (regs ++ vReg a) s)
  (hoff : laneOffset (past true s) (scratchBase b) a = off)
include h own clean lanes fit hw hoff

/-- A scratch load of a run with an enabled lane delivers the numbers that the enabled lanes name. -/
theorem issue_scratchLoad (wr : List (Fin 32 × Nat) → List RegWrite) (k : Fin 16) :
    issue (ldsSig regs a b k) (fun x s => scratchLoad (ldsSig regs a b k) z (laneOffset s (scratchBase b) a) wr x s) s =
      .next (deliveredAs ⟨false, false, 2⟩ k.val regs (wr ((lanesOf (laneSet s)).map fun l => (l, leNat (s.grp.scratch.bytes (off l) z))))
        (laneSet s) false s (past true s)) := by
  subst hoff
  refine issue_past _ _ s h (within_lds hw k) rfl rfl (absurd · Bool.false_ne_true) (absurd · Bool.false_ne_true) rfl _ ?_
    ((deliveredAs_frame ..).2.trans (stores_of_canIssue h)) (deliveredAs_frame ..).1
  exact (if_neg lanes).trans (scratchLoad_fit s z _ _ wr h own clean fit rfl)

/-- A scratch store of a run with an enabled lane writes the bytes of the enabled lanes in ascending order. -/
theorem issue_scratchStore (f : State → Fin 32 → List Byte) :
    issue (stsSig regs a b) (fun x s => scratchStores (stsSig regs a b) z (laneOffset s (scratchBase b) a) (f s) x s) s =
      .next ((past true s).modG fun g => { g with scratch := storedBy g.scratch (lanesOf (laneSet s)) off (f (past true s)) }) := by
  subst hoff
  have within : Within (regs ++ vReg a ++ sReg (scratchBase b) ++ []) s := within_append (within_append hw (within_sReg _ s)) (within_nil s)
  refine issue_past _ _ s h within rfl rfl (absurd · Bool.false_ne_true) (absurd · Bool.false_ne_true) rfl _ ?_ (stores_of_canIssue h) rfl
  exact (if_neg lanes).trans (scratchStores_fit s z _ _ (f (past true s)) h own clean fit rfl)

end issued

/-! ## Group accesses -/

/-- What an aligned group access within the allotment does (R40). -/
theorem groupScratch_fit (kind : Kind) (a : Fin 128) (i : BitVec 9) (act : Nat → Exec → State → State) (s : State) (h : CanIssue s) (own : FaultsOwn s)
    (off : Nat) (hoff : groupOffset (past false s) a i = off) (aligned : off % 4 = 0) (fits : off + 4 ≤ scratchOf s.grp.allot * 4096) :
    groupScratch kind a i act (execOf false s) (past false s) = act off (execOf false s) (past false s) := by
  subst hoff
  have fault : scratchFault (past false s) (groupOffset (past false s) a i) 4 = none := scratchFault_none _ _ _ aligned fits
  have free : heldBehind (Sig.over { kind := kind } 2 4 ((lanesOf (execOf false s).run).map fun l => (l, groupOffset (past false s) a i)))
      (past false s) = false := heldBehind_lanes _ 4 s.iss.run (fun _ => groupOffset (past false s) a i) s _ h own rfl (fun _ hl => hl) rfl
  simp only [groupScratch, fault, free, Bool.false_eq_true, if_false]

/-- ldsg delivers the word of scratch. -/
theorem ldsgAct_normal (d : Fin 128) (off : Nat) (x : Exec) (s : State) (mode : s.w.mode ≠ .ahead) (clean : s.grp.scratchPoison = []) :
    ldsgAct d off x s = s.wrS d (BitVec.ofNat 32 (leNat (s.grp.scratch.bytes off 4))) := by
  rw [ldsgAct, if_neg mode, scratchBad_none s off 4 clean]
  exact if_neg Bool.false_ne_true

theorem scratchStore_clean (off : Nat) (bs : List Byte) (t : State) (clean : t.grp.scratchPoison = []) :
    scratchStore off bs t = t.modG fun g => { g with scratch := g.scratch.writes off bs } := by
  simp [scratchStore, State.modG, clean]

/-- Group accesses of scratch. -/
theorem groupScratchAccesses (s : State) (h : CanIssue s) (own : FaultsOwn s) (clean : s.grp.scratchPoison = []) (d a : Fin 128) (i : BitVec 9)
    (aligned : (s.rdS a + i.signExtend 32).toNat % 4 = 0)
    (fits : (s.rdS a + i.signExtend 32).toNat + 4 ≤ scratchOf s.grp.allot * 4096) :
    exec (.ldsgB32 d a i) s = .next ((past false s).wrS d (BitVec.ofNat 32 (leNat (s.grp.scratch.bytes (s.rdS a + i.signExtend 32).toNat 4)))) ∧
    exec (.stsgB32 d a i) s = .next ((past false s).modG fun g => { g with
      scratch := g.scratch.writes (s.rdS a + i.signExtend 32).toNat (leBytes 4 (s.rdS d).toNat) }) := by
  have mode : (past false s).w.mode ≠ .ahead := by rw [show (past false s).w.mode = .normal from h.1]; decide
  constructor
  · refine issue_group _ _ s h rfl (within_append (within_sReg a s) (within_sReg d s)) rfl rfl (absurd · Bool.false_ne_true)
      (absurd · Bool.false_ne_true) rfl _ ?_ (by simpa using stores_of_canIssue h) (by simp)
    exact (groupScratch_fit _ a i _ s h own _ rfl aligned fits).trans (ldsgAct_normal d _ _ _ mode clean)
  · refine issue_group _ _ s h rfl (within_append (within_append (within_sReg d s) (within_sReg a s)) (within_nil s)) rfl rfl
      (absurd · Bool.false_ne_true) (absurd · Bool.false_ne_true) rfl _ ?_ (stores_of_canIssue h) rfl
    exact (groupScratch_fit _ a i _ s h own _ rfl aligned fits).trans (scratchStore_clean _ _ _ clean)

/-- The registers of a narrow form are its register and its offset, those of a wide form the pair as well. -/
theorem within_memRegs_single {d a : Fin 128} {s : State} (h : Within (memRegs d a false) s) : Within (vReg d ++ vReg a) s := h

theorem within_memRegs_pair {d a : Fin 128} {s : State} (h : Within (memRegs d a true) s) : Within (vPair d ++ vReg a) s := by
  intro r hr
  refine h r ?_
  simp only [vPair, vReg, memRegs, List.mem_append, List.mem_cons, List.not_mem_nil, or_false, if_true] at hr ⊢
  tauto

/-- O20's half on scratch: accesses of lanes and of the group within the allotment. -/
theorem scratchAccesses : ScratchAccesses := by
  intro s h own clean
  refine ⟨?_, fun d a i aligned fits => groupScratchAccesses s h own clean d a i aligned fits⟩
  intro d a b k lanes off
  refine ⟨?_, fun fit hw => ?_, ?_⟩
  · simp only [List.forall_mem_cons]
    have load (z : Nat) (fit : LanesFit s z off) (hw : Within (memRegs d a false) s) :
        issue (ldsSig (vReg d) a b k) (fun x s => scratchLoad (ldsSig (vReg d) a b k) z (laneOffset s (scratchBase b) a) (vWrite d zeroExt) x s) s =
          .next (deliveredAs ⟨false, false, 2⟩ k.val [.v d.val] [.v d (laneSet s) (perLane (laneSet s) fun l =>
            BitVec.ofNat 32 (leNat (s.grp.scratch.bytes (off l) z)))] (laneSet s) false s (past true s)) := by
      rw [issue_scratchLoad s z off h own clean lanes fit (vReg d) a b (within_memRegs_single hw) rfl (vWrite d zeroExt) k, vWrite_lanes]
      rfl
    exact ⟨load 1, load 2, load 4, nofun⟩
  · have load := issue_scratchLoad s 8 off h own clean lanes fit (vPair d) a b (within_memRegs_pair hw) rfl (vvWrite d) k
    rw [vvWrite, vWrite_lanes, vWrite_lanes] at load
    exact load
  · simp only [List.forall_mem_cons]
    have narrow (z : Nat) (hz : z ≠ 8) (fit : LanesFit s z off) (hw : Within (memRegs d a (z == 8)) s) :
        issue (stsSig (vReg d) a b) (fun x s => scratchStores (stsSig (vReg d) a b) z (laneOffset s (scratchBase b) a) (vBytes s d z) x s) s =
          .next ((past true s).modG fun g => { g with
            scratch := storedBy g.scratch (lanesOf (laneSet s)) off fun l => leBytes z (if z = 8 then (s.w.rdVV d l).toNat else (s.w.rdV d l).toNat) }) := by
      rw [beq_false_of_ne hz] at hw
      simp only [if_neg hz]
      exact issue_scratchStore s z off h own clean lanes fit (vReg d) a b (within_memRegs_single hw) rfl fun s => vBytes s d z
    exact ⟨narrow 1 (by decide), narrow 2 (by decide), narrow 4 (by decide), fun fit hw =>
      issue_scratchStore s 8 off h own clean lanes fit (vPair d) a b (within_memRegs_pair hw) rfl fun s => vvBytes s d, nofun⟩

end Sys2Proof.Proofs.MachineState
end

section
/-! The caches at rest (R347 to R356): with no aliases, side bands, cells, poison or fan-out, what the caches do changes the lines they hold, the owners of
their words and the regions of the directory, and nothing else. -/
namespace Sys2Proof.Proofs.MachineState
open Sys2Proof Sys2Proof.Machine Sys2Proof.Claims

/-! ## Tables -/

theorem look_put_same {α : Type} (l : List (Nat × α)) (k : Nat) (a d : α) : look (put l k a) k d = a := by
  induction l with
  | nil => simp [put, look]
  | cons e t ih =>
    obtain ⟨n, b⟩ := e
    rw [put]
    split
    · simp [look]
    · split
      · simp [look]
      · rename_i h _
        rw [look, if_neg h, ih]

theorem look_put_ne {α : Type} (l : List (Nat × α)) (k j : Nat) (a d : α) (h : j ≠ k) : look (put l k a) j d = look l j d := by
  induction l with
  | nil => simp [put, look, Ne.symm h]
  | cons e t ih =>
    obtain ⟨n, b⟩ := e
    rw [put]
    split
    · rename_i same
      simp [look, Ne.symm h, same]
    · split
      · simp [look, Ne.symm h]
      · rw [look, look, ih]

theorem mem_of_put {α : Type} {l : List (Nat × α)} {k : Nat} {a : α} {e : Nat × α} (h : e ∈ put l k a) : e = (k, a) ∨ e ∈ l := by
  induction l with
  | nil => simpa [put] using h
  | cons x t ih =>
    obtain ⟨n, b⟩ := x
    rw [put] at h
    split at h
    · exact (List.mem_cons.mp h).imp_right (List.mem_cons_of_mem _)
    · split at h
      · exact List.mem_cons.mp h
      · rcases List.mem_cons.mp h with rfl | h
        · exact Or.inr List.mem_cons_self
        · exact (ih h).imp_right (List.mem_cons_of_mem _)

/-- What pull takes out of a list passes its test; the rest of the list is shorter by one. -/
theorem pull_some {α : Type} {p : α → Bool} {l t : List α} {x : α} (h : pull p l = some (x, t)) :
    p x = true ∧ x ∈ l ∧ (∀ y ∈ t, y ∈ l) ∧ t.length + 1 = l.length := by
  induction l generalizing t with
  | nil => cases h
  | cons a l ih =>
    rw [pull] at h
    split at h
    · rename_i pass
      obtain ⟨rfl, rfl⟩ := Prod.mk.inj (Option.some.inj h)
      exact ⟨pass, List.mem_cons_self, fun y hy => List.mem_cons_of_mem _ hy, rfl⟩
    · cases rest : pull p l with
      | none => rw [rest] at h; cases h
      | some r =>
        obtain ⟨y, u⟩ := r
        rw [rest] at h
        obtain ⟨rfl, rfl⟩ := Prod.mk.inj (Option.some.inj h)
        obtain ⟨pass, mem, sub, len⟩ := ih rest
        refine ⟨pass, List.mem_cons_of_mem _ mem, fun z hz => ?_, by simp [len]⟩
        exact List.mem_cons.mpr ((List.mem_cons.mp hz).imp_right (sub z))

/-! ## A state but for its caches -/

/-- A state t that is s but for what the caches, the owners of words and the directory hold: L2 holds lines of device memory, the directory's regions
are of a kind R, and each word of the L1 of the group's core is as P says. -/
structure Quiet (R : List Region → Prop) (P : Nat → L1Word → Prop) (s t : State) : Prop where
  same : t = { s with cores := t.cores, owners := t.owners, l2 := t.l2, regions := t.regions }
  cores : SameCores t.cores s
  low : ∀ e ∈ t.l2, e.line < 2 ^ 40
  regions : R t.regions
  held : ∀ l ∈ (t.core s.grp.core).l1, ∀ w ∈ l.words, P w.1 w.2

/-- What a word of the L1 may be, of which a revocation leaves it so and which has no dirty byte. -/
structure Tame (P : Nat → L1Word → Prop) : Prop where
  unowned : ∀ a w, P a w → P a { w with owned := false }
  clean : ∀ a w, P a w → w.dirty = 0

section quiet
variable {R : List Region → Prop} {P : Nat → L1Word → Prop} {s t : State}

/-- Other lines, owners and regions. -/
theorem Quiet.update (h : Quiet R P s t) (cs : List (Nat × Core)) (os : List (Nat × Nat)) (ls : List L2Line) (rs : List Region)
    (same : SameCores cs t) (low : ∀ e ∈ ls, e.line < 2 ^ 40) (regions : R rs)
    (held : ∀ l ∈ (look cs s.grp.core Core.blank).l1, ∀ w ∈ l.words, P w.1 w.2) :
    Quiet R P s { t with cores := cs, owners := os, l2 := ls, regions := rs } where
  same := congrArg (fun u : State => { u with cores := cs, owners := os, l2 := ls, regions := rs }) h.same
  cores c := by
    obtain ⟨l, ms, e⟩ := same c
    obtain ⟨l', ms', e'⟩ := h.cores c
    exact ⟨l, ms, e.trans (congrArg (fun k : Core => { k with l1 := l, misses := ms }) e')⟩
  low := low
  regions := regions
  held := held

theorem sameCores_self (t : State) : SameCores t.cores t := fun c => ⟨(t.core c).l1, (t.core c).misses, rfl⟩

theorem Quiet.setOwners (h : Quiet R P s t) (os : List (Nat × Nat)) : Quiet R P s { t with owners := os } :=
  h.update t.cores os t.l2 t.regions (sameCores_self t) h.low h.regions h.held

theorem Quiet.setL2 (h : Quiet R P s t) (ls : List L2Line) (low : ∀ e ∈ ls, e.line < 2 ^ 40) : Quiet R P s { t with l2 := ls } :=
  h.update t.cores t.owners ls t.regions (sameCores_self t) low h.regions h.held

theorem Quiet.setRegions (h : Quiet R P s t) (rs : List Region) (hr : R rs) : Quiet R P s { t with regions := rs } :=
  h.update t.cores t.owners t.l2 rs (sameCores_self t) h.low hr h.held

/-- A core whose lines and miss-status entries change. -/
theorem Quiet.modCore (h : Quiet R P s t) (c : Nat) (f : Core → Core) (hf : ∃ l ms, f (t.core c) = { t.core c with l1 := l, misses := ms })
    (held : c = s.grp.core → ∀ l ∈ (f (t.core c)).l1, ∀ w ∈ l.words, P w.1 w.2) : Quiet R P s (t.modCore c f) := by
  refine h.update (put t.cores c (f (t.core c))) t.owners t.l2 t.regions (fun j => ?_) h.low h.regions ?_
  · by_cases e : j = c
    · subst e
      rw [look_put_same]
      exact hf
    · rw [look_put_ne _ _ _ _ _ e]
      exact sameCores_self t j
  · by_cases e : s.grp.core = c
    · rw [e, look_put_same]
      exact held e.symm
    · rw [look_put_ne _ _ _ _ _ e]
      exact h.held

theorem Quiet.grp (h : Quiet R P s t) : t.grp = s.grp := (congrArg State.grp h.same :)
theorem Quiet.mem (h : Quiet R P s t) : t.mem = s.mem := (congrArg State.mem h.same :)
theorem Quiet.stores (h : Quiet R P s t) : t.stores = s.stores := (congrArg State.stores h.same :)
theorem Quiet.byte (h : Quiet R P s t) (a : Nat) : t.byte a = s.byte a := by rw [State.byte, State.byte, h.mem, h.stores]

/-- What folds of steps keep. -/
theorem Quiet.foldl {α : Type} (f : State → α → State) (xs : List α) (step : ∀ x ∈ xs, ∀ t, Quiet R P s t → Quiet R P s (f t x))
    (h : Quiet R P s t) : Quiet R P s (xs.foldl f t) := by
  induction xs generalizing t with
  | nil => exact h
  | cons x xs ih => exact ih (fun y hy => step y (List.mem_cons_of_mem _ hy)) (step x List.mem_cons_self t h)

/-! ## Owners -/

/-- The words of a core whose words at one address change as P allows. -/
theorem mapWord_held {c : Core} (a : Nat) (f : L1Word → L1Word) (hf : ∀ a w, P a w → P a (f w))
    (held : ∀ l ∈ c.l1, ∀ w ∈ l.words, P w.1 w.2) : ∀ l ∈ (c.mapWord a f).l1, ∀ w ∈ l.words, P w.1 w.2 := by
  intro l hl w hw
  obtain ⟨k, hk, rfl⟩ := List.mem_map.mp hl
  split at hw
  · obtain ⟨x, hx, rfl⟩ := List.mem_map.mp hw
    split
    · exact hf _ _ (held k hk x hx)
    · exact held k hk x hx
  · exact held k hk w hw

theorem Quiet.mapWord (h : Quiet R P s t) (c a : Nat) (f : L1Word → L1Word) (hf : ∀ a w, P a w → P a (f w)) :
    Quiet R P s (t.modCore c fun k => k.mapWord a f) := by
  refine h.modCore c _ ⟨_, _, rfl⟩ fun e => ?_
  subst e
  exact mapWord_held a f hf h.held

theorem Quiet.revoke (h : Quiet R P s t) (tame : Tame P) (a : Nat) : Quiet R P s (Machine.revoke a t) := by
  unfold Machine.revoke
  split
  · exact (h.mapWord _ a _ tame.unowned).setOwners _
  · exact h

theorem Quiet.revokeLine (h : Quiet R P s t) (tame : Tame P) (line : Nat) : Quiet R P s (Machine.revokeLine line t) :=
  Quiet.foldl _ _ (fun w _ _ h => h.revoke tame w) h

theorem Quiet.register (h : Quiet R P s t) (tame : Tame P) (g : Agent) (a : Nat) : Quiet R P s (Machine.register g a t) := by
  have claimed (c : Nat) : Quiet R P s (claim c a t) := by
    unfold claim
    split
    · exact h
    · exact (h.revoke tame a).setOwners _
  unfold Machine.register
  cases g with
  | wave u c =>
    dsimp only
    split
    · exact claimed c
    · exact h.revoke tame a
  | _ => exact h.revoke tame a

/-! ## L2 -/

/-- Lines of device memory. -/
theorem regionOf_low {a : Nat} (h : a < 2 ^ 48) : regionOf a = 0 := by
  rw [regionOf, bitsOf, Nat.div_eq_of_lt h, Nat.zero_mod]

theorem regionOf_line {line : Nat} (h : line < 2 ^ 40) : regionOf (line * 256) = 0 := regionOf_low (by omega)

theorem lineOf_low {a : Nat} (h : a < 2 ^ 48) : lineOf a < 2 ^ 40 := by
  unfold lineOf
  omega

theorem Quiet.replaceWay (h : Quiet R P s t) (tame : Tame P) (v : L2Line) (low : v.line < 2 ^ 40) : Quiet R P s (Machine.replaceWay v t) := by
  unfold Machine.replaceWay
  rw [if_pos (regionOf_line low)]
  split
  · exact h
  · exact h.revokeLine tame v.line

theorem Quiet.useWay (h : Quiet R P s t) (tame : Tame P) (new : L2Line) (low : new.line < 2 ^ 40) : Quiet R P s (Machine.useWay new t) := by
  have add (ls : List L2Line) (sub : ∀ e ∈ ls, e ∈ t.l2) (e : L2Line) (he : e.line < 2 ^ 40) : ∀ x ∈ ls ++ [e], x.line < 2 ^ 40 := fun x hx =>
    (List.mem_append.mp hx).elim (fun hx => h.low x (sub x hx)) fun hx => List.mem_singleton.mp hx ▸ he
  unfold Machine.useWay
  split
  · rename_i e u found
    obtain ⟨-, mem, sub, -⟩ := pull_some found
    refine h.setL2 _ (add u sub _ ?_)
    split
    · exact low
    · exact h.low e mem
  · split
    · exact h.setL2 _ (add _ (fun _ => id) new low)
    · split
      · rename_i v u found
        obtain ⟨-, mem, sub, -⟩ := pull_some found
        exact (h.replaceWay tame v (h.low v mem)).setL2 _ (add u sub new low)
      · exact h

theorem Quiet.useL2All (h : Quiet R P s t) (tame : Tame P) (lines : List Nat) (dirty : Bool) (low : ∀ l ∈ lines, l < 2 ^ 40) :
    Quiet R P s (Machine.useL2All lines dirty t) := by
  refine Quiet.foldl _ _ (fun l hl u hu => ?_) h
  unfold useL2
  rw [if_pos (regionOf_line (low l hl))]
  exact hu.useWay tame _ (low l hl)

/-- A guest copy needs regions that may change. -/
theorem Quiet.grantDie (h : Quiet R P s t) (tame : Tame P) (all : ∀ rs, R rs) (line : Nat) (low : line < 2 ^ 40) :
    Quiet R P s (Machine.grantDie line t) := by
  unfold Machine.grantDie
  dsimp only
  split
  · split
    · exact h
    · refine Quiet.useWay ?_ tame _ low
      unfold useRegion
      split
      · exact h.setRegions _ (all _)
      · exact h.setRegions _ (all _)
  · split
    · exact (h.setRegions _ (all _)).useWay tame _ low
    · exact h

/-! ## The L1 -/

/-- A word of the L1 is one of its lines'. -/
theorem word_mem {c : Core} {a : Nat} {x : L1Word} (h : c.word a = some x) : ∃ l ∈ c.l1, (wordOf a, x) ∈ l.words := by
  unfold Core.word Core.line at h
  split at h
  · rename_i l hl
    obtain ⟨e, he, rfl⟩ := Option.map_eq_some_iff.mp h
    have key : e.1 = wordOf a := by simpa using List.find?_some he
    exact ⟨l, List.mem_of_find?_eq_some hl, key ▸ List.mem_of_find?_eq_some he⟩
  · cases h

theorem Quiet.word (h : Quiet R P s t) {a : Nat} {x : L1Word} (hx : (t.core s.grp.core).word a = some x) : P (wordOf a) x := by
  obtain ⟨l, hl, hw⟩ := word_mem hx
  exact h.held l hl _ hw

/-- Nothing is written back from a line without dirty bytes. -/
theorem writeBackLine_clean (v : L1Line) (t : State) (h : ∀ w ∈ v.words, w.2.dirty = 0) : writeBackLine v t = t := by
  have none (a : Nat) (x : Word) (t : State) : pushBytes a 0 x t = t := by simp [pushBytes]
  unfold writeBackLine
  generalize v.words = ws at h
  induction ws with
  | nil => rfl
  | cons w ws ih =>
    rw [List.foldl_cons, writeBackWord, h w List.mem_cons_self, none]
    exact ih fun x hx => h x (List.mem_cons_of_mem _ hx)

theorem Quiet.touchLine (h : Quiet R P s t) (tame : Tame P) (a : Nat) (nc : Bool) : Quiet R P s (Machine.touchLine s.grp.core a nc t) := by
  have add (u : State) (hu : Quiet R P s u) : Quiet R P s (u.modCore s.grp.core fun c => { c with l1 := ⟨lineOf a, nc, []⟩ :: c.l1 }) := by
    refine hu.modCore _ _ ⟨_, _, rfl⟩ fun _ l hl w hw => ?_
    rcases List.mem_cons.mp hl with rfl | hl
    · cases hw
    · exact hu.held l hl w hw
  unfold Machine.touchLine
  dsimp only
  split
  · rename_i l u found
    obtain ⟨-, mem, sub, -⟩ := pull_some found
    refine h.modCore _ _ ⟨_, _, rfl⟩ fun _ k hk w hw => ?_
    rcases List.mem_cons.mp hk with rfl | hk
    · exact h.held _ mem w hw
    · exact h.held k (sub k hk) w hw
  · split
    · exact add t h
    · split
      · rename_i v victim
        have mem : v ∈ (t.core s.grp.core).l1 := by
          unfold Core.victim Core.sameSet at victim
          exact (List.mem_filter.mp (List.mem_filter.mp (List.mem_of_getLast? victim)).1).1
        rw [writeBackLine_clean v t fun w hw => tame.clean _ _ (h.held v mem w hw)]
        refine add _ (h.modCore _ _ ⟨_, _, rfl⟩ fun _ k hk w hw => ?_)
        exact h.held k (List.mem_filter.mp hk).1 w hw
      · exact h

theorem Quiet.putWord (h : Quiet R P s t) (a : Nat) (x : L1Word) (hx : P (wordOf a) x) : Quiet R P s (Machine.putWord s.grp.core a x t) := by
  unfold Machine.putWord
  refine h.modCore _ _ ⟨_, _, rfl⟩ fun _ l hl w hw => ?_
  obtain ⟨k, hk, rfl⟩ := List.mem_map.mp hl
  split at hw
  · rcases mem_of_put hw with rfl | hw
    · exact hx
    · exact h.held k hk w hw
  · exact h.held k hk w hw

end quiet

end Sys2Proof.Proofs.MachineState
end

section
/-! Loads from memory at rest (R171, R173, R350): each word is the one that memory holds, and only the caches change. -/
namespace Sys2Proof.Proofs.MachineState
open Sys2Proof Sys2Proof.Machine Sys2Proof.Claims

/-! ## Numbers and bytes -/

theorem leNat_lt (bs : List Byte) : leNat bs < 256 ^ bs.length := by
  induction bs with
  | nil => simp [leNat]
  | cons b bs ih =>
    rw [leNat, List.length_cons, Nat.pow_succ]
    have := b.isLt
    omega

/-- The bytes of the number that bytes make are those bytes. -/
theorem leBytes_leNat (bs : List Byte) : leBytes bs.length (leNat bs) = bs := by
  induction bs with
  | nil => rfl
  | cons b bs ih =>
    have low : BitVec.ofNat 8 (b.toNat + 256 * leNat bs) = b := BitVec.eq_of_toNat_eq (by
      have := b.isLt
      simp only [BitVec.toNat_ofNat]
      omega)
    have high : (b.toNat + 256 * leNat bs) / 256 = leNat bs := by
      have := b.isLt
      omega
    rw [List.length_cons, leBytes, leNat, low, high, ih]

theorem bytes_length (s : State) (a n : Nat) : (s.bytes a n).length = n := by
  induction n generalizing a with
  | zero => rfl
  | succ n ih => rw [State.bytes, List.length_cons, ih]

theorem bytes_eq_map (s : State) (a n : Nat) : s.bytes a n = (List.range n).map fun i => s.byte (a + i) := by
  induction n generalizing a with
  | zero => rfl
  | succ n ih =>
    rw [State.bytes, ih, List.range_succ_eq_map, List.map_cons, List.map_map]
    congr 2
    funext i
    exact congrArg s.byte (by simp; omega)

theorem bytes_append (s : State) (a m n : Nat) : s.bytes a m ++ s.bytes (a + m) n = s.bytes a (m + n) := by
  induction m generalizing a with
  | zero => simp [State.bytes]
  | succ m ih =>
    rw [State.bytes, List.cons_append, show a + (m + 1) = a + 1 + m by omega, ih, show m + 1 + n = (m + n) + 1 by omega, State.bytes]

/-- The bytes of a word of memory. -/
theorem leBytes_word (s : State) (a : Nat) : leBytes 4 (BitVec.ofNat 32 (s.num a 4)).toNat = s.bytes a 4 := by
  have len := bytes_length s a 4
  have small : s.num a 4 < 2 ^ 32 := by
    have := leNat_lt (s.bytes a 4)
    rwa [len] at this
  rw [BitVec.toNat_ofNat, Nat.mod_eq_of_lt small]
  conv_lhs => rw [← len]
  exact leBytes_leNat _

/-- A word none of whose bytes is kept is the new one. -/
theorem mergeBytes_none (v x : Word) : mergeBytes 0 v x = x := by
  refine BitVec.eq_of_toNat_eq ?_
  have byte (i : Nat) : (byteAt x i).toNat = x.toNat / 2 ^ (8 * i) % 256 := by
    simp [byteAt, BitVec.toNat_setWidth, BitVec.toNat_ushiftRight, Nat.shiftRight_eq_div_pow]
  have := x.isLt
  have kept : mergeBytes 0 v x = BitVec.ofNat 32 (leNat [byteAt x 0, byteAt x 1, byteAt x 2, byteAt x 3]) := rfl
  simp only [kept, leNat, byte, BitVec.toNat_ofNat]
  omega

/-! ## Home slices at rest -/

/-- Nothing stands between an access and memory. -/
structure Undisturbed (s : State) : Prop where
  bands : s.bands = []
  aliases : s.aliases = []
  provs : s.provs = []
  poison : s.poison = []
  fanOuts : s.fanOuts = []
  served : Served s

theorem stackOf_lt (a : Nat) : stackOf a < 8 := by
  have small (k : Nat) : bitsOf a k 3 < 2 ^ 3 := Nat.mod_lt _ (by decide)
  exact Nat.xor_lt_two_pow (Nat.xor_lt_two_pow (small 12) (small 20)) (small 28)

theorem chOf_lt (a : Nat) : chOf a < 32 := by
  have small (k : Nat) : bitsOf a k 5 < 2 ^ 5 := Nat.mod_lt _ (by decide)
  exact Nat.xor_lt_two_pow (small 8) (small 13)

/-- The base dies refuse nothing where every channel is present and no row is retired. -/
theorem served_all {s : State} (h : Served s) (a : Nat) : absentAt s a = false ∧ retiredAt s a = false := by
  obtain ⟨len, all⟩ := h
  have lt : stackOf a < s.isais.length := by rw [len]; exact stackOf_lt a
  have port : s.port (stackOf a) = s.isais[stackOf a] := by simp [State.port, List.getD_eq_getElem?_getD, List.getElem?_eq_getElem lt]
  obtain ⟨present, kept⟩ := all _ (List.getElem_mem lt)
  have here : channelHere s (stackOf a) (chOf a) = true := by
    have bit := congrArg (fun x => x.getLsbD (chOf a)) present
    have ch := chOf_lt a
    rw [channelHere, port]
    simpa only [BitVec.getLsbD_extractLsb', BitVec.getLsbD_not, BitVec.getLsbD_zero, ch, decide_true, Bool.true_and, Bool.not_false] using bit
  exact ⟨by simp [absentAt, here], by simp [retiredAt, rowRefused, port, kept]⟩

theorem Undisturbed.marked {s : State} (u : Undisturbed s) (w : Nat) : s.marked w = false := by
  rw [State.marked, u.poison, (served_all u.served w).1]
  rfl

theorem Undisturbed.cellOf {s : State} (u : Undisturbed s) (a : Nat) : Machine.cellOf s a = none := by rw [Machine.cellOf, u.provs, List.find?_nil]

theorem Undisturbed.roundLine {s : State} (u : Undisturbed s) (l : Nat) : Machine.roundLine l s = s :=
  roundLine_none l s (by rw [u.bands, List.find?_nil])

theorem Undisturbed.observe {s : State} (u : Undisturbed s) (g : Agent) (ws : List Nat) : Machine.observe g ws s = s := by
  have none (f : Prov → Prov) : s.provs.map f = s.provs := by rw [u.provs]; rfl
  simp only [Machine.observe, none]

section quiet
variable {R : List Region → Prop} {P : Nat → L1Word → Prop} {s t : State}

theorem Quiet.undisturbed (h : Quiet R P s t) (u : Undisturbed s) : Undisturbed t where
  bands := (congrArg State.bands h.same :).trans u.bands
  aliases := (congrArg State.aliases h.same :).trans u.aliases
  provs := (congrArg State.provs h.same :).trans u.provs
  poison := (congrArg State.poison h.same :).trans u.poison
  fanOuts := (congrArg State.fanOuts h.same :).trans u.fanOuts
  served := by
    have isais : t.isais = s.isais := (congrArg State.isais h.same :)
    rw [Served, isais]
    exact u.served

theorem Quiet.bytes (h : Quiet R P s t) (a n : Nat) : t.bytes a n = s.bytes a n := by
  simp only [bytes_eq_map, h.byte]

theorem Quiet.num (h : Quiet R P s t) (a n : Nat) : t.num a n = s.num a n := congrArg leNat (h.bytes a n)

/-- A read of device memory finds its bytes. -/
theorem Quiet.homeFetch (h : Quiet R P s t) (u : Undisturbed s) (tame : Tame P) (g : Agent) (a n : Nat) (low : a + n ≤ 2 ^ 48) :
    ∃ t', Machine.homeFetch g a n t = (t', s.bytes a n, false) ∧ Quiet R P s t' := by
  have v := h.undisturbed u
  have rounded (ls : List Nat) : ls.foldl (fun s l => Machine.roundLine l s) t = t := List.foldl_fixed' (fun l => v.roundLine l) _
  have sources : ((List.range n).map fun i => a + i).map (sourceOf t) = (List.range n).map fun i => a + i := by
    refine (List.map_congr_left fun b _ => ?_).trans (List.map_id _)
    rw [sourceOf, coverOf, v.aliases, List.find?_nil]
    rfl
  have used := h.useL2All tame ((((((List.range n).map fun i => a + i).map wordOf).dedup).map fun b => lineOf b).dedup) false (fun l hl => by
    rw [List.mem_dedup, List.mem_map] at hl
    obtain ⟨w, hw, rfl⟩ := hl
    rw [List.mem_dedup, List.map_map, List.mem_map] at hw
    obtain ⟨i, hi, rfl⟩ := hw
    have := List.mem_range.mp hi
    refine lineOf_low ?_
    simp only [Function.comp_apply, wordOf]
    omega)
  have w := used.undisturbed u
  refine ⟨_, ?_, used⟩
  unfold Machine.homeFetch
  simp only [rounded, v.aliases, List.filter_nil, if_true, sources, w.observe]
  refine Prod.ext rfl (Prod.ext ?_ ?_)
  · exact (List.map_congr_left fun b _ => used.byte b).trans (List.map_map.trans (bytes_eq_map s a n).symm)
  · exact List.any_eq_false.mpr fun b _ => by rw [w.marked]; exact Bool.false_ne_true

/-! ## Fills -/

/-- A word filled with x is as P says. -/
def Takes (P : Nat → L1Word → Prop) (a : Nat) (x : Word) : Prop :=
  ∀ (w : L1Word) prov, w.dirty = 0 → P a { w with val := x, valid := true, provisional := prov }

/-- The word of an address as a fill finds it has no dirty byte. -/
theorem Quiet.oldWord (h : Quiet R P s t) (tame : Tame P) (a : Nat) : (((t.core s.grp.core).word a).getD L1Word.empty).dirty = 0 := by
  cases e : (t.core s.grp.core).word a with
  | none => rfl
  | some x => exact tame.clean _ _ (h.word e)

theorem Quiet.fillWord (h : Quiet R P s t) (tame : Tame P) (a : Nat) (nc : Bool) (x : Word) (prov : Bool) (hx : Takes P (wordOf a) x) :
    Quiet R P s (Machine.fillWord s.grp.core a nc x prov t) := by
  have touched := h.touchLine tame a nc
  have clean := touched.oldWord tame a
  unfold Machine.fillWord
  dsimp only
  refine touched.putWord a _ ?_
  have merged (v : Word) : mergeBytes (((Machine.touchLine s.grp.core a nc t).core s.grp.core).word a |>.getD L1Word.empty).dirty v x = x := by
    rw [clean, mergeBytes_none]
  rw [merged]
  exact hx _ _ clean

theorem Quiet.fillFrom (h : Quiet R P s t) (tame : Tame P) (all : ∀ rs, R rs) (g : Agent) (a : Nat) (nc : Bool) (x : Word) (low : a < 2 ^ 48)
    (hx : Takes P (wordOf a) x) : Quiet R P s (Machine.fillFrom g s.grp.core a nc x t) := by
  have guest : Quiet R P s (guestFill s.grp.core a nc t) := by
    unfold guestFill
    split
    · exact h.grantDie tame all _ (lineOf_low low)
    · exact h
  unfold Machine.fillFrom
  split
  · exact guest.fillWord tame a nc x _ hx
  · exact h

end quiet

/-! ## Loads -/

/-- A word of the L1 at an address: no byte is dirty, and a valid word is the one that memory holds. -/
def Fresh (s : State) (a : Nat) (w : L1Word) : Prop := w.dirty = 0 ∧ (w.valid = true → w.val = BitVec.ofNat 32 (s.num a 4)) ∧ a % 4 = 0

theorem fresh_tame (s : State) : Tame (Fresh s) where
  unowned _ _ h := h
  clean _ _ h := h.1

theorem fresh_takes (s : State) (a : Nat) (aligned : a % 4 = 0) : Takes (Fresh s) a (BitVec.ofNat 32 (s.num a 4)) :=
  fun _ _ clean => ⟨clean, fun _ => rfl, aligned⟩

theorem wordOf_aligned {a : Nat} (h : a % 4 = 0) : wordOf a = a := by
  unfold wordOf
  omega

/-- A state but for its caches, whose L1 holds words of memory. -/
abbrev Loading (s t : State) : Prop := Quiet (fun _ => True) (Fresh s) s t

section loads
variable {s t : State}

/-- The copy that serves a load is a valid word of the L1. -/
theorem servedBy_some {g : Agent} {c a : Nat} {w : L1Word} (h : servedBy g c a t = some w) : (t.core c).word a = some w ∧ w.valid = true := by
  unfold servedBy at h
  cases e : (t.core c).word a with
  | none => rw [e] at h; cases h
  | some x =>
    rw [e] at h
    obtain ⟨ok, same⟩ := Option.ite_none_right_eq_some.mp h
    obtain rfl := Option.some.inj same
    exact ⟨rfl, (Bool.and_eq_true _ _ ▸ ok).1⟩

/-- A load of a word of device memory. -/
theorem Quiet.loadWord (h : Loading s t) (u : Undisturbed s) (g : Agent) (nc : Bool) (a : Nat) (aligned : a % 4 = 0) (low : a + 4 ≤ 2 ^ 48) :
    ∃ t', Machine.loadWord g s.grp.core nc a t = (t', BitVec.ofNat 32 (s.num a 4), false) ∧ Loading s t' := by
  have word := wordOf_aligned aligned
  have tame := fresh_tame s
  unfold Machine.loadWord
  rw [word]
  dsimp only
  split
  · rename_i w served
    refine ⟨_, ?_, h.touchLine tame a nc⟩
    obtain ⟨hw, valid⟩ := servedBy_some served
    have fresh := h.word hw
    rw [word] at fresh
    rw [fresh.2.1 valid]
  · obtain ⟨t', fetched, quiet⟩ := h.homeFetch u tame g a 4 low
    have clean := quiet.oldWord tame a
    rw [fetched]
    dsimp only
    rw [if_neg (by simp), clean, mergeBytes_none]
    exact ⟨_, rfl, quiet.fillFrom tame (fun _ => trivial) g a nc _ (by omega) (by rw [word]; exact fresh_takes s a aligned)⟩

theorem Quiet.loadWords (h : Loading s t) (u : Undisturbed s) (g : Agent) (nc : Bool) (ws : List Nat)
    (ok : ∀ a ∈ ws, a % 4 = 0 ∧ a + 4 ≤ 2 ^ 48) :
    ∃ t', Machine.loadWords g s.grp.core nc ws t = (t', ws.map fun a => BitVec.ofNat 32 (s.num a 4), none) ∧ Loading s t' := by
  induction ws generalizing t with
  | nil => exact ⟨t, rfl, h⟩
  | cons a ws ih =>
    obtain ⟨aligned, low⟩ := ok a List.mem_cons_self
    obtain ⟨t₁, first, h₁⟩ := h.loadWord u g nc a aligned low
    obtain ⟨t₂, rest, h₂⟩ := ih h₁ fun b hb => ok b (List.mem_cons_of_mem _ hb)
    refine ⟨t₂, ?_, h₂⟩
    rw [Machine.loadWords, first]
    dsimp only
    rw [rest]
    rfl

end loads

end Sys2Proof.Proofs.MachineState
end

section
namespace Sys2Proof.Proofs.MachineState
open Sys2Proof Sys2Proof.Machine Sys2Proof.Claims

/-! ## Miss-status entries -/

theorem requestSector_length (sector : Nat) (mask : BitVec 16) (nc gone : Bool) (ms : List Miss) :
    (requestSector sector mask nc gone ms).length ≤ ms.length + 1 := by
  unfold requestSector
  split
  · rename_i found
    obtain ⟨-, -, -, len⟩ := pull_some found
    simp [len]
  · simp

/-- Requests for words take at most one entry for each word (R173). -/
theorem requestWords_length (ws : List (Nat × Bool)) (gone : Bool) (ms : List Miss) :
    (requestWords ws gone ms).length ≤ ms.length + ws.length := by
  have bound (f : List Miss → Nat → List Miss) (hf : ∀ ms k, (f ms k).length ≤ ms.length + 1) (ks : List Nat) (ms : List Miss) :
      (ks.foldl f ms).length ≤ ms.length + ks.length := by
    induction ks generalizing ms with
    | nil => simp
    | cons k ks ih =>
      have first := hf ms k
      have rest := ih (f ms k)
      simp only [List.foldl_cons, List.length_cons]
      omega
  have sectors : ((ws.map fun w => w.1 / 64 * 64).dedup).length ≤ ws.length := by
    simpa using (List.dedup_sublist (ws.map fun w => w.1 / 64 * 64)).length_le
  exact (bound _ (fun ms k => requestSector_length ..) _ ms).trans (Nat.add_le_add_left sectors _)

/-- Where every set of the L1 has a way, each line can be allocated (R347). -/
theorem fits_of_freeWays {c : Core} (h : FreeWays c) (a : Nat) : c.fits a = true := by
  have set (l : L1Line) : (Machine.setOf l.line == Machine.setOf (lineOf a)) = decide (l.line % 128 = lineOf a % 128) := by
    simp [Machine.setOf, Bool.beq_eq_decide_eq]
  rcases h (lineOf a % 128) (Nat.mod_lt _ (by decide)) with room | ⟨l, hl, same, free⟩
  · simp [Core.fits, Core.sameSet, set, room]
  · have victim : l ∈ (c.sameSet a).filter fun l => !c.filling l := by
      refine List.mem_filter.mpr ⟨List.mem_filter.mpr ⟨hl, by rw [set, same]; simp⟩, ?_⟩
      rw [Bool.not_eq_true', Core.filling, List.any_eq_false]
      exact fun m hm => by simpa [lineOf] using free m hm
    have isSome : (c.victim a).isSome = true := by rw [Core.victim, List.getLast?_isSome]; exact List.ne_nil_of_mem victim
    simp [Core.fits, isSome]

section loads
variable {s t : State}

/-- The words of a fill arrive. -/
theorem Quiet.fillMiss (h : Loading s t) (u : Undisturbed s) (m : Miss) (aligned : m.sector % 64 = 0) (low : m.sector + 64 ≤ 2 ^ 48) :
    Loading s (Machine.fillMiss s.grp.core m t) := by
  refine Quiet.foldl _ _ (fun w hw v hv => ?_) h
  obtain ⟨i, hi, rfl⟩ := List.mem_map.mp (List.mem_filter.mp hw).1
  have lt : i < 16 := List.mem_range.mp (List.mem_filter.mp hi).1
  have four : (m.sector + 4 * i) % 4 = 0 := by omega
  obtain ⟨v', fetched, quiet⟩ := hv.homeFetch u (fresh_tame s) .quiet (m.sector + 4 * i) 4 (by omega)
  rw [fetched]
  refine quiet.fillFrom (fresh_tame s) (fun _ => trivial) .quiet _ _ _ (by omega) ?_
  rw [wordOf_aligned four]
  exact fresh_takes s _ four

/-- The requests of a load find entries and lines, and the fills they join arrive. -/
theorem Quiet.loadMisses (h : Loading s t) (u : Undisturbed s) (ws : List (Nat × Bool)) (low : ∀ w ∈ ws, w.1 + 4 ≤ 2 ^ 48)
    (fits : ∀ a, (t.core s.grp.core).fits a = true) (room : (t.core s.grp.core).misses.length + ws.length ≤ 256) :
    ∃ t', Machine.loadMisses s.grp.core ws t = (t', false) ∧ Loading s t' := by
  have entries : ¬ 256 < (requestWords ws true (t.core s.grp.core).misses).length := by
    have := requestWords_length ws true (t.core s.grp.core).misses
    omega
  have goesOn : ¬ (decide (256 < (requestWords ws true (t.core s.grp.core).misses).length) || ws.any fun w => !(t.core s.grp.core).fits w.1) = true := by
    simp [entries, fits]
  refine ⟨_, if_neg goesOn, Quiet.foldl _ _ (fun k hk v hv => ?_) h⟩
  obtain ⟨w, hw, rfl⟩ := List.mem_map.mp (List.mem_dedup.mp hk)
  have := low w hw
  split
  · rename_i m ms found
    obtain ⟨joins, -⟩ := pull_some found
    have sector : m.sector = w.1 / 64 * 64 := by
      simp only [Miss.joins, Bool.and_eq_true, beq_iff_eq] at joins
      obtain ⟨⟨sector, -⟩, -⟩ := joins
      exact sector
    exact Quiet.fillMiss (hv.modCore _ _ ⟨_, _, rfl⟩ fun _ => hv.held) u m (by omega) (by omega)
  · exact hv

/-! ## A load of aligned words -/

theorem wordsOf_aligned {a : Nat} (n : Nat) (aligned : a % 4 = 0) (pos : 0 < n) : wordsOf a (4 * n) = (List.range n).map fun i => a + 4 * i := by
  have count : (a + 4 * n - 1) / 4 + 1 - a / 4 = n := by omega
  rw [wordsOf, count]
  exact List.map_congr_left fun i _ => by omega

theorem wordsOf_mem {a w n : Nat} (aligned : a % 4 = 0) (pos : 0 < n) (h : w ∈ wordsOf a (4 * n)) : w % 4 = 0 ∧ w + 4 ≤ a + 4 * n := by
  rw [wordsOf_aligned n aligned pos] at h
  obtain ⟨i, hi, rfl⟩ := List.mem_map.mp h
  have := List.mem_range.mp hi
  omega

/-- The bytes of consecutive words. -/
theorem bytes_words (s : State) (a n : Nat) : ((List.range n).map fun i => a + 4 * i).flatMap (fun w => s.bytes w 4) = s.bytes a (4 * n) := by
  induction n with
  | zero => rfl
  | succ n ih => rw [List.range_succ, List.map_append, List.flatMap_append, ih, Nat.mul_succ, ← bytes_append]; simp

/-- A load of words of memory takes their number and counts nothing. -/
theorem Quiet.loadNum (h : Loading s t) (u : Undisturbed s) (g : Agent) (nc : Bool) (a n : Nat) (aligned : a % 4 = 0) (pos : 0 < n)
    (low : a + 4 * n ≤ 2 ^ 48) :
    ∃ t', Machine.loadNum g s.grp.core nc a (4 * n) t = (t', s.num a (4 * n), none) ∧ Loading s t' := by
  obtain ⟨t', loaded, quiet⟩ := h.loadWords u g nc (wordsOf a (4 * n)) fun w hw => by
    obtain ⟨four, top⟩ := wordsOf_mem aligned pos hw
    exact ⟨four, by omega⟩
  have counted (ws : List Nat) : countMissing g ws t' = t' := by
    refine List.foldl_fixed' (fun l => ?_) _
    unfold countReads
    cases g <;> simp [(quiet.undisturbed u).aliases]
  have bytes : (((wordsOf a (4 * n)).map fun w => BitVec.ofNat 32 (s.num w 4)).flatMap fun x => leBytes 4 x.toNat) = s.bytes a (4 * n) := by
    rw [List.flatMap_map, wordsOf_aligned n aligned pos, ← bytes_words]
    exact List.flatMap_congr fun w _ => leBytes_word s w
  refine ⟨t', ?_, quiet⟩
  unfold Machine.loadNum takeNum
  dsimp only
  rw [loaded]
  dsimp only
  rw [counted, bytes, aligned, List.drop_zero, List.take_of_length_le (Nat.le_of_eq (bytes_length s a (4 * n)))]
  rfl

/-- The requests of a load of aligned words. -/
theorem Quiet.loadPre (h : Loading s t) (u : Undisturbed s) (va : DWord) (nc : Bool) (a n : Nat) (aligned : a % 4 = 0) (pos : 0 < n) (few : n ≤ 64)
    (low : a + 4 * n ≤ 2 ^ 48) (fits : ∀ a, (t.core s.grp.core).fits a = true) (room : (t.core s.grp.core).misses.length ≤ 192) :
    ∃ t', Machine.loadPre (4 * n) [(0, va, a, nc)] t = (t', some []) ∧ Loading s t' := by
  have sub : (missing t.reader s.grp.core (wordsOf a (4 * n)) t).Sublist (wordsOf a (4 * n)) := List.filter_sublist.trans (List.dedup_sublist _)
  have len : (missing t.reader s.grp.core (wordsOf a (4 * n)) t).length ≤ n := by
    have words : (wordsOf a (4 * n)).length = n := by rw [wordsOf_aligned n aligned pos, List.length_map, List.length_range]
    exact sub.length_le.trans words.le
  obtain ⟨t', done, quiet⟩ := h.loadMisses u ((missing t.reader s.grp.core (wordsOf a (4 * n)) t).map fun w => (w, nc)) (fun w hw => by
    obtain ⟨x, hx, rfl⟩ := List.mem_map.mp hw
    have := (wordsOf_mem aligned pos (sub.subset hx)).2
    dsimp only
    omega) fits (by rw [List.length_map]; omega)
  refine ⟨t', ?_, quiet⟩
  have core : t.coreNo = s.grp.core := congrArg Group.core h.grp
  unfold Machine.loadPre
  simp only [List.flatMap_cons, List.flatMap_nil, List.append_nil, core]
  rw [done]
  rfl

end loads

end Sys2Proof.Proofs.MachineState
end

section
/-! Group accesses (R168, R169, R194): where the page is cached and memory is at rest, the access goes ahead at its physical address. -/
namespace Sys2Proof.Proofs.MachineState
open Sys2Proof Sys2Proof.Machine Sys2Proof.Claims

theorem undisturbed_of_atRest {s : State} (rest : AtRest s) (provs : s.provs = []) : Undisturbed s := by
  obtain ⟨-, bands, aliases, poison, -, fanOuts, -, -, -, -, -, -, -, -, -, -, -, served⟩ := rest
  exact ⟨bands, aliases, provs, poison, fanOuts, served⟩

/-- The check of an access that a cached translation allows, to device memory at rest. -/
theorem checkAccess_mapped (n : Need) (store : Bool) (va : DWord) (pa : Nat) (s : State) (rest : AtRest s) (map : Mapped store n.size va pa s)
    (writes : n.access = .store → store = true) (data : n.access ≠ .fetch) : checkAccess n va s = (s, .go pa false) := by
  obtain ⟨-, -, -, -, regions, fanOuts, moving0, moving1, recalled, -, -, -, repl, -⟩ := rest
  obtain ⟨canonical, aligned, -, low, entry⟩ := map
  have address : addressFault n va = none := by
    rw [addressFault, if_neg (not_le.mpr canonical), if_neg (not_not.mpr aligned)]
  have region := regionOf_low low
  cases found : cachedAt (.core s.grp.core) s va.toNat with
  | none => rw [found] at entry; exact entry.elim
  | some e =>
    rw [found] at entry
    obtain ⟨coherent, -, -, writable, place⟩ := entry
    have first : tlbAt s (.core s.coreNo) s.ctxNo va.toNat = some e := found
    have lease : e.recalled s = false := by
      unfold TlbEntry.recalled recalledAt
      rw [recalled]
      cases e.lease <;> rfl
    have page : lookPage (.core s.coreNo) s.ctxNo n.access va.toNat s = (s, .entry e) := by
      simp only [lookPage, TlbUnit.path, tlbFind, first, lease, Bool.false_eq_true, if_false]
      rfl
    have leaf : leafAt n.access va.toNat (.entry e) s = .ok pa false := by
      have allowed : n.access = .store → e.w = true := fun store => writable (writes store)
      simp only [leafAt, checkLeaf, ← place, coherent, region]
      simpa [data] using allowed
    have still : movingFrame s pa = false := by simp [movingFrame, moving0, moving1]
    have alone : mustFan s pa = false := by simp [mustFan, fanOuts, sharersOf, regions, outside]
    have held : lineHeld s pa = true := by simp [lineHeld, region]
    have ours : lineOurs s pa = true := by simp [lineOurs, region]
    rw [checkAccess, address]
    dsimp only
    rw [page]
    simp only [checkPage, leaf, nodeWalk, repl, still, alone, held, ours, Bool.and_false, Bool.false_and, Bool.false_eq_true, if_false, Bool.not_true]

/-- A group without epilogue rows has none to store. -/
theorem drainOwnRows_none (t : State) (h : t.grp.epilogues = []) : drainOwnRows t = t := by
  simp only [drainOwnRows, drainRows, h, List.filter_nil, List.foldl_nil, State.modG, List.filterMap_nil]
  rw [← h]

section access
variable {s : State} {pa : Nat} {va : DWord} {store : Bool}

/-- A group access that its page and its group let through: what comes before it and the access itself take place, and its results stand. -/
theorem groupAccess_mapped (g : Sig) (n : Need) (pre : Pre) (act : Nat → Bool → State → State × List RegWrite × Option Nat) (h : CanIssue s)
    (rest : AtRest s) (map : Mapped store n.size va pa s) (writes : n.access = .store → store = true) (data : n.access ≠ .fetch)
    (t u : State) (ws : List RegWrite) (before : pre [(0, va, pa, false)] (past false s) = (t, some [])) (rows : t.grp.epilogues = [])
    (acts : act pa false t = (u, ws, none)) :
    groupAccess g n va pre act (execOf false s) (past false s) = applyAll u ws := by
  have checked : checkAccess n va (past false s) = (past false s, .go pa false) := checkAccess_mapped n store va pa (past false s) rest map writes data
  obtain ⟨-, -, -, -, -, -, -, -, -, nt, epilogues, -, -, -, -, -, own, -⟩ := rest
  have mode : (past false s).w.mode ≠ .ahead := by rw [show (past false s).w.mode = .normal from h.1]; decide
  have free : heldBehind (g.over 1 n.size ((lanesOf (execOf false s).en).map fun l => (l, va.toNat))) (past false s) = false :=
    heldBehind_lanes _ n.size s.iss.run (fun _ => va.toNat) s _ h own rfl (fun _ hl => hl) rfl
  have queue : (past false s).w.nt = [] := nt
  have stores : heldStores false (past false s) = (past false s, false) := by
    have none : (past false s).grp.epilogues = [] := epilogues
    simp [heldStores, ownRowWords, none, blockedAt, waitLines]
  simp only [groupAccess, if_neg mode, checked, free, overlapsNt, queue, List.any_nil, List.any_cons, Bool.or_false, Bool.false_eq_true, if_false, stores,
    before, drainOwnRows_none t rows, acts]

end access

/-! ## Group loads -/

/-- Registers that a group load writes are in the group set: what the caches hold is no part of it. -/
theorem wrS_caches (s : State) (d : Fin 128) (x : Word) (cs : List (Nat × Core)) (os : List (Nat × Nat)) (ls : List L2Line) (rs : List Region) :
    { s with cores := cs, owners := os, l2 := ls, regions := rs }.wrS d x =
      { s.wrS d x with cores := cs, owners := os, l2 := ls, regions := rs } := by
  unfold State.wrS
  show (match s.w.own with
    | some r => _
    | none => _) = _
  cases s.w.own <;> rfl

theorem wrS_cores (s : State) (d : Fin 128) (x : Word) : (s.wrS d x).cores = s.cores := by
  unfold State.wrS
  split <;> rfl

theorem sameCores_of {cs : List (Nat × Core)} {s t : State} (h : SameCores cs s) (cores : t.cores = s.cores) : SameCores cs t := by
  intro c
  rw [State.core, cores]
  exact h c

section loads
variable {s : State} {pa : Nat}

/-- An issue changes no byte. -/
theorem num_past (b : Bool) (s : State) (a n : Nat) : (past b s).num a n = s.num a n := by
  rw [State.num, State.num, bytes_eq_map, bytes_eq_map]
  rfl

/-- A mapped word or pair of words is aligned and lies in device memory. -/
theorem mapped_words {store : Bool} {va : DWord} {n : Nat} (pos : 0 < n) (few : n ≤ 2) (map : Mapped store (4 * n) va pa s) :
    pa % 4 = 0 ∧ pa + 4 * n ≤ 2 ^ 48 := by
  obtain ⟨-, -, words, top, -⟩ := map
  obtain rfl | rfl : n = 1 ∨ n = 2 := by omega
  all_goals omega

/-- A group load takes the number of its words, and only the caches change besides. -/
theorem issue_groupLoad (h : CanIssue s) (rest : AtRest s) (provs : s.provs = []) (clean : CleanL1 s) (dst : List Reg) (hd : Within dst s)
    (a : Fin 128) (i : BitVec 9) (n : Nat) (pos : 0 < n) (few : n ≤ 2) (wr : Nat → List RegWrite)
    (map : Mapped false (4 * n) (s.rdSS a + i.signExtend 64) pa s) :
    ∃ t, issue (ldgSig dst a) (ldgBody (ldgSig dst a) (4 * n) wr a i) s = .next (applyAll t (wr (s.num pa (4 * n)))) ∧ Loading (past false s) t := by
  have u : Undisturbed (past false s) := undisturbed_of_atRest rest provs
  have ways := rest
  obtain ⟨-, -, -, -, -, -, -, -, -, -, epilogues, -, -, room, free, low, -, -⟩ := ways
  obtain ⟨aligned, fit⟩ := mapped_words pos few map
  have start : Loading (past false s) (past false s) := ⟨rfl, sameCores_self _, low, trivial, clean⟩
  obtain ⟨t₁, before, h₁⟩ := start.loadPre u (s.rdSS a + i.signExtend 64) false pa n aligned pos (few.trans (by decide)) fit
    (fits_of_freeWays free) room
  obtain ⟨t₂, loaded, h₂⟩ := h₁.loadNum u t₁.reader false pa n aligned pos fit
  refine ⟨t₂, ?_, h₂⟩
  have core : t₁.coreNo = (past false s).grp.core := congrArg Group.core h₁.grp
  refine issue_group _ _ s h rfl (within_append (within_sPair a s) hd) rfl rfl (absurd · Bool.false_ne_true) (absurd · Bool.false_ne_true) rfl _ ?_
    ((applyAll_stores _ _).trans (h₂.stores.trans (stores_of_canIssue h))) ((applyAll_mem _ _).trans h₂.mem)
  refine groupAccess_mapped _ { size := 4 * n, access := .load } _ _ h rest map nofun nofun t₁ t₂ (wr (s.num pa (4 * n))) before
    ((congrArg Group.epilogues h₁.grp).trans epilogues) ?_
  simp only [core, loaded, num_past]

/-- What a group load leaves: its registers, and whatever the caches hold. -/
theorem reads_of_loading {i : Instr} {t : State} (d : List RegWrite) (u : State) (load : Loading (past false s) t) (out : exec i s = .next (applyAll t d))
    (group : ∀ cs os ls rs, applyAll { past false s with cores := cs, owners := os, l2 := ls, regions := rs } d =
      { u with cores := cs, owners := os, l2 := ls, regions := rs }) (cores : u.cores = s.cores) : Reads i s u := by
  refine ⟨t.cores, t.owners, t.l2, t.regions, sameCores_of load.cores cores, out.trans (congrArg Host.Outcome.next ?_)⟩
  rw [← group]
  exact congrArg (applyAll · d) load.same

end loads

/-- A pair from the number of its words. -/
theorem loWord_ofNat (x : Nat) : loWord (BitVec.ofNat 64 x) = BitVec.ofNat 32 x := by
  refine BitVec.eq_of_toNat_eq ?_
  simp only [loWord, BitVec.toNat_setWidth, BitVec.toNat_ofNat]
  omega

theorem hiWord_ofNat (x : Nat) : hiWord (BitVec.ofNat 64 x) = BitVec.ofNat 32 (x / 2 ^ 32) := by
  refine BitVec.eq_of_toNat_eq ?_
  simp only [hiWord, BitVec.toNat_setWidth, BitVec.toNat_ushiftRight, BitVec.toNat_ofNat, Nat.shiftRight_eq_div_pow]
  omega

/-- Group loads. -/
theorem groupLoads (s : State) (pa : Nat) (d a : Fin 128) (i : BitVec 9) (h : CanIssue s) (rest : AtRest s) (provs : s.provs = []) (clean : CleanL1 s) :
    (Mapped false 4 (s.rdSS a + i.signExtend 64) pa s →
      Reads (.ldgB32 d a i) s ((past false s).wrS d (BitVec.ofNat 32 (s.num pa 4)))) ∧
    (Mapped false 8 (s.rdSS a + i.signExtend 64) pa s →
      Reads (.ldgB64 d a i) s ((past false s).wrSS d (BitVec.ofNat 64 (s.num pa 8)))) := by
  constructor <;> intro map
  · obtain ⟨t, out, load⟩ := issue_groupLoad h rest provs clean (sReg d) (within_sReg d s) a i 1 (by decide) (by decide)
      (fun x => [.s d (BitVec.ofNat 32 x)]) map
    exact reads_of_loading _ _ load out (fun cs os ls rs => wrS_caches ..) (wrS_cores ..)
  · obtain ⟨t, out, load⟩ := issue_groupLoad h rest provs clean (sPair d) (within_sPair d s) a i 2 (by decide) (by decide) (ssWrite d) map
    rw [State.wrSS, loWord_ofNat, hiWord_ofNat]
    exact reads_of_loading _ _ load out (fun cs os ls rs => (congrArg (State.wrS · (odd d) _) (wrS_caches ..)).trans (wrS_caches ..))
      ((wrS_cores ..).trans (wrS_cores ..))

end Sys2Proof.Proofs.MachineState
end

section
/-! Stores and atomics of the group set (R170, R195 to R197): a write at the home slice of memory at rest stands, and only the caches and what fetches and
read-only loads keep change besides. -/
namespace Sys2Proof.Proofs.MachineState
open Sys2Proof Sys2Proof.Machine Sys2Proof.Claims

/-! ## Writes at the home slice -/

/-- Memory with the bytes of a store laid into it. -/
theorem lay_logBytes (m : Mem) (l : List Host.Cell) (a : Nat) (bs : List Byte) : m.lay (logBytes l a bs) = (m.lay l).writes a bs := by
  induction bs generalizing l a with
  | nil => rfl
  | cons b bs ih => rw [logBytes, ih, Mem.writes, Mem.lay]

/-- A word of the L1 without dirty bytes. -/
def Undirtied (_ : Nat) (w : L1Word) : Prop := w.dirty = 0

theorem undirtied_tame : Tame Undirtied where
  unowned _ _ h := h
  clean _ _ h := h

/-- A state in which bytes are stored and the write is noted for instruction fetch and read-only loads (R47, R298). -/
def written (a : Nat) (bs : List Byte) (cl : List (Nat × Option Byte)) (rl : List (Nat × Word)) (s : State) : State :=
  { s with codeLog := cl, roLog := rl }.poke a bs

/-- A state but for its caches, while no region has a sharer and no byte of the L1 is dirty. -/
abbrev Writing (s t : State) : Prop := Quiet (· = []) Undirtied s t

/-- Nothing else changes when a write is noted. -/
theorem noted_eq (uid c a n : Nat) (ws : List Nat) (s : State) :
    ∃ cl rl, noteWrite (.wave uid c) a n (noteRo ws s) = { s with codeLog := cl, roLog := rl } := by
  unfold noteRo
  split
  · exact ⟨_, _, rfl⟩
  · exact ⟨_, _, rfl⟩

/-- Without a region nothing is shared with the other die. -/
theorem fanToDie_none {s : State} (regions : s.regions = []) (a : Nat) : fanToDie a s = s := by
  simp [fanToDie, sharersOf, regions]

section undisturbed
variable {s : State} (u : Undisturbed s)
include u

theorem Undisturbed.settleAliasesFor (a n l : Nat) : Machine.settleAliasesFor a n l s = s := settleAliasesFor_none a n l s u.aliases

theorem Undisturbed.settleWords (ws : List Nat) : Machine.settleWords ws s = s := by
  have none : s.provs.filter (fun c => !ws.contains c.addr) = s.provs := by rw [u.provs]; rfl
  rw [Machine.settleWords, none]

theorem Undisturbed.endFans (lines : List Nat) : Machine.endFans lines s = s := by
  have none : s.fanOuts.filter (fun f => !(lines.contains f.line && f.agents == 0 && f.data == [] && f.agent != 15)) = s.fanOuts := by
    rw [u.fanOuts]
    rfl
  rw [Machine.endFans, none]

theorem Undisturbed.clearPoison (p : Nat → Bool) : { s with poison := s.poison.filter p } = s := by
  have none : s.poison.filter p = s.poison := by rw [u.poison]; rfl
  rw [none]

end undisturbed

section writing
variable {s t : State}

/-- Bytes stored in a state but for its caches. -/
theorem Quiet.poke {R : List Region → Prop} {P : Nat → L1Word → Prop} (h : Quiet R P s t) (a : Nat) (bs : List Byte) :
    Quiet R P (s.poke a bs) (t.poke a bs) where
  same := congrArg (State.poke · a bs) h.same
  cores := h.cores
  low := h.low
  regions := h.regions
  held := h.held

/-- The lines and words that a write touches lie in device memory. -/
theorem wordsOf_low {a n w : Nat} (h : w ∈ wordsOf a n) (pos : 0 < n) (low : a + n ≤ 2 ^ 48) : w < 2 ^ 48 := by
  obtain ⟨i, hi, rfl⟩ := List.mem_map.mp h
  have := List.mem_range.mp hi
  omega

/-- A write of a wave at the home slice. -/
theorem homeWrite_writing (h : Writing s s) (u : Undisturbed s) (uid c a : Nat) (bs : List Byte) (some_ : bs ≠ []) (low : a + bs.length ≤ 2 ^ 48) :
    ∃ cl rl, Writing (written a bs cl rl s) (homeWrite (.wave uid c) a bs s) := by
  obtain ⟨cl, rl, noted⟩ := noted_eq uid c a bs.length (wordsOf a bs.length) s
  refine ⟨cl, rl, ?_⟩
  have pos : 0 < bs.length := List.length_pos_iff.mpr some_
  have start : Writing { s with codeLog := cl, roLog := rl } { s with codeLog := cl, roLog := rl } := ⟨rfl, sameCores_self _, h.low, h.regions, h.held⟩
  have v : Undisturbed { s with codeLog := cl, roLog := rl } := ⟨u.bands, u.aliases, u.provs, u.poison, u.fanOuts, u.served⟩
  have settled (ls : List Nat) : ls.foldl (fun s l => settleAliasesFor a bs.length l (roundLine l s)) { s with codeLog := cl, roLog := rl } =
      { s with codeLog := cl, roLog := rl } := List.foldl_fixed' (fun l => by rw [v.roundLine, v.settleAliasesFor]) _
  have used := start.useL2All undirtied_tame (((wordsOf a bs.length).map fun b => lineOf b).dedup) true fun l hl => by
    obtain ⟨w, hw, rfl⟩ := List.mem_map.mp (List.mem_dedup.mp hl)
    exact lineOf_low (wordsOf_low hw pos low)
  have fanned (ls : List Nat) (t : State) (q : Writing { s with codeLog := cl, roLog := rl } t) :
      ls.foldl (fun s l => fanToDie (l * 256) s) t = t := List.foldl_fixed' (fun l => fanToDie_none q.regions _) _
  have registered := Quiet.foldl (fun s w => register (.wave uid c) w s) (wordsOf a bs.length)
    (fun w _ t q => q.register undirtied_tame (.wave uid c) w) used
  have after := registered.undisturbed v
  unfold homeWrite
  rw [if_neg some_]
  dsimp only
  rw [noted, settled, (used.undisturbed v).settleWords, fanned _ _ used, after.endFans, after.clearPoison,
    refuseWords_none _ _ fun w => served_all (s := State.poke _ a bs) after.served w]
  exact registered.poke a bs

/-- The core's own copy of what it stored. -/
theorem Quiet.updateCopy (h : Writing s t) (a : Nat) (bs : List Byte) (owned : Bool) : Writing s (Machine.updateCopy s.grp.core a bs owned t) := by
  refine Quiet.foldl _ _ (fun w _ v hv => ?_) h
  split
  · rename_i x found
    split
    · have clean : Undirtied (wordOf w) x := hv.word found
      exact hv.putWord w _ clean
    · exact hv
  · exact hv

/-- A store to device memory. -/
theorem storeOne_writing (h : Writing s s) (u : Undisturbed s) (repl : s.grp.task.repl = false) (va : DWord) (a : Nat) (bs : List Byte) (some_ : bs ≠ [])
    (low : a + bs.length ≤ 2 ^ 48) :
    ∃ cl rl, Writing (written a bs cl rl s) (storeOne va a false bs s) := by
  obtain ⟨cl, rl, stored⟩ := homeWrite_writing h u s.w.uid s.coreNo a bs some_ low
  have pos : 0 < bs.length := List.length_pos_iff.mpr some_
  have near : regionOf a = 0 := regionOf_low (by omega)
  have one : storeOne va a false bs s = Machine.updateCopy s.grp.core a bs true (homeWrite (.wave s.w.uid s.coreNo) a bs s) := by
    simp only [storeOne, repl, storeBytes, sendWrite, near, Bool.false_eq_true, if_false, true_or, if_true]
    rfl
  exact ⟨cl, rl, one ▸ stored.updateCopy a bs true⟩

/-- An atomic on device memory gives the word as it was. -/
theorem atomOne_writing (h : Writing s s) (u : Undisturbed s) (o : AtomOp) (a : Nat) (x y : Word) (low : a + 4 ≤ 2 ^ 48) :
    ∃ cl rl, (atomOne o a x y s).2 = (BitVec.ofNat 32 (s.num a 4), false) ∧
      Writing (written a (leBytes 4 (o.apply (BitVec.ofNat 32 (s.num a 4)) x y).toNat) cl rl s) (atomOne o a x y s).1 := by
  obtain ⟨cl, rl, stored⟩ := homeWrite_writing h u s.w.uid s.grp.core a (leBytes 4 (o.apply (BitVec.ofNat 32 (s.num a 4)) x y).toNat)
    (List.cons_ne_nil _ _) low
  have near : regionOf a = 0 := regionOf_low (by omega)
  have core : (homeWrite s.agent a (leBytes 4 (o.apply (BitVec.ofNat 32 (s.num a 4)) x y).toNat) s).coreNo = s.grp.core :=
    congrArg Group.core stored.grp
  have filled := stored.fillWord undirtied_tame a false (o.apply (BitVec.ofNat 32 (s.num a 4)) x y) false fun _ _ clean => clean
  simp only [atomOne, settleAliases, u.roundLine, u.settleAliasesFor, u.marked, near, core, Bool.false_eq_true, if_false, if_true]
  exact ⟨cl, rl, trivial, filled.mapWord _ a _ fun _ _ clean => clean⟩

/-! ## The end of a store -/

/-- A state without stores keeps none. -/
theorem setMem_noStores (v : State) (m : Mem) (h : v.stores = []) : { v with mem := m, stores := [] } = { v with mem := m } := by
  rw [← h]

/-- What a state with bytes stored, but for its caches, is once they are laid into memory. -/
theorem writes_of_writing {i : Instr} {v : State} {a : Nat} {bs : List Byte} {cl : List (Nat × Option Byte)} {rl : List (Nat × Word)}
    (q : Writing (written a bs cl rl v) t) (stores : v.stores = []) (regions : v.regions = [])
    (out : exec i s = .next { t with mem := v.mem.lay t.stores, stores := [] }) : Writes i s { v with mem := v.mem.writes a bs } := by
  refine ⟨t.cores, t.owners, t.l2, cl, rl, q.cores, out.trans (congrArg Host.Outcome.next ?_)⟩
  have laid : v.mem.lay t.stores = v.mem.writes a bs := by
    rw [q.stores, written, State.poke, lay_logBytes, stores]
    rfl
  have shared : t.regions = v.regions := q.regions.trans regions.symm
  have parts := congrArg (fun u : State => { u with mem := v.mem.writes a bs, stores := [] }) q.same
  rw [laid, parts, shared]
  exact setMem_noStores { v with cores := t.cores, owners := t.owners, l2 := t.l2, codeLog := cl, roLog := rl } _ stores

/-- The registers that a write of the group set writes are no part of what a write at the home slice changes. -/
theorem Quiet.wrS {R : List Region → Prop} {P : Nat → L1Word → Prop} (h : Quiet R P s t) (d : Fin 128) (x : Word) :
    Quiet R P (s.wrS d x) (t.wrS d x) := by
  have parts := (congrArg (State.wrS · d x) h.same).trans (wrS_caches s d x t.cores t.owners t.l2 t.regions)
  have core (u : State) : (u.wrS d x).grp.core = u.grp.core := by unfold State.wrS; split <;> rfl
  have caches (u : State) : (u.wrS d x).cores = u.cores ∧ (u.wrS d x).owners = u.owners ∧ (u.wrS d x).l2 = u.l2 ∧ (u.wrS d x).regions = u.regions := by
    unfold State.wrS
    split <;> exact ⟨rfl, rfl, rfl, rfl⟩
  obtain ⟨cores, owners, l2, regions⟩ := caches t
  refine ⟨?_, ?_, ?_, ?_, ?_⟩
  · rw [cores, owners, l2, regions]
    exact parts
  · rw [cores]
    exact sameCores_of h.cores (caches s).1
  · rw [l2]
    exact h.low
  · rw [regions]
    exact h.regions
  · rw [core, State.core, cores]
    exact h.held

theorem written_wrS (a : Nat) (bs : List Byte) (cl : List (Nat × Option Byte)) (rl : List (Nat × Word)) (d : Fin 128) (x : Word) :
    (written a bs cl rl s).wrS d x = written a bs cl rl (s.wrS d x) := by
  unfold State.wrS
  show (match s.w.own with
    | some r => _
    | none => _) = _
  cases s.w.own <;> rfl

end writing

/-! ## Group stores and atomics -/

/-- A wave without requests at peers has none to end. -/
theorem endRemotes_none (t : State) (h : ∀ r ∈ t.remotes, r.wave ≠ t.w.uid) : endRemotes t = t := by
  have all : t.remotes.filter (fun r => r.write || r.wave != t.w.uid || r.issue != t.iss.id) = t.remotes :=
    List.filter_eq_self.mpr fun r hr => by simp [h r hr]
  rw [endRemotes, all]

/-- An atomic on device memory whose line can be allocated goes ahead. -/
theorem atomicPre_near (op : Nat) (fx fy : Fin 32 → Word) (first : State → State) (va : DWord) (a : Nat) (t : State) (near : regionOf a = 0)
    (fits : (t.core t.coreNo).fits a = true) :
    allocPre (fun e => regionOf e.2.2.1 == 0) (remotePre op fx fy first) [(0, va, a, false)] t = (t, some []) := by
  have allocates : ([(0, va, a, false)] : Ready4).any (fun e => regionOf e.2.2.1 == 0 && !(t.core t.coreNo).fits e.2.2.1) = false := by
    simp [near, fits]
  have none : ([(0, va, a, false)] : Ready4).filter (fun e => decide (2 ≤ regionOf e.2.2.1)) = [] := by simp [near]
  rw [allocPre, allocates, remotePre, none]
  rfl

section stores
variable {s : State} {pa : Nat} (h : CanIssue s) (rest : AtRest s) (provs : s.provs = []) (clean : CleanL1 s)
include h rest provs clean

/-- A group store writes its bytes. -/
theorem issue_groupStore {j : Instr} (src : List Reg) (hs : Within src s) (a : Fin 128) (i : BitVec 9) (n : Nat) (pos : 0 < n) (few : n ≤ 2)
    (f : State → List Byte) (len : (f (past false s)).length = 4 * n) (map : Mapped true (4 * n) (s.rdSS a + i.signExtend 64) pa s)
    (means : exec j s = issue (stgSig src a) (stgBody (stgSig src a) (4 * n) f a i) s) :
    Writes j s { past false s with mem := s.mem.writes pa (f (past false s)) } := by
  have u : Undisturbed (past false s) := undisturbed_of_atRest rest provs
  have quiet := rest
  obtain ⟨-, -, -, -, regions, -, -, -, -, -, epilogues, -, repl, -, -, low, -, -⟩ := quiet
  obtain ⟨aligned, fit⟩ := mapped_words pos few map
  have start : Writing (past false s) (past false s) := ⟨rfl, sameCores_self _, low, regions, fun l hl w hw => (clean l hl w hw).1⟩
  have some_ : f (past false s) ≠ [] := List.length_pos_iff.mp (by omega)
  obtain ⟨cl, rl, stored⟩ := storeOne_writing start u repl (s.rdSS a + i.signExtend 64) pa (f (past false s)) some_ (by omega)
  refine writes_of_writing stored (stores_of_canIssue h) regions (means.trans ?_)
  refine issue_group_stores _ _ s h rfl (within_append (within_append hs (within_sPair a s)) (within_nil s)) rfl rfl rfl rfl rfl _ ?_
  exact groupAccess_mapped _ { size := 4 * n, access := .store, inBuffer := true } _ _ h rest map (fun _ => rfl) nofun (past false s) _ [] rfl epilogues rfl

/-- A group atomic writes the new value of its word and gives the former one. -/
theorem issue_groupAtomic {j : Instr} (op : AtomOp) (data : List Reg) (hs : Within data s) (d a : Fin 128) (i : BitVec 9)
    (map : Mapped true 4 (s.rdSS a + i.signExtend 64) pa s) (means : exec j s = issue (atomgSig data d a) (atomgBody (atomgSig data d a) op d a i) s) :
    Writes j s { (past false s).wrS d (BitVec.ofNat 32 (s.num pa 4)) with
      mem := s.mem.writes pa (leBytes 4 (op.apply (BitVec.ofNat 32 (s.num pa 4)) (s.rdS d) (s.rdS (odd d))).toNat) } := by
  have u : Undisturbed (past false s) := undisturbed_of_atRest rest provs
  have quiet := rest
  obtain ⟨-, -, -, -, regions, -, -, -, -, -, epilogues, remotes, -, -, free, low, -, -⟩ := quiet
  obtain ⟨aligned, fit⟩ := mapped_words (n := 1) (by decide) (by decide) map
  have near : regionOf pa = 0 := regionOf_low (by omega)
  have start : Writing (past false s) (past false s) := ⟨rfl, sameCores_self _, low, regions, fun l hl w hw => (clean l hl w hw).1⟩
  obtain ⟨cl, rl, former, stored⟩ := atomOne_writing start u op pa (s.rdS d) (s.rdS (odd d)) fit
  have num : (past false s).num pa 4 = s.num pa 4 := num_past false s pa 4
  rw [num] at former stored
  have remote : ∀ r ∈ (atomOne op pa (s.rdS d) (s.rdS (odd d)) (past false s)).1.remotes,
      r.wave ≠ (atomOne op pa (s.rdS d) (s.rdS (odd d)) (past false s)).1.w.uid := by
    have requests : (atomOne op pa (s.rdS d) (s.rdS (odd d)) (past false s)).1.remotes = s.remotes := (congrArg State.remotes stored.same :)
    have wave : (atomOne op pa (s.rdS d) (s.rdS (odd d)) (past false s)).1.w.uid = s.w.uid := congrArg (·.wave.uid) stored.grp
    rw [requests, wave]
    exact remotes
  have regs (v : State) : (v.wrS d (BitVec.ofNat 32 (s.num pa 4))).regions = v.regions := by
    unfold State.wrS
    split <;> rfl
  have final := stored.wrS d (BitVec.ofNat 32 (s.num pa 4))
  rw [written_wrS] at final
  have out := writes_of_writing (i := j) (s := s) final ((State.wrS_stores ..).trans (stores_of_canIssue h)) ((regs _).trans regions) (means.trans ?_)
  · rwa [State.wrS_mem] at out
  · rw [State.wrS_mem]
    refine issue_group_stores _ _ s h rfl (within_append (within_append hs (within_sPair a s)) (within_sReg d s)) rfl rfl rfl rfl rfl _ ?_
    refine groupAccess_mapped _ (cellNeed .store true) _ _ h rest map (fun _ => rfl) nofun (past false s)
      (atomOne op pa (s.rdS d) (s.rdS (odd d)) (past false s)).1 [.s d (BitVec.ofNat 32 (s.num pa 4))] ?_ epilogues ?_
    · exact atomicPre_near _ _ _ _ _ _ _ near (fits_of_freeWays free pa)
    · have ended := endRemotes_none _ remote
      have one : atomOne op pa ((past false s).rdS d) ((past false s).rdS (odd d)) (past false s) =
          ((atomOne op pa (s.rdS d) (s.rdS (odd d)) (past false s)).1, BitVec.ofNat 32 (s.num pa 4), false) := Prod.ext rfl former
      rw [if_neg (by rw [near]; decide), one]
      dsimp only
      rw [ended]
      rfl

/-- Group stores and atomics. -/
theorem groupStores (d a : Fin 128) (i : BitVec 9) :
    (Mapped true 4 (s.rdSS a + i.signExtend 64) pa s →
      Writes (.stgB32 d a i) s { past false s with mem := s.mem.writes pa (leBytes 4 (s.rdS d).toNat) }) ∧
    (Mapped true 8 (s.rdSS a + i.signExtend 64) pa s →
      Writes (.stgB64 d a i) s { past false s with mem := s.mem.writes pa (leBytes 8 (s.rdSS d).toNat) }) :=
  ⟨fun map => issue_groupStore h rest provs clean (sReg d) (within_sReg d s) a i 1 (by decide) (by decide) (fun s => leBytes 4 (s.rdS d).toNat) rfl map rfl,
   fun map => issue_groupStore h rest provs clean (sPair d) (within_sPair d s) a i 2 (by decide) (by decide) (fun s => leBytes 8 (s.rdSS d).toNat) rfl
    map rfl⟩

theorem groupAtomics (d a : Fin 128) (i : BitVec 9) (map : Mapped true 4 (s.rdSS a + i.signExtend 64) pa s) :
    Writes (.atomgAdd d a i) s { (past false s).wrS d (BitVec.ofNat 32 (s.num pa 4)) with
      mem := s.mem.writes pa (leBytes 4 (BitVec.ofNat 32 (s.num pa 4) + s.rdS d).toNat) } ∧
    Writes (.atomgCas d a i) s { (past false s).wrS d (BitVec.ofNat 32 (s.num pa 4)) with
      mem := s.mem.writes pa (leBytes 4 (if BitVec.ofNat 32 (s.num pa 4) = s.rdS d then s.rdS (odd d) else BitVec.ofNat 32 (s.num pa 4)).toNat) } :=
  ⟨issue_groupAtomic h rest provs clean .add (sReg d) (within_sReg d s) d a i map rfl,
   issue_groupAtomic h rest provs clean .cas (sPair d) (within_sPair d s) d a i map rfl⟩

end stores

/-- O20's half on memory: the loads, stores and atomics of the group set. -/
theorem groupAccesses : GroupAccesses := by
  intro s pa d a i h rest provs clean
  obtain ⟨load32, load64⟩ := groupLoads s pa d a i h rest provs clean
  obtain ⟨store32, store64⟩ := groupStores (pa := pa) h rest provs clean d a i
  exact ⟨load32, load64, store32, store64, groupAtomics h rest provs clean d a i⟩

/-- Settles O20: scratch within the allotment and mapped memory at rest let every access through, the caches being all that changes besides. -/
theorem groupAndScratchAccesses : Obligations.GroupAndScratchAccesses := by
  unfold Obligations.GroupAndScratchAccesses
  exact ⟨scratchAccesses, groupAccesses⟩

end Sys2Proof.Proofs.MachineState
end

section
namespace Sys2Proof.Proofs.MachineState
open Sys2Proof Sys2Proof.Machine Sys2Proof.Claims

/-- A launch of two groups that is under way. -/
def launchOfTwo : Owned where
  desc := 0x200000
  ctx := 0
  level := 1
  die := 0
  up := 0
  running := true
  cancelled := false
  status := 1
  next := 2
  nrec := 2
  first := 0
  handler := 0
  low := 1
  count := 2
  now := 0
  doneAt := 0
  clus := false
  repl := false
  records := []
  requeues := 0
  wrote := []
  roFrom := 0

/-- A group of that launch whose only wave, with uid 1, has ended while its write at the home of the peer of link 0 has not been acknowledged. -/
def endedUnacked : State := { State.reset with
  grp := { Group.blank with
    live := true, uid := 2, task := { Record.blank with launch := 0x200000 }, wave := { Wave.blank with uid := 1 } }
  owned := [launchOfTwo]
  remotes := [⟨true, 0, remoteTag, 1, 0, 0, none⟩] }

/-- A group stays on its core while a write of it awaits the acknowledgement of its home agent (R293). -/
theorem groupEnd_of_unacked : exec .groupEnd endedUnacked = .next endedUnacked := by
  exact next_of _ _ _ rfl rfl rfl

/-- Refutes O39: the clause about the end of a group does not assume that every write of the wave at a peer has been acknowledged. The group of
`endedUnacked` meets every hypothesis, but a GROUP_END leaves it on its core (R274, R293). -/
theorem not_startAndEndOfGroups : ¬ Obligations.StartAndEndOfGroups := by
  unfold Obligations.StartAndEndOfGroups
  rintro ⟨-, h⟩
  obtain ⟨u, hu, live, -⟩ := h endedUnacked launchOfTwo rfl ⟨rfl, rfl, rfl, rfl⟩ (by decide) rfl rfl rfl rfl rfl rfl (by decide) (.inl rfl)
  rw [groupEnd_of_unacked, Host.Outcome.next.injEq] at hu
  subst hu
  exact absurd live (by decide)

end Sys2Proof.Proofs.MachineState
end

section
/-! Encoding: the word of an instruction selects it, format by format (R52, R63, R64), its bytes are those of its parcels (R44), and
decoding reads back what was written. -/

namespace Sys2Proof.Proofs.Encoding
open Sys2Proof Sys2Proof.Machine Sys2Proof.Claims

/-! ## The words of the formats -/

/-- A field whose bits are those of a value reads as the value. -/
theorem field_eq {n : Nat} [NeZero n] {w lo : Nat} {x : Fin n} (h : w / 2 ^ lo % n = x.val) : field n w lo = x :=
  Fin.ext h

theorem immField_eq {n w lo : Nat} {x : BitVec n} (h : w / 2 ^ lo % 2 ^ n = x.toNat) : immField n w lo = x :=
  BitVec.eq_of_toNat_eq ((BitVec.toNat_ofNat _ _).trans h)

section formats
variable {base : Nat}

/-- Three registers (R103, R105, R111). -/
theorem select_threeRegisters {mk : Fin 128 → Fin 128 → Fin 128 → Instr} (low : base % 8388608 < 4)
    (names : ∀ w, w / 8388608 = base / 8388608 → w % 4 = base % 4 → select w = .ok (mk (field 128 w 16) (field 128 w 9) (field 128 w 2)))
    (d a b : Fin 128) : select (base + d.val * 65536 + a.val * 512 + b.val * 4) = .ok (mk d a b) := by
  rw [names _ (by omega) (by omega), field_eq (x := d) (by omega), field_eq (x := a) (by omega), field_eq (x := b) (by omega)]

/-- Two registers and an immediate (R104). -/
theorem select_registersImmediate {mk : Fin 128 → Fin 128 → BitVec 9 → Instr} (low : base % 8388608 = 0)
    (names : ∀ w, w / 8388608 = base / 8388608 → select w = .ok (mk (field 128 w 16) (field 128 w 9) (immField 9 w 0)))
    (d a : Fin 128) (i : BitVec 9) : select (base + d.val * 65536 + a.val * 512 + i.toNat) = .ok (mk d a i) := by
  rw [names _ (by omega), field_eq (x := d) (by omega), field_eq (x := a) (by omega), immField_eq (x := i) (by omega)]

/-- Two registers. -/
theorem select_twoRegisters {mk : Fin 128 → Fin 128 → Instr} (low : base % 8388608 < 512)
    (names : ∀ w, w / 8388608 = base / 8388608 → w % 4 = base % 4 → w % 512 = base % 512 → select w = .ok (mk (field 128 w 16) (field 128 w 9)))
    (d a : Fin 128) : select (base + d.val * 65536 + a.val * 512) = .ok (mk d a) := by
  rw [names _ (by omega) (by omega) (by omega), field_eq (x := d) (by omega), field_eq (x := a) (by omega)]

/-- Three registers and a mode: a rounding (R150) or a predicate (R113). -/
theorem select_threeRegistersMode {mk : Fin 128 → Fin 128 → Fin 128 → Fin 4 → Instr} (low : base % 8388608 = 0)
    (names : ∀ w, w / 8388608 = base / 8388608 → select w = .ok (mk (field 128 w 16) (field 128 w 9) (field 128 w 2) (field 4 w 0)))
    (d a b : Fin 128) (p : Fin 4) : select (base + d.val * 65536 + a.val * 512 + b.val * 4 + p.val) = .ok (mk d a b p) := by
  rw [names _ (by omega), field_eq (x := d) (by omega), field_eq (x := a) (by omega), field_eq (x := b) (by omega), field_eq (x := p) (by omega)]

/-- Two registers and a lookahead (R154). -/
theorem select_twoRegistersLook {mk : Fin 128 → Fin 128 → Fin 16 → Instr} (low : base % 8388608 < 32 ∧ base % 16 = 0)
    (names : ∀ w, w / 8388608 = base / 8388608 → w / 16 % 32 = base / 16 % 32 → select w = .ok (mk (field 128 w 16) (field 128 w 9) (field 16 w 0)))
    (d a : Fin 128) (l : Fin 16) : select (base + d.val * 65536 + a.val * 512 + l.val) = .ok (mk d a l) := by
  rw [names _ (by omega) (by omega), field_eq (x := d) (by omega), field_eq (x := a) (by omega), field_eq (x := l) (by omega)]

/-- fsqrt: two registers, a rounding and a lookahead. -/
theorem select_fsqrt {mk : Fin 128 → Fin 128 → Fin 4 → Fin 16 → Instr} (low : base % 8388608 = 0)
    (names : ∀ w, w / 8388608 = base / 8388608 → select w = .ok (mk (field 128 w 16) (field 128 w 9) (field 4 w 4) (field 16 w 0)))
    (d a : Fin 128) (r : Fin 4) (l : Fin 16) : select (base + d.val * 65536 + a.val * 512 + r.val * 16 + l.val) = .ok (mk d a r l) := by
  rw [names _ (by omega), field_eq (x := d) (by omega), field_eq (x := a) (by omega), field_eq (x := r) (by omega), field_eq (x := l) (by omega)]

/-- Conversions: two registers, two formats and a rounding (R158). -/
theorem select_conversion {mk : Fin 128 → Fin 128 → Fin 8 → Fin 8 → Fin 4 → Instr} (low : base % 8388608 = 0)
    (names : ∀ w, w / 8388608 = base / 8388608 → select w = .ok (mk (field 128 w 16) (field 128 w 9) (field 8 w 6) (field 8 w 3) (field 4 w 0)))
    (d a : Fin 128) (y x : Fin 8) (r : Fin 4) :
    select (base + d.val * 65536 + a.val * 512 + y.val * 64 + x.val * 8 + r.val) = .ok (mk d a y x r) := by
  rw [names _ (by omega), field_eq (x := d) (by omega), field_eq (x := a) (by omega), field_eq (x := y) (by omega), field_eq (x := x) (by omega),
    field_eq (x := r) (by omega)]

/-- Loads: register, offset, base and lookahead (R171). -/
theorem select_load {mk : Fin 128 → Fin 128 → Fin 32 → Fin 16 → Instr} (low : base % 8388608 = 0)
    (names : ∀ w, w / 8388608 = base / 8388608 → select w = .ok (mk (field 128 w 16) (field 128 w 9) (field 32 w 4) (field 16 w 0)))
    (d a : Fin 128) (b : Fin 32) (l : Fin 16) : select (base + d.val * 65536 + a.val * 512 + b.val * 16 + l.val) = .ok (mk d a b l) := by
  rw [names _ (by omega), field_eq (x := d) (by omega), field_eq (x := a) (by omega), field_eq (x := b) (by omega), field_eq (x := l) (by omega)]

/-- Stores: register, offset and base (R171). -/
theorem select_store {mk : Fin 128 → Fin 128 → Fin 32 → Instr} (low : base % 8388608 = 0)
    (names : ∀ w, w / 8388608 = base / 8388608 → select w = .ok (mk (field 128 w 16) (field 128 w 9) (field 32 w 4))) (s a : Fin 128) (b : Fin 32) :
    select (base + s.val * 65536 + a.val * 512 + b.val * 16) = .ok (mk s a b) := by
  rw [names _ (by omega), field_eq (x := s) (by omega), field_eq (x := a) (by omega), field_eq (x := b) (by omega)]

/-- Atomics: registers, base, ordering and lookahead (R196). -/
theorem select_atomic {mk : Fin 128 → Fin 128 → Fin 8 → Fin 4 → Fin 16 → Instr} (low : base % 8388608 = 0)
    (names : ∀ w, w / 8388608 = base / 8388608 → select w = .ok (mk (field 128 w 16) (field 128 w 9) (field 8 w 6) (field 4 w 4) (field 16 w 0)))
    (d a : Fin 128) (b : Fin 8) (o : Fin 4) (l : Fin 16) :
    select (base + d.val * 65536 + a.val * 512 + b.val * 64 + o.val * 16 + l.val) = .ok (mk d a b o l) := by
  rw [names _ (by omega), field_eq (x := d) (by omega), field_eq (x := a) (by omega), field_eq (x := b) (by omega), field_eq (x := o) (by omega),
    field_eq (x := l) (by omega)]

/-- settle: offset and base. -/
theorem select_settle {mk : Fin 128 → Fin 32 → Instr} (low : base % 8388608 = 0)
    (names : ∀ w, w / 8388608 = base / 8388608 → select w = .ok (mk (field 128 w 9) (field 32 w 4))) (a : Fin 128) (b : Fin 32) :
    select (base + a.val * 512 + b.val * 16) = .ok (mk a b) := by
  rw [names _ (by omega), field_eq (x := a) (by omega), field_eq (x := b) (by omega)]

/-- epi.st: format, tile, offset and base (R224). -/
theorem select_epilogue {mk : Fin 8 → Fin 16 → Fin 128 → Fin 32 → Instr} (low : base % 8388608 = 0)
    (names : ∀ w, w / 8388608 = base / 8388608 → select w = .ok (mk (field 8 w 20) (field 16 w 16) (field 128 w 9) (field 32 w 4)))
    (f : Fin 8) (t : Fin 16) (a : Fin 128) (b : Fin 32) :
    select (base + f.val * 1048576 + t.val * 65536 + a.val * 512 + b.val * 16) = .ok (mk f t a b) := by
  rw [names _ (by omega), field_eq (x := f) (by omega), field_eq (x := t) (by omega), field_eq (x := a) (by omega), field_eq (x := b) (by omega)]

/-- Multiplies: tile, operands, range and lookahead (R219). -/
theorem select_multiply {mk : Fin 16 → Fin 8 → Fin 8 → Fin 256 → Fin 16 → Instr} (low : base % 8388608 = 0)
    (names : ∀ w, w / 8388608 = base / 8388608 → select w = .ok (mk (field 16 w 19) (field 8 w 16) (field 8 w 13) (field 256 w 4) (field 16 w 0)))
    (t : Fin 16) (x y : Fin 8) (s : Fin 256) (l : Fin 16) :
    select (base + t.val * 524288 + x.val * 65536 + y.val * 8192 + s.val * 16 + l.val) = .ok (mk t x y s l) := by
  rw [names _ (by omega), field_eq (x := t) (by omega), field_eq (x := x) (by omega), field_eq (x := y) (by omega), field_eq (x := s) (by omega),
    field_eq (x := l) (by omega)]

/-- acc.zero: tile and side. -/
theorem select_accZero {mk : Fin 16 → Fin 2 → Instr} (low : base % 8388608 = 0)
    (names : ∀ w, w / 8388608 = base / 8388608 → w % 4 = base % 4 → select w = .ok (mk (field 16 w 16) (field 2 w 2))) (t : Fin 16) (s : Fin 2) :
    select (base + t.val * 65536 + s.val * 4) = .ok (mk t s) := by
  rw [names _ (by omega) (by omega), field_eq (x := t) (by omega), field_eq (x := s) (by omega)]

/-- acc.mov: tiles and side. -/
theorem select_accMov {mk : Fin 16 → Fin 16 → Fin 2 → Instr} (low : base % 8388608 < 4)
    (names : ∀ w, w / 8388608 = base / 8388608 → w % 4 = base % 4 → select w = .ok (mk (field 16 w 16) (field 16 w 9) (field 2 w 2)))
    (d a : Fin 16) (s : Fin 2) : select (base + d.val * 65536 + a.val * 512 + s.val * 4) = .ok (mk d a s) := by
  rw [names _ (by omega) (by omega), field_eq (x := d) (by omega), field_eq (x := a) (by omega), field_eq (x := s) (by omega)]

/-- acc.rd: register, tile and column. -/
theorem select_accRd {mk : Fin 128 → Fin 16 → Fin 128 → Instr} (low : base % 8388608 < 4)
    (names : ∀ w, w / 8388608 = base / 8388608 → w % 4 = base % 4 → select w = .ok (mk (field 128 w 16) (field 16 w 9) (field 128 w 2)))
    (d : Fin 128) (t : Fin 16) (c : Fin 128) : select (base + d.val * 65536 + t.val * 512 + c.val * 4) = .ok (mk d t c) := by
  rw [names _ (by omega) (by omega), field_eq (x := d) (by omega), field_eq (x := t) (by omega), field_eq (x := c) (by omega)]

/-- acc.wr: tile, register and column. -/
theorem select_accWr {mk : Fin 16 → Fin 128 → Fin 128 → Instr} (low : base % 8388608 < 4)
    (names : ∀ w, w / 8388608 = base / 8388608 → w % 4 = base % 4 → select w = .ok (mk (field 16 w 16) (field 128 w 9) (field 128 w 2)))
    (t : Fin 16) (a c : Fin 128) : select (base + t.val * 65536 + a.val * 512 + c.val * 4) = .ok (mk t a c) := by
  rw [names _ (by omega) (by omega), field_eq (x := t) (by omega), field_eq (x := a) (by omega), field_eq (x := c) (by omega)]

/-- gets of a lane: register and special register. -/
theorem select_gets {mk : Fin 128 → Fin 512 → Instr} (low : base % 8388608 = 0)
    (names : ∀ w, w / 8388608 = base / 8388608 → select w = .ok (mk (field 128 w 16) (field 512 w 0))) (d : Fin 128) (n : Fin 512) :
    select (base + d.val * 65536 + n.val) = .ok (mk d n) := by
  rw [names _ (by omega), field_eq (x := d) (by omega), field_eq (x := n) (by omega)]

/-- A register and a queue or mask. -/
theorem select_registerIndex {mk : Fin 128 → Fin 16 → Instr} (low : base % 8388608 = 0)
    (names : ∀ w, w / 8388608 = base / 8388608 → select w = .ok (mk (field 128 w 16) (field 16 w 4))) (s : Fin 128) (q : Fin 16) :
    select (base + s.val * 65536 + q.val * 16) = .ok (mk s q) := by
  rw [names _ (by omega), field_eq (x := s) (by omega), field_eq (x := q) (by omega)]

/-- qpop: register, queue and lookahead. -/
theorem select_qpop {mk : Fin 128 → Fin 16 → Fin 16 → Instr} (low : base % 8388608 = 0)
    (names : ∀ w, w / 8388608 = base / 8388608 → select w = .ok (mk (field 128 w 16) (field 16 w 4) (field 16 w 0))) (d : Fin 128) (q l : Fin 16) :
    select (base + d.val * 65536 + q.val * 16 + l.val) = .ok (mk d q l) := by
  rw [names _ (by omega), field_eq (x := d) (by omega), field_eq (x := q) (by omega), field_eq (x := l) (by omega)]

/-- Constants: register and 16 bits (R110). -/
theorem select_constant {mk : Fin 128 → BitVec 16 → Instr} (low : base % 8388608 = 0)
    (names : ∀ w, w / 8388608 = base / 8388608 → select w = .ok (mk (field 128 w 16) (immField 16 w 0))) (d : Fin 128) (i : BitVec 16) :
    select (base + d.val * 65536 + i.toNat) = .ok (mk d i) := by
  rw [names _ (by omega), field_eq (x := d) (by omega), immField_eq (x := i) (by omega)]

/-- Branches: a displacement (R128). -/
theorem select_branch {mk : BitVec 23 → Instr} (low : base % 8388608 = 0)
    (names : ∀ w, w / 8388608 = base / 8388608 → select w = .ok (mk (immField 23 w 0))) (f : BitVec 23) : select (base + f.toNat) = .ok (mk f) := by
  rw [names _ (by omega), immField_eq (x := f) (by omega)]

/-- jmp: a pair at bit 9. -/
theorem select_jmp {mk : Fin 128 → Instr} (low : base % 8388608 = 0) (names : ∀ w, w / 8388608 = base / 8388608 → select w = .ok (mk (field 128 w 9)))
    (a : Fin 128) : select (base + a.val * 512) = .ok (mk a) := by
  rw [names _ (by omega), field_eq (x := a) (by omega)]

/-- One register at bit 16. -/
theorem select_oneRegister {mk : Fin 128 → Instr} (low : base % 8388608 < 65536)
    (names : ∀ w, w / 8388608 = base / 8388608 → w % 512 = base % 512 → w % 65536 = base % 65536 → select w = .ok (mk (field 128 w 16)))
    (a : Fin 128) : select (base + a.val * 65536) = .ok (mk a) := by
  rw [names _ (by omega) (by omega) (by omega), field_eq (x := a) (by omega)]

/-- Guards: predicate and count (R62). -/
theorem select_guard {mk : Fin 8 → Fin 16 → Instr} (low : base % 8388608 < 4096 ∧ base % 2048 = 0)
    (names : ∀ w, w / 8388608 = base / 8388608 → w / 2048 % 4096 = base / 2048 % 4096 → select w = .ok (mk (field 8 w 8) (field 16 w 4)))
    (p : Fin 8) (n : Fin 16) : select (base + p.val * 256 + n.val * 16) = .ok (mk p n) := by
  rw [names _ (by omega) (by omega), field_eq (x := p) (by omega), field_eq (x := n) (by omega)]

/-- One mask register (R139). -/
theorem select_mask {mk : Fin 16 → Instr} (low : base % 8388608 = 0) (names : ∀ w, w / 8388608 = base / 8388608 → select w = .ok (mk (field 16 w 4)))
    (k : Fin 16) : select (base + k.val * 16) = .ok (mk k) := by
  rw [names _ (by omega), field_eq (x := k) (by omega)]

/-- Two masks or ports. -/
theorem select_twoIndices {mk : Fin 16 → Fin 16 → Instr} (low : base % 8388608 = 0)
    (names : ∀ w, w / 8388608 = base / 8388608 → select w = .ok (mk (field 16 w 8) (field 16 w 4))) (a d : Fin 16) :
    select (base + a.val * 256 + d.val * 16) = .ok (mk a d) := by
  rw [names _ (by omega), field_eq (x := a) (by omega), field_eq (x := d) (by omega)]

/-- Eight bits. -/
theorem select_immediate8 {mk : BitVec 8 → Instr} (low : base % 8388608 = 0)
    (names : ∀ w, w / 8388608 = base / 8388608 → select w = .ok (mk (immField 8 w 8))) (c : BitVec 8) :
    select (base + c.toNat * 256) = .ok (mk c) := by
  rw [names _ (by omega), immField_eq (x := c) (by omega)]

/-- gets of the group: register and special register. -/
theorem select_groupGets {mk : Fin 128 → Fin 512 → Instr} (low : base % 8388608 = 0)
    (names : ∀ w, w / 8388608 = base / 8388608 → select w = .ok (mk (field 128 w 16) (field 512 w 7))) (d : Fin 128) (n : Fin 512) :
    select (base + d.val * 65536 + n.val * 128) = .ok (mk d n) := by
  rw [names _ (by omega), field_eq (x := d) (by omega), field_eq (x := n) (by omega)]

/-- sets: register, special register and form (R268). -/
theorem select_sets {mk : Fin 128 → Fin 512 → Fin 2 → Instr} (low : base % 8388608 = 0)
    (names : ∀ w, w / 8388608 = base / 8388608 → select w = .ok (mk (field 128 w 16) (field 512 w 7) (field 2 w 6)))
    (s : Fin 128) (n : Fin 512) (x : Fin 2) : select (base + s.val * 65536 + n.val * 128 + x.val * 64) = .ok (mk s n x) := by
  rw [names _ (by omega), field_eq (x := s) (by omega), field_eq (x := n) (by omega), field_eq (x := x) (by omega)]

/-- votec: register, predicate and mask. -/
theorem select_votec {mk : Fin 128 → Fin 8 → Fin 16 → Instr} (low : base % 8388608 = 0)
    (names : ∀ w, w / 8388608 = base / 8388608 → select w = .ok (mk (field 128 w 16) (field 8 w 8) (field 16 w 0)))
    (d : Fin 128) (p : Fin 8) (k : Fin 16) : select (base + d.val * 65536 + p.val * 256 + k.val) = .ok (mk d p k) := by
  rw [names _ (by omega), field_eq (x := d) (by omega), field_eq (x := p) (by omega), field_eq (x := k) (by omega)]

/-- ck.chk: mode, checksum registers and bound (R164). -/
theorem select_ckChk {mk : Fin 4 → Fin 4 → Fin 16 → Instr} (low : base % 8388608 = 0)
    (names : ∀ w, w / 8388608 = base / 8388608 → select w = .ok (mk (field 4 w 10) (field 4 w 8) (field 16 w 4))) (m b : Fin 4) (a : Fin 16) :
    select (base + m.val * 1024 + b.val * 256 + a.val * 16) = .ok (mk m b a) := by
  rw [names _ (by omega), field_eq (x := m) (by omega), field_eq (x := b) (by omega), field_eq (x := a) (by omega)]

/-- obres: pair and range. -/
theorem select_obres {mk : Fin 128 → Fin 8 → Instr} (low : base % 8388608 = 0)
    (names : ∀ w, w / 8388608 = base / 8388608 → select w = .ok (mk (field 128 w 16) (field 8 w 4))) (a : Fin 128) (n : Fin 8) :
    select (base + a.val * 65536 + n.val * 16) = .ok (mk a n) := by
  rw [names _ (by omega), field_eq (x := a) (by omega), field_eq (x := n) (by omega)]

/-- Fills of an operand buffer: registers and range (R214). -/
theorem select_fill {mk : Fin 128 → Fin 128 → Fin 8 → Instr} (low : base % 8388608 = 0)
    (names : ∀ w, w / 8388608 = base / 8388608 → select w = .ok (mk (field 128 w 16) (field 128 w 9) (field 8 w 4))) (a b : Fin 128) (n : Fin 8) :
    select (base + a.val * 65536 + b.val * 512 + n.val * 16) = .ok (mk a b n) := by
  rw [names _ (by omega), field_eq (x := a) (by omega), field_eq (x := b) (by omega), field_eq (x := n) (by omega)]

/-- Merges: root, output, tile and lookahead (R229). -/
theorem select_merge {mk : Fin 16 → Fin 2 → Fin 16 → Fin 16 → Instr} (low : base % 8388608 < 1024 ∧ base % 256 = 0)
    (names : ∀ w, w / 8388608 = base / 8388608 → w / 256 % 4 = base / 256 % 4 →
      select w = .ok (mk (field 16 w 11) (field 2 w 10) (field 16 w 4) (field 16 w 0)))
    (r : Fin 16) (o : Fin 2) (t l : Fin 16) : select (base + r.val * 2048 + o.val * 1024 + t.val * 16 + l.val) = .ok (mk r o t l) := by
  rw [names _ (by omega) (by omega), field_eq (x := r) (by omega), field_eq (x := o) (by omega), field_eq (x := t) (by omega),
    field_eq (x := l) (by omega)]

/-- Attention: handle, tile, operand, count and lookahead (R251). -/
theorem select_attention {mk : Fin 64 → Fin 16 → Fin 8 → Fin 32 → Fin 16 → Instr} (low : base % 8388608 = 0)
    (names : ∀ w, w / 8388608 = base / 8388608 → select w = .ok (mk (field 64 w 17) (field 16 w 13) (field 8 w 10) (field 32 w 4) (field 16 w 0)))
    (h : Fin 64) (t : Fin 16) (q : Fin 8) (n : Fin 32) (l : Fin 16) :
    select (base + h.val * 131072 + t.val * 8192 + q.val * 1024 + n.val * 16 + l.val) = .ok (mk h t q n l) := by
  rw [names _ (by omega), field_eq (x := h) (by omega), field_eq (x := t) (by omega), field_eq (x := q) (by omega), field_eq (x := n) (by omega),
    field_eq (x := l) (by omega)]

/-- attn.pv: handle, tiles, count and lookahead (R252). -/
theorem select_attnPv {mk : Fin 64 → Fin 16 → Fin 16 → Fin 32 → Fin 16 → Instr} (low : base % 8388608 = 0)
    (names : ∀ w, w / 8388608 = base / 8388608 → select w = .ok (mk (field 64 w 17) (field 16 w 13) (field 16 w 9) (field 32 w 4) (field 16 w 0)))
    (h : Fin 64) (o p : Fin 16) (n : Fin 32) (l : Fin 16) :
    select (base + h.val * 131072 + o.val * 8192 + p.val * 512 + n.val * 16 + l.val) = .ok (mk h o p n l) := by
  rw [names _ (by omega), field_eq (x := h) (by omega), field_eq (x := o) (by omega), field_eq (x := p) (by omega), field_eq (x := n) (by omega),
    field_eq (x := l) (by omega)]

/-- topk: register, count, tile and lookahead (R255). -/
theorem select_topk {mk : Fin 128 → Fin 32 → Fin 16 → Fin 16 → Instr} (low : base % 8388608 < 2048 ∧ base % 256 = 0)
    (names : ∀ w, w / 8388608 = base / 8388608 → w / 256 % 8 = base / 256 % 8 →
      select w = .ok (mk (field 128 w 16) (field 32 w 11) (field 16 w 4) (field 16 w 0)))
    (d : Fin 128) (k : Fin 32) (t l : Fin 16) : select (base + d.val * 65536 + k.val * 2048 + t.val * 16 + l.val) = .ok (mk d k t l) := by
  rw [names _ (by omega) (by omega), field_eq (x := d) (by omega), field_eq (x := k) (by omega), field_eq (x := t) (by omega),
    field_eq (x := l) (by omega)]

/-- gather.comb: handle, mode and queue (R256). -/
theorem select_gather {mk : Fin 64 → Fin 32 → Fin 16 → Instr} (low : base % 8388608 = 0)
    (names : ∀ w, w / 8388608 = base / 8388608 → select w = .ok (mk (field 64 w 17) (field 32 w 12) (field 16 w 8)))
    (h : Fin 64) (m : Fin 32) (q : Fin 16) : select (base + h.val * 131072 + m.val * 4096 + q.val * 256) = .ok (mk h m q) := by
  rw [names _ (by omega), field_eq (x := h) (by omega), field_eq (x := m) (by omega), field_eq (x := q) (by omega)]

/-- Fabric commands: command block and queue (R260). -/
theorem select_fabric {mk : Fin 64 → Fin 16 → Instr} (low : base % 8388608 = 0)
    (names : ∀ w, w / 8388608 = base / 8388608 → select w = .ok (mk (field 64 w 17) (field 16 w 8))) (c : Fin 64) (q : Fin 16) :
    select (base + c.val * 131072 + q.val * 256) = .ok (mk c q) := by
  rw [names _ (by omega), field_eq (x := c) (by omega), field_eq (x := q) (by omega)]

/-- A pair and a scope (R394, R403). -/
theorem select_scope {mk : Fin 64 → Fin 4 → Instr} (low : base % 8388608 = 0)
    (names : ∀ w, w / 8388608 = base / 8388608 → select w = .ok (mk (field 64 w 17) (field 4 w 8))) (v : Fin 64) (s : Fin 4) :
    select (base + v.val * 131072 + s.val * 256) = .ok (mk v s) := by
  rw [names _ (by omega), field_eq (x := v) (by omega), field_eq (x := s) (by omega)]

/-- migrate: pairs and register (R395). -/
theorem select_migrate {mk : Fin 64 → Fin 64 → Fin 128 → Instr} (low : base % 8388608 = 0)
    (names : ∀ w, w / 8388608 = base / 8388608 → select w = .ok (mk (field 64 w 17) (field 64 w 11) (field 128 w 4))) (v p : Fin 64) (d : Fin 128) :
    select (base + v.val * 131072 + p.val * 2048 + d.val * 16) = .ok (mk v p d) := by
  rw [names _ (by omega), field_eq (x := v) (by omega), field_eq (x := p) (by omega), field_eq (x := d) (by omega)]

end formats

/-- The opcode maps of R63 and R64: the word of every instruction but a dictionary code selects it, format by format (R52); a term that is none of
them is a code or an event, which has no word. -/
theorem select_encode (i : Instr) (formed : i.wellFormed = true) (word : ∀ s j l, i ≠ .dictionaryCode s j l) : select (encode i) = .ok i := by
  cases i
  case addB32 d a b | addSatI32 d a b | addSatN32 d a b | subB32 d a b | subSatI32 d a b | subSatN32 d a b | mulLoB32 d a b | mulHiI32 d a b |
      mulHiN32 d a b | minI32 d a b | minN32 d a b | maxI32 d a b | maxN32 d a b | addB64 d a b | subB64 d a b | andB32 d a b | orB32 d a b |
      xorB32 d a b | andnB32 d a b | shlB32 d a b | shrN32 d a b | sarI32 d a b | rotB32 d a b | bfeN32 d a b | bfeI32 d a b | permB8 d a b |
      lutN4 d a b | cmpEqB32 d a b | cmpEqF32 d a b | cmpNeB32 d a b | cmpNeF32 d a b | cmpLtI32 d a b | cmpLtN32 d a b | cmpLtF32 d a b |
      cmpLeI32 d a b | cmpLeN32 d a b | cmpLeF32 d a b | xlaneFrom d a b | xlaneBack d a b | xlaneFwd d a b | xlaneSwap d a b | lshB32 d a b |
      lshB8 d a b | fminF32 d a b | fminNumF32 d a b | fmaxF32 d a b | fmaxNumF32 d a b | fcopysignF32 d a b =>
    exact select_threeRegisters (by decide) (fun _ major sub => by rw [select, laneLow, major, sub]; rfl) d a b
  case madB32 d a b | bfiB32 d a b | bcast d a b =>
    exact select_threeRegisters (by decide) (fun _ major _ => by rw [select, laneLow, major]; rfl) d a b
  case addi d a i | muli d a i | andi d a i | ori d a i | xori d a i | shli d a i | shri d a i | sari d a i =>
    exact select_registersImmediate (by decide) (fun _ major => by rw [select, laneLow, major]; rfl) d a i
  case popcB32 d a | clzB32 d a | ctzB32 d a | brevB32 d a | movB32 d a | movB64 d a | wtestEvery d a | wtestSome d a | wtestAgree d a =>
    exact select_twoRegisters (by decide) (fun _ major _ sub => by rw [select, laneLow, major, sub]; rfl) d a
  case movs d a | ballot d a => exact select_twoRegisters (by decide) (fun _ major _ _ => by rw [select, laneLow, major]; rfl) d a
  case fabsF32 d a | fnegF32 d a => exact select_twoRegisters (by decide) (fun _ major sub _ => by rw [select, laneLow, major, sub]; rfl) d a
  case sel d a b p | faddF32 d a b p | fsubF32 d a b p | fmulF32 d a b p | ffmaF32 d a b p =>
    exact select_threeRegistersMode (by decide) (fun _ major => by rw [select, laneLow, major]; rfl) d a b p
  case frcpF32 d a l | frsqF32 d a l | fexp2F32 d a l | flog2F32 d a l =>
    exact select_twoRegistersLook (by decide) (fun _ major _ => by rw [select, laneLow, major]; rfl) d a l
  case fsinF32 d a l | fcosF32 d a l => exact select_twoRegistersLook (by decide) (fun _ major sub => by rw [select, laneLow, major, sub]; rfl) d a l
  case fsqrtF32 d a r l => exact select_fsqrt (by decide) (fun _ major => by rw [select, laneLow, major]; rfl) d a r l
  case cvtf d a y x r | cvti d a y x r => exact select_conversion (by decide) (fun _ major => by rw [select, laneLow, major]; rfl) d a y x r
  case sbpackSb3 d a | sbpackSb5 d a | sbpackSb8 d a | sbunpSb3 d a | sbunpSb5 d a | sbunpSb8 d a | ckAccB32 d a | ckAccB64 d a =>
    exact select_twoRegisters (by decide) (fun _ major _ sub => by rw [select, laneHigh, major, sub]; rfl) d a
  case ldN8 d a b l | ldI8 d a b l | ldN16 d a b l | ldB32 d a b l | ldB64 d a b l | ldRoB32 d a b l | ldRoB64 d a b l | retract d a b l |
      ldsN8 d a b l | ldsN16 d a b l | ldsB32 d a b l | ldsB64 d a b l | combLd d a b l =>
    exact select_load (by decide) (fun _ major => by rw [select, laneHigh, major]; rfl) d a b l
  case stB8 s a b | stB16 s a b | stB32 s a b | stB64 s a b | stNtB32 s a b | stNtB64 s a b | tst s a b | stsB8 s a b | stsB16 s a b | stsB32 s a b |
      stsB64 s a b | redF32 s a b | redBf16 s a b | redE4m3 s a b | redE5m2 s a b | combSt s a b =>
    exact select_store (by decide) (fun _ major => by rw [select, laneHigh, major]; rfl) s a b
  case atomAdd d a b o l | atomMin d a b o l | atomMax d a b o l | atomAnd d a b o l | atomOr d a b o l | atomXor d a b o l | atomXchg d a b o l |
      atomCas d a b o l =>
    exact select_atomic (by decide) (fun _ major => by rw [select, laneHigh, major]; rfl) d a b o l
  case settle a b => exact select_settle (by decide) (fun _ major => by rw [select, laneHigh, major]; rfl) a b
  case epiSt f t a b => exact select_epilogue (by decide) (fun _ major => by rw [select, laneHigh, major]; rfl) f t a b
  case mma t x y s l | mmaZ t x y s l => exact select_multiply (by decide) (fun _ major => by rw [select, laneHigh, major]; rfl) t x y s l
  case accZero t s => exact select_accZero (by decide) (fun _ major sub => by rw [select, laneHigh, major, sub]; rfl) t s
  case accMov d a s => exact select_accMov (by decide) (fun _ major sub => by rw [select, laneHigh, major, sub]; rfl) d a s
  case accRd d t c => exact select_accRd (by decide) (fun _ major sub => by rw [select, laneHigh, major, sub]; rfl) d t c
  case accWr t a c => exact select_accWr (by decide) (fun _ major sub => by rw [select, laneHigh, major, sub]; rfl) t a c
  case gets d n => exact select_gets (by decide) (fun _ major => by rw [select, laneHigh, major]; rfl) d n
  case qpush s q => exact select_registerIndex (by decide) (fun _ major => by rw [select, laneHigh, major]; rfl) s q
  case qpop d q l => exact select_qpop (by decide) (fun _ major => by rw [select, laneHigh, major]; rfl) d q l
  case gAddB32 d a b | gAddSatI32 d a b | gAddSatN32 d a b | gSubB32 d a b | gSubSatI32 d a b | gSubSatN32 d a b | gMulLoB32 d a b |
      gMulHiI32 d a b | gMulHiN32 d a b | gMinI32 d a b | gMinN32 d a b | gMaxI32 d a b | gMaxN32 d a b | gAddB64 d a b | gSubB64 d a b |
      gAndB32 d a b | gOrB32 d a b | gXorB32 d a b | gAndnB32 d a b | gShlB32 d a b | gShrN32 d a b | gSarI32 d a b | gRotB32 d a b | gBfeN32 d a b |
      gBfeI32 d a b | gCmpEqB32 d a b | gCmpEqF32 d a b | gCmpNeB32 d a b | gCmpNeF32 d a b | gCmpLtI32 d a b | gCmpLtN32 d a b | gCmpLtF32 d a b |
      gCmpLeI32 d a b | gCmpLeN32 d a b | gCmpLeF32 d a b =>
    exact select_threeRegisters (by decide) (fun _ major sub => by rw [select, groupLow, major, sub]; rfl) d a b
  case gMadB32 d a b | gBfiB32 d a b => exact select_threeRegisters (by decide) (fun _ major _ => by rw [select, groupLow, major]; rfl) d a b
  case gAddi d a i | gMuli d a i | gAndi d a i | gOri d a i | gXori d a i | gShli d a i | gShri d a i | gSari d a i =>
    exact select_registersImmediate (by decide) (fun _ major => by rw [select, groupLow, major]; rfl) d a i
  case gPopcB32 d a | gClzB32 d a | gCtzB32 d a | gBrevB32 d a | gMovB32 d a | gMovB64 d a =>
    exact select_twoRegisters (by decide) (fun _ major _ sub => by rw [select, groupLow, major, sub]; rfl) d a
  case spawn d a => exact select_twoRegisters (by decide) (fun _ major _ _ => by rw [select, groupLow, major]; rfl) d a
  case gFaddF32 d a b p | gFsubF32 d a b p | gFmulF32 d a b p | gFfmaF32 d a b p =>
    exact select_threeRegistersMode (by decide) (fun _ major => by rw [select, groupLow, major]; rfl) d a b p
  case lcLo d i | lcHi d i => exact select_constant (by decide) (fun _ major => by rw [select, groupLow, major]; rfl) d i
  case br f | call f => exact select_branch (by decide) (fun _ major => by rw [select, groupLow, major]; rfl) f
  case jmp a => exact select_jmp (by decide) (fun _ major => by rw [select, groupLow, major]; rfl) a
  case ret a | sleep a | joindec a => exact select_oneRegister (by decide) (fun _ major _ _ => by rw [select, groupLow, major]; rfl) a
  case acquireExplicit a => exact select_oneRegister (by decide) (fun _ major _ sub => by rw [select, groupLow, major, sub]; rfl) a
  case guard p n | guardN p n => exact select_guard (by decide) (fun _ major sub => by rw [select, groupLow, major, sub]; rfl) p n
  case join k | leave k | wait k => exact select_mask (by decide) (fun _ major => by rw [select, groupLow, major]; rfl) k
  case kmov a d => exact select_twoIndices (by decide) (fun _ major => by rw [select, groupLow, major]; rfl) a d
  case trap c => exact select_immediate8 (by decide) (fun _ major => by rw [select, groupLow, major]; rfl) c
  case gGets d n => exact select_groupGets (by decide) (fun _ major => by rw [select, groupLow, major]; rfl) d n
  case sets s n x => exact select_sets (by decide) (fun _ major => by rw [select, groupLow, major]; rfl) s n x
  case selz d a b => exact select_threeRegisters (by decide) (fun _ major _ => by rw [select, groupHigh, major]; rfl) d a b
  case ldgB32 d a i | ldgB64 d a i | stgB32 d a i | stgB64 d a i | ldsgB32 d a i | stsgB32 d a i | atomgAdd d a i | atomgCas d a i | cmpiEq d a i |
      cmpiLt d a i =>
    exact select_registersImmediate (by decide) (fun _ major => by rw [select, groupHigh, major]; rfl) d a i
  case submit d a | wbRange d a | invRange d a | cpSc d a =>
    exact select_twoRegisters (by decide) (fun _ major _ _ => by rw [select, groupHigh, major]; rfl) d a
  case ffrTag d a | ffrTagHeld d a | pubOpen d a =>
    exact select_twoRegisters (by decide) (fun _ major _ sub => by rw [select, groupHigh, major, sub]; rfl) d a
  case rdlane d a b l => exact select_load (by decide) (fun _ major => by rw [select, groupHigh, major]; rfl) d a b l
  case cpy s a b | relayout s a b | wrlane s a b => exact select_store (by decide) (fun _ major => by rw [select, groupHigh, major]; rfl) s a b
  case qstat s q | popk s q => exact select_registerIndex (by decide) (fun _ major => by rw [select, groupHigh, major]; rfl) s q
  case cancel a | waitAny a | waitAll a => exact select_oneRegister (by decide) (fun _ major _ _ => by rw [select, groupHigh, major]; rfl) a
  case prefetch a | prefetchL2 a => exact select_oneRegister (by decide) (fun _ major _ sub => by rw [select, groupHigh, major, sub]; rfl) a
  case pub a | pubDrop a | pubClose a => exact select_oneRegister (by decide) (fun _ major sub _ => by rw [select, groupHigh, major, sub]; rfl) a
  case qbind a d => exact select_twoIndices (by decide) (fun _ major => by rw [select, groupHigh, major]; rfl) a d
  case obrel c => exact select_immediate8 (by decide) (fun _ major => by rw [select, groupHigh, major]; rfl) c
  case votec d p k => exact select_votec (by decide) (fun _ major => by rw [select, groupHigh, major]; rfl) d p k
  case ckChk m b a => exact select_ckChk (by decide) (fun _ major => by rw [select, groupHigh, major]; rfl) m b a
  case obres a n => exact select_obres (by decide) (fun _ major => by rw [select, groupHigh, major]; rfl) a n
  case obfill a b n | obfillX a b n => exact select_fill (by decide) (fun _ major => by rw [select, groupHigh, major]; rfl) a b n
  case cmergeSoft r o t l | cmergeSum r o t l | cmergeIsum r o t l =>
    exact select_merge (by decide) (fun _ major sub => by rw [select, groupHigh, major, sub]; rfl) r o t l
  case attnQk h t q n l | combSum h t q n l => exact select_attention (by decide) (fun _ major => by rw [select, groupHigh, major]; rfl) h t q n l
  case attnPv h o p n l => exact select_attnPv (by decide) (fun _ major => by rw [select, groupHigh, major]; rfl) h o p n l
  case topk d k t l | topkC d k t l => exact select_topk (by decide) (fun _ major sub => by rw [select, groupHigh, major, sub]; rfl) d k t l
  case gatherComb h m q => exact select_gather (by decide) (fun _ major => by rw [select, groupHigh, major]; rfl) h m q
  case fabStr c q | fabA2a c q | fabRing c q => exact select_fabric (by decide) (fun _ major => by rw [select, groupHigh, major]; rfl) c q
  case tlbinv v s | combInv v s => exact select_scope (by decide) (fun _ major => by rw [select, groupHigh, major]; rfl) v s
  case migrate v p d => exact select_migrate (by decide) (fun _ major => by rw [select, groupHigh, major]; rfl) v p d
  case exit | yield | barG | barC | rett | nop | acquire | fenceAcq | fenceRel | fenceFull | drainNt | settleAll | icinv | bkpt | halt => rfl
  case dictionaryCode s j l => exact absurd rfl (word s j l)
  all_goals exact absurd formed Bool.false_ne_true

/-! ## Which words select -/

theorem laneLow_reserved {w : Nat} (h : w / 8388608 < 128) : laneLow w = .error .reservedMajor := by
  unfold laneLow
  split <;> try omega
  rfl

theorem groupLow_reserved {w : Nat} (h : w / 8388608 < 384) : groupLow w = .error .reservedMajor := by
  unfold groupLow
  split <;> try omega
  rfl

theorem groupHigh_reserved {w : Nat} (h : 488 < w / 8388608) : groupHigh w = .error .reservedMajor := by
  unfold groupHigh
  split <;> try omega
  rfl

/-- A word that selects an instruction has 32 bits, of which bit 30, the length bit of its first parcel, is 1 (R44). -/
theorem word_of_select {w : Nat} {i : Instr} (h : select w = .ok i) : w < 4294967296 ∧ w / 1073741824 % 2 = 1 := by
  by_contra outside
  have reserved : select w = .error .reservedMajor := by
    unfold select
    split_ifs
    · exact laneLow_reserved (by omega)
    · omega
    · exact groupLow_reserved (by omega)
    · exact groupHigh_reserved (by omega)
  rw [h] at reserved
  cases reserved

/-! ## Bytes and parcels -/

/-- The parcel of its two bytes. -/
theorem parcel_bytes (p : Nat) : parcel (BitVec.ofNat 8 p) (BitVec.ofNat 8 (p / 256)) = p % 65536 := by
  simp only [parcel, BitVec.toNat_ofNat]
  omega

theorem parcel_lt (b0 b1 : Byte) : parcel b0 b1 < 65536 := by
  unfold parcel
  omega

theorem parcelBytes_parcel (b0 b1 : Byte) : parcelBytes (parcel b0 b1) = [b0, b1] := by
  have low : BitVec.ofNat 8 (parcel b0 b1) = b0 := BitVec.eq_of_toNat_eq (by simp only [parcel, BitVec.toNat_ofNat]; omega)
  have high : BitVec.ofNat 8 (parcel b0 b1 / 256) = b1 := BitVec.eq_of_toNat_eq (by simp only [parcel, BitVec.toNat_ofNat]; omega)
  rw [parcelBytes, low, high]

/-- The bytes of a parcel are those of its low 16 bits. -/
theorem parcelBytes_add (p q : Nat) : parcelBytes (q * 65536 + p) = parcelBytes p := by
  have low : BitVec.ofNat 8 (q * 65536 + p) = BitVec.ofNat 8 p := BitVec.eq_of_toNat_eq (by simp only [BitVec.toNat_ofNat]; omega)
  have high : BitVec.ofNat 8 ((q * 65536 + p) / 256) = BitVec.ofNat 8 (p / 256) :=
    BitVec.eq_of_toNat_eq (by simp only [BitVec.toNat_ofNat]; omega)
  rw [parcelBytes, parcelBytes, low, high]

theorem wordBytes_parcels (b0 b1 b2 b3 : Byte) : wordBytes (parcel b0 b1 * 65536 + parcel b2 b3) = [b0, b1, b2, b3] := by
  have high : (parcel b0 b1 * 65536 + parcel b2 b3) / 65536 = parcel b0 b1 := by
    have := parcel_lt b2 b3
    omega
  rw [wordBytes, high, parcelBytes_add, parcelBytes_parcel, parcelBytes_parcel]
  rfl

theorem longParcel_iff (p : Nat) : longParcel p = true ↔ p / 16384 % 2 = 1 := beq_iff_eq

/-! ## Reading what was written -/

/-- `decode_iff` for a word decoder that is a variable: the kernel then does not evaluate it on the word of the two parcels. -/
theorem decode_iff_of {word : Nat → Except Reject Instr} (same : decodeWord = word) (bs rest : List Byte) (i : Instr) :
    decode bs = .ok (i, rest) ↔
      (∃ b0 b1, bs = b0 :: b1 :: rest ∧ longParcel (parcel b0 b1) = false ∧ decodeCode (parcel b0 b1) = i) ∨
      ∃ b0 b1 b2 b3, bs = b0 :: b1 :: b2 :: b3 :: rest ∧ longParcel (parcel b0 b1) = true ∧
        word (parcel b0 b1 * 65536 + parcel b2 b3) = .ok i := by
  unfold decode
  rw [same]
  constructor
  · intro h
    split at h
    next b0 b1 tail =>
      split_ifs at h with long
      · split at h
        next b2 b3 rest' =>
          split at h
          next j named =>
            obtain ⟨rfl, rfl⟩ := Prod.mk.inj (Except.ok.inj h)
            exact .inr ⟨b0, b1, b2, b3, rfl, long, named⟩
          · cases h
        · cases h
      · obtain ⟨rfl, rfl⟩ := Prod.mk.inj (Except.ok.inj h)
        exact .inl ⟨b0, b1, rfl, Bool.eq_false_iff.mpr long, rfl⟩
    · cases h
  · rintro (⟨b0, b1, rfl, short, rfl⟩ | ⟨b0, b1, b2, b3, rfl, long, named⟩)
    · simp only [short, Bool.false_eq_true, if_false]
    · simp only [long, named, if_true]

/-- What decodes: two bytes whose parcel has bit 14 clear, as a dictionary code, or four bytes whose first parcel has it set, as the word of the two
parcels (R44, R48). -/
theorem decode_iff (bs rest : List Byte) (i : Instr) : decode bs = .ok (i, rest) ↔
    (∃ b0 b1, bs = b0 :: b1 :: rest ∧ longParcel (parcel b0 b1) = false ∧ decodeCode (parcel b0 b1) = i) ∨
    ∃ b0 b1 b2 b3, bs = b0 :: b1 :: b2 :: b3 :: rest ∧ longParcel (parcel b0 b1) = true ∧
      decodeWord (parcel b0 b1 * 65536 + parcel b2 b3) = .ok i := decode_iff_of rfl bs rest i

/-- The bits of a dictionary code (R48). -/
theorem encode_dictionaryCode (s : Fin 2) (i : Fin 1024) (l : Fin 16) :
    encode (.dictionaryCode s i l) = 0 + s.val * 32768 + i.val * 16 + l.val := rfl

/-- The bytes of a 32-bit word with bit 30 set decode as that word. -/
theorem decode_wordBytes {w : Nat} (rest : List Byte) (size : w < 4294967296) (long : w / 1073741824 % 2 = 1) {i : Instr}
    (h : decodeWord w = .ok i) : decode (wordBytes w ++ rest) = .ok (i, rest) := by
  have first : longParcel (w / 65536 % 65536) = true := (longParcel_iff _).mpr (by omega)
  have whole : w / 65536 % 65536 * 65536 + w % 65536 = w := by omega
  refine (decode_iff _ _ _).mpr (.inr ⟨_, _, _, _, rfl, ?_, ?_⟩)
  · rwa [parcel_bytes]
  · rwa [parcel_bytes, parcel_bytes, whole]

/-- The two bytes of a parcel with bit 14 clear decode as a dictionary code. -/
theorem decode_parcelBytes {p : Nat} (rest : List Byte) (size : p < 65536) (short : p / 16384 % 2 = 0) :
    decode (parcelBytes p ++ rest) = .ok (decodeCode p, rest) := by
  have whole : p % 65536 = p := by omega
  refine (decode_iff _ _ _).mpr (.inl ⟨_, _, rfl, ?_, ?_⟩) <;> rw [parcel_bytes, whole]
  exact Bool.eq_false_iff.mpr (mt (longParcel_iff p).mp (by omega))

/-- A dictionary code's bytes decode to it. -/
theorem decode_encode_code (s : Fin 2) (i : Fin 1024) (l : Fin 16) (rest : List Byte) :
    decode (encodeBytes (.dictionaryCode s i l) ++ rest) = .ok (.dictionaryCode s i l, rest) := by
  have bits := encode_dictionaryCode s i l
  generalize word : encode (.dictionaryCode s i l) = p at bits
  have code : decodeCode p = .dictionaryCode s i l := by
    rw [decodeCode, field_eq (x := s) (by omega), field_eq (x := i) (by omega), field_eq (x := l) (by omega)]
  have bytes : encodeBytes (.dictionaryCode s i l) = parcelBytes p := congrArg parcelBytes word
  rw [bytes, decode_parcelBytes rest (by omega) (by omega), code]

/-- A term is an instruction where it breaks no limit. -/
theorem wellFormed_iff (i : Instr) : i.wellFormed = true ↔ i.check = none := Option.isNone_iff_eq_none

/-- A word decodes to the well-formed instruction that it selects and that encodes to it (R53, R66). -/
theorem decodeWord_iff (w : Nat) (i : Instr) : decodeWord w = .ok i ↔ select w = .ok i ∧ encode i = w ∧ i.wellFormed = true := by
  rw [wellFormed_iff]
  constructor
  · intro h
    unfold decodeWord at h
    split at h
    · cases h
    next j named =>
      split at h
      next bits =>
        split at h
        next limits =>
          obtain rfl := Except.ok.inj h
          exact ⟨named, bits, limits⟩
        · cases h
      · cases h
  · rintro ⟨named, bits, limits⟩
    simp only [decodeWord, named, bits, limits, if_true]

/-- The bytes of a word's instruction are those of its word. -/
theorem encodeBytes_word {i : Instr} (word : ∀ s j l, i ≠ .dictionaryCode s j l) : encodeBytes i = wordBytes (encode i) := by
  rw [encodeBytes]
  exact word

/-- Settles O52: every well-formed instruction's word selects it, format by format, and its bytes are that word's parcels. -/
theorem decodeOfEncode : Obligations.DecodeOfEncode := by
  unfold Obligations.DecodeOfEncode
  intro i rest formed
  by_cases code : ∃ s j l, i = .dictionaryCode s j l
  · obtain ⟨s, j, l, rfl⟩ := code
    exact decode_encode_code s j l rest
  · have word : ∀ s j l, i ≠ .dictionaryCode s j l := fun s j l h => code ⟨s, j, l, h⟩
    have named := select_encode i formed word
    obtain ⟨size, long⟩ := word_of_select named
    rw [encodeBytes_word word]
    exact decode_wordBytes rest size long ((decodeWord_iff _ i).mpr ⟨named, rfl, formed⟩)

/-- A parcel with bit 14 clear is the word of the dictionary code it decodes to. -/
theorem encode_decodeCode {p : Nat} (size : p < 65536) (short : p / 16384 % 2 = 0) : encode (decodeCode p) = p := by
  have bits : encode (decodeCode p) = 0 + p / 2 ^ 15 % 2 * 32768 + p / 2 ^ 4 % 1024 * 16 + p / 2 ^ 0 % 16 := rfl
  omega

/-- Settles O53: a code keeps every bit of its parcel, and a word is decoded only where encoding gives it back. -/
theorem encodeOfDecode : Obligations.EncodeOfDecode := by
  unfold Obligations.EncodeOfDecode
  intro bs rest i h
  rcases (decode_iff bs rest i).mp h with ⟨b0, b1, rfl, short, rfl⟩ | ⟨b0, b1, b2, b3, rfl, long, word⟩
  · have short := mt (longParcel_iff (parcel b0 b1)).mpr (Bool.eq_false_iff.mp short)
    have bits := encode_decodeCode (parcel_lt b0 b1) (by omega)
    have bytes : encodeBytes (decodeCode (parcel b0 b1)) = parcelBytes (encode (decodeCode (parcel b0 b1))) := rfl
    rw [bytes, bits, parcelBytes_parcel]
    exact ⟨rfl, rfl⟩
  · obtain ⟨-, bits, formed⟩ := (decodeWord_iff _ i).mp word
    have notCode : ∀ s j l, i ≠ .dictionaryCode s j l := by
      rintro s j l rfl
      have first := (longParcel_iff _).mp long
      rw [encode_dictionaryCode] at bits
      omega
    rw [encodeBytes_word notCode, bits, wordBytes_parcels]
    exact ⟨formed, rfl⟩

/-- Settles O59: the words are evaluated. -/
theorem decodeOfWrittenWords : Obligations.DecodeOfWrittenWords := by
  unfold Obligations.DecodeOfWrittenWords
  exact ⟨by decide, by decide⟩

end Sys2Proof.Proofs.Encoding
end

section
/-! Guard windows, sleep and halt (R62, R282, R451): each acts once for its run; the control cores' orders reach the one wave that they name. -/
namespace Sys2Proof.Proofs.WaveControl
open Sys2Proof Sys2Proof.Machine Sys2Proof.Claims Sys2Proof.Proofs.MachineState

/-! ## Instructions that act once for their run -/

/-- What an instruction that acts once for its run and names no register leaves. -/
theorem issue_once {g : Sig} {body : Exec → State → State} {s t : State} (h : CanIssue s) (once : g.perLane = false)
    (regs : g.reads ++ g.writes = []) (waits : g.waitsFor = []) (fence : g.fence = true → ∀ p ∈ s.w.pending, p.ordered = false)
    (privileged : g.privileged = true → s.privileged = true) (handler : g.handlerOnly = false) (outside : g.notInHandler = true → Outside s)
    (effect : body (execOf false s) (past false s) = t) (stores : t.stores = []) (mem : t.mem = s.mem) : issue g body s = .next t := by
  have within : Within (g.reads ++ g.writes) s := regs ▸ within_nil s
  have clear : clearOf g.waitsFor (~~~0#32) s = true := by simp [clearOf, waits]
  rw [issue_ready g body s h within (fun f => by simpa using fence f) clear privileged (by simp [handler]) outside]
  refine next_of _ s t ?_ stores mem
  obtain ⟨-, run, -⟩ := h
  rw [once, if_neg (show enabled false s ≠ 0 from run), effect]

/-- R62: guard, guard.n and nop. -/
theorem guardAndNop : GuardAndNop := by
  intro s h
  have stores := stores_of_canIssue h
  exact ⟨issue_once h rfl rfl rfl nofun nofun rfl nofun rfl stores rfl, fun p n =>
    ⟨issue_once h rfl rfl rfl nofun nofun rfl nofun rfl stores rfl, issue_once h rfl rfl rfl nofun nofun rfl nofun rfl stores rfl⟩⟩

/-- The ticks of a sleep are the low 24 bits of its source (R282). -/
theorem sleepTicks (x : Word) : bitsOf x.toNat 0 24 = (x.setWidth 24).toNat := by
  simp [bitsOf, BitVec.toNat_setWidth]

/-- R282: sleep. -/
theorem exec_sleep (a : Fin 128) (s : State) (h : CanIssue s) :
    exec (.sleep a) s = .next (if (s.rdS a).setWidth 24 = (0 : BitVec 24) then past false s
      else (past false s).modW fun w => { w with hold := some (.sleep (s.clock + ((s.rdS a).setWidth 24).toNat)) }) := by
  have none : (s.rdS a).setWidth 24 = (0 : BitVec 24) ↔ bitsOf (s.rdS a).toNat 0 24 = 0 := by
    rw [sleepTicks, BitVec.toNat_eq]
    rfl
  simp only [none, ← sleepTicks]
  refine issue_group _ _ s h rfl (within_append (within_sReg a s) (within_nil s)) rfl rfl
    (absurd · Bool.false_ne_true) (absurd · Bool.false_ne_true) rfl _ rfl ?_ ?_
  · split <;> exact stores_of_canIssue h
  · split <;> rfl

/-- The wave whose ready lanes a halt has parked, their trap records naming it (R282). -/
def haltedWave (s : State) (w : Wave) : Wave :=
  { (w.setState w.ready .parked) with
    halted := w.halted ||| w.ready
    recs := Lanes.ofFn fun l => if bit w.ready l then
        { w.recs[l] with
          cause := causeWord 0x42 0 false, addr := s.here, pc := s.here, entry := entryWord w.pc[l] .ready, passed := false
          guard := if bit w.handlerLanes l then w.recs[l].guard else w.guard[l] }
      else w.recs[l] }

theorem exec_halt (s : State) (h : CanIssue s) (privileged : s.privileged = true) :
    exec .halt s = .next (((past false s).send (.msix 5)).modW (haltedWave s)) :=
  issue_once h rfl rfl rfl nofun (fun _ => privileged) rfl nofun rfl (stores_of_canIssue h) rfl

/-- The ready lanes. -/
theorem bit_ready (w : Wave) (l : Fin 32) : bit w.ready l = decide (w.st[l] = .ready) := by
  unfold Wave.ready Wave.lanesIn
  exact (bit_maskOf _ l).trans (Bool.beq_eq_decide_eq _ _)

/-- The entry of a ready lane is its PC (R24). -/
theorem entryWord_ready (pc : BitVec 56) : entryWord pc .ready = pc.setWidth 64 := by
  simp [entryWord]

/-- A lane of a wave that a halt parks: a ready lane is parked and its record taken, another lane stands as it was. -/
theorem haltedWave_lane (s : State) (w : Wave) (l : Fin 32) :
    if w.st[l] = .ready then (haltedWave s w).st[l] = .parked ∧ (haltedWave s w).recs[l].cause = 0x42 ∧ bit (haltedWave s w).halted l = true ∧
        (haltedWave s w).recs[l].entry = (w.pc[l]).setWidth 64
      else (haltedWave s w).st[l] = w.st[l] ∧ (haltedWave s w).recs[l] = w.recs[l] := by
  have ready := bit_ready w l
  split
  next h =>
    rw [decide_eq_true h] at ready
    simp only [haltedWave, Wave.setState, Lanes.ofFn_get, ready, if_true, bit_or, Bool.or_true, entryWord_ready]
    exact ⟨trivial, rfl, trivial, trivial⟩
  next h =>
    rw [decide_eq_false h] at ready
    simp only [haltedWave, Wave.setState, Lanes.ofFn_get, ready, Bool.false_eq_true, if_false, and_self]

/-- R282: sleep and halt. -/
theorem sleepAndHalt : SleepAndHalt := by
  intro s h
  exact ⟨fun a => exec_sleep a s h, fun privileged =>
    ⟨_, exec_halt s h privileged, rfl, rfl, rfl, rfl, rfl, rfl, haltedWave_lane s (pastWave false s)⟩⟩

/-! ## Orders for a wave that sleeps or is halted -/

theorem mapWaves_of_fixed {g : Group} {f : Wave → Wave} (h : ∀ w ∈ g.waves, f w = w) :
    g.mapWaves f = { g with wave := f g.wave } := by
  unfold Group.mapWaves
  rw [List.map_congr_left h, List.map_id']

theorem mapWaves_fixed {g : Group} {f : Wave → Wave} (h : ∀ w ∈ g.all, f w = w) : g.mapWaves f = g := by
  rw [mapWaves_of_fixed fun w m => h w (List.mem_cons_of_mem _ m), h g.wave (List.mem_cons_self ..)]

theorem mapSaved_fixed {d : Die} {f : Group → Group} (h : ∀ v ∈ d.saved, f v.group = v.group) : d.mapSaved f = d := by
  have same : ∀ v ∈ d.saved, { v with group := f v.group } = v := fun v m => by rw [h v m]
  unfold Die.mapSaved
  rw [List.map_congr_left same, List.map_id']

/-- A change of the waves of an identity. -/
def ofUid (uid : Nat) (f : Wave → Wave) (w : Wave) : Wave := if w.uid = uid then f w else w

theorem ofUid_other {uid : Nat} {f : Wave → Wave} {w : Wave} (h : w.uid ≠ uid) : ofUid uid f w = w := if_neg h

theorem modWave_eq (uid : Nat) (f : Wave → Wave) (s : State) : s.modWave uid f = refreshImage uid { s with
    grp := s.grp.mapWaves (ofUid uid f), rest := s.rest.map fun g => g.mapWaves (ofUid uid f)
    die0 := s.die0.mapSaved fun g => g.mapWaves (ofUid uid f), die1 := s.die1.mapSaved fun g => g.mapWaves (ofUid uid f) } := rfl

/-- A change of the wave that alone has its identity is a change of the issuing wave. -/
theorem modWave_only {s : State} (h : OnlyWave s) (f : Wave → Wave) : s.modWave s.w.uid f = s.modW f := by
  obtain ⟨-, -, others, rest, saved⟩ := h
  have group : s.grp.mapWaves (ofUid s.w.uid f) = { s.grp with wave := f s.grp.wave } := by
    rw [mapWaves_of_fixed fun w m => ofUid_other (others w m), ofUid, if_pos rfl]
  have groups : s.rest.map (fun g => g.mapWaves (ofUid s.w.uid f)) = s.rest := by
    have same : ∀ g ∈ s.rest, g.mapWaves (ofUid s.w.uid f) = g := fun g m => mapWaves_fixed fun w k => ofUid_other (rest g m w k)
    rw [List.map_congr_left same, List.map_id']
  have die (d : Die) (sub : d.saved ⊆ s.die0.saved ++ s.die1.saved) : (d.mapSaved fun g => g.mapWaves (ofUid s.w.uid f)) = d :=
    mapSaved_fixed fun v m => mapWaves_fixed fun w k => ofUid_other (saved v (sub m) w k)
  have absent : (s.die0.saved ++ s.die1.saved).find? (fun v => v.group.all.any fun w => w.uid == s.w.uid) = none :=
    List.find?_eq_none.mpr fun v m => by simpa using saved v m
  have image : refreshImage s.w.uid (s.modW f) = s.modW f := by
    unfold refreshImage
    rw [State.modW_die0, State.modW_die1, absent]
  rw [modWave_eq, group, groups, die s.die0 (List.subset_append_left _ _), die s.die1 (List.subset_append_right _ _)]
  exact image

/-- The lanes that a halt parked go on at their entries, with the guard windows of their records but in a handler. -/
theorem resume_eq (w : Wave) : w.resume = { w with
    st := Lanes.ofFn fun l => if bit w.halted l then .ready else w.st[l]
    pc := Lanes.ofFn fun l => if bit w.halted l then entryPc w.recs[l].entry else w.pc[l]
    guard := Lanes.ofFn fun l => if bit w.halted l ∧ ¬ bit w.handlerLanes l then w.recs[l].guard else w.guard[l]
    halted := 0 } := by
  have outside (l : Fin 32) : (bit w.halted l = true ∧ ¬ bit w.handlerLanes l = true) = (bit (w.halted &&& ~~~w.handlerLanes) l = true) := by
    simp [bit_and, bit_not]
  simp only [outside]
  rfl

/-- Two changes of the issuing wave with one result. -/
theorem modW_congr {s : State} {f g : Wave → Wave} (h : f s.w = g s.w) : s.modW f = s.modW g :=
  congrArg (fun w : Wave => { s with grp := { s.grp with wave := w } }) h

/-- R282 and R451: the lanes that a halt parked go on at their entries. -/
theorem exec_haltResume {s : State} (stores : s.stores = []) (h : OnlyWave s) (halted : s.w.halted ≠ 0) :
    exec (.haltResume s.w.uid) s = .next (s.modW Wave.resume) := by
  refine next_of _ s _ ?_ stores rfl
  rw [modWave_only h]
  exact modW_congr (if_neg halted)

theorem bit_present (w : Wave) (l : Fin 32) : bit w.present l = decide (w.st[l] ≠ .exited ∧ w.st[l] ≠ .inactive) := by
  rw [Wave.present, bit_maskOf]
  cases w.st[l] <;> rfl

/-- A wave whose present lanes have exited has ended. -/
theorem exited_ended (w : Wave) : (w.setState w.present .exited).ended = true := by
  have gone : (w.setState w.present .exited).present = 0 := by
    refine mask_ext _ _ fun l => ?_
    have present := bit_present w l
    rw [bit_present, Wave.setState, Lanes.ofFn_get]
    split
    · simp
    next absent =>
      rw [Bool.eq_false_iff.mpr absent] at present
      rw [← present]
      simp
  rw [Wave.ended, gone]
  rfl

/-- R275: no wave of a stopped group has a lane left. -/
theorem stopGroup_ended (n : Nat) (s : State) : ∀ w ∈ (stopGroup n s).grp.all, w.ended = true := by
  intro w hw
  rcases List.mem_cons.mp hw with rfl | hw
  · exact exited_ended s.grp.wave
  · obtain ⟨hw, -⟩ := List.mem_filter.mp hw
    obtain ⟨v, -, rfl⟩ := List.mem_map.mp hw
    exact exited_ended v

/-- R282 and R451: a cancel stops the group of the halted wave. -/
theorem exec_haltedGroupCancel {s : State} (stores : s.stores = []) (live : s.grp.live = true) (halted : s.w.halted ≠ 0) :
    exec (.haltedGroupCancel s.w.uid) s = .next (stopGroup 0 s) := by
  have found : s.groups.find? (fun g => g.all.any fun w => w.uid == s.w.uid && w.halted != 0) = some s.grp := by
    have first : s.groups = s.grp :: s.rest.filter (·.live) := List.filter_cons_of_pos live
    rw [first]
    refine List.find?_cons_of_pos ?_
    have issuing : (s.w.uid == s.w.uid && s.w.halted != 0) = true := by rw [beq_self_eq_true, Bool.true_and, bne_iff_ne]; exact halted
    exact List.any_eq_true.mpr ⟨s.w, List.mem_cons_self .., issuing⟩
  refine next_of _ s _ ?_ stores rfl
  rw [found]
  exact if_pos rfl

/-- R282 and R451: the orders of the control cores and the end of a sleep. -/
theorem sleepAndHaltOrders : SleepAndHaltOrders := by
  refine ⟨fun s t stores hold due => ?_, fun s stores h halted => ⟨?_, ?_⟩⟩
  · refine next_of _ s _ ?_ stores rfl
    rw [hold]
    exact if_pos due
  · exact (exec_haltResume stores h halted).trans (congrArg (fun f => Host.Outcome.next (s.modW f)) (funext resume_eq))
  · obtain ⟨live, -⟩ := h
    exact ⟨_, exec_haltedGroupCancel stores live halted, rfl, stopGroup_ended 0 s⟩

/-- Settles O11: each instruction acts once for its run (`issue_once`), and each order reaches the one wave of its identity (`modWave_only`). -/
theorem guardSleepAndHalt : Obligations.GuardSleepAndHalt := by
  unfold Obligations.GuardSleepAndHalt
  exact ⟨guardAndNop, sleepAndHalt, sleepAndHaltOrders⟩

end Sys2Proof.Proofs.WaveControl
end

section
/-! Fences and the writes at peers (R204, R293). -/
namespace Sys2Proof.Proofs.Fences
open Sys2Proof Sys2Proof.Machine Sys2Proof.Claims Sys2Proof.Proofs.MachineState

/-- A wave at a release with nothing pending, one of whose writes at the home of the peer of link 0 has not been acknowledged. -/
def releaseUnacked : State := { State.reset with
  iss := Issue.of 1 0x1000 4 none, remotes := [⟨true, 0, remoteTag, State.reset.w.uid, 0, 0, none⟩] }

/-- A release waits for the acknowledgement of every write of its wave (R293): the run stays chosen and its PCs stand. -/
theorem fenceRel_of_unacked : exec .fenceRel releaseUnacked = .next (stallBack (execOf false releaseUnacked) (past false releaseUnacked)) := by
  exact next_of _ _ _ rfl rfl rfl

/-- Refutes O12: its part about the fences does not assume that every write of the wave at a peer has been acknowledged. The wave of
`releaseUnacked` meets every hypothesis, but its fence.rel waits where the statement has it pass (R204, R293). -/
theorem not_barriersAndFences : ¬ Obligations.BarriersAndFences := by
  unfold Obligations.BarriersAndFences
  rintro ⟨-, fences⟩
  obtain ⟨-, release, -⟩ := fences releaseUnacked ⟨rfl, by decide, rfl, rfl, nofun⟩ rfl nofun
  rw [fenceRel_of_unacked, Host.Outcome.next.injEq] at release
  have pcs := congrArg (fun s => s.w.pc[(0 : Fin 32)]) release
  exact absurd pcs (by decide)

end Sys2Proof.Proofs.Fences
end

section
/-! Lookahead windows (R57 to R59): what an instruction finds that one pending instruction has its whole run among its lanes. -/
namespace Sys2Proof.Proofs.Lookahead
open Sys2Proof Sys2Proof.Machine Sys2Proof.Claims Sys2Proof.Proofs.MachineState Sys2Proof.Proofs.WaveControl

/-- An instruction that must wait leaves its run chosen, and nothing else changes (R58, R59, R134). -/
theorem issue_stall {g : Sig} {s : State} (body : Exec → State → State) (stores : s.stores = []) (wait : mustWait g s = true) :
    issue g body s = .next (s.modW fun w => { w with chosen := some s.iss }) := by
  refine next_of _ s _ ?_ stores rfl
  rw [issueRun, wait]
  rfl

/-! ## Windows -/

/-- No lane stands in the empty mask. -/
theorem bit_none (l : Fin 32) : bit (0 : Mask) l = false := bit_zero l

theorem bit_used (p : Pending) (m : Mask) (l : Fin 32) : bit (p.used m) l = (bit p.lanes l && bit m l && decide (p.look ≤ p.issued[l])) := by
  rw [Pending.used, bit_and, bit_and, bit_maskOf]

theorem bit_open (p : Pending) (m : Mask) (l : Fin 32) : bit (p.open_ m) l = (bit p.lanes l && bit m l && decide (p.issued[l] < p.look)) := by
  rw [Pending.open_, bit_and, bit_and, bit_maskOf]

/-- The run stands inside the window of a pending instruction (R56). -/
def InsideWindow (q : Pending) (s : State) : Prop := ∀ l, bit s.iss.run l = true → q.issued[l] < q.look

theorem used_inside {q : Pending} {s : State} (h : InsideWindow q s) : q.used s.iss.run = 0 := by
  refine mask_ext _ _ fun l => ?_
  rw [bit_used, bit_none]
  by_cases run : bit s.iss.run l = true
  · rw [decide_eq_false (Nat.not_le.mpr (h l run)), Bool.and_false]
  · simp [run]

/-- A mask of lanes among those of a pending instruction. -/
theorem bit_lanes {q : Pending} {m : Mask} (sub : m &&& ~~~q.lanes = 0) {l : Fin 32} (h : bit m l = true) : bit q.lanes l = true := by
  have none := congrArg (bit · l) sub
  rw [bit_and, bit_not, bit_none, h] at none
  simpa using none

theorem open_inside {q : Pending} {s : State} (sub : s.iss.run &&& ~~~q.lanes = 0) (h : InsideWindow q s) : q.open_ s.iss.run = s.iss.run := by
  refine mask_ext _ _ fun l => ?_
  rw [bit_open]
  by_cases run : bit s.iss.run l = true
  · rw [run, bit_lanes sub run, decide_eq_true (h l run)]
    rfl
  · simp [run]

/-- A window that a lane of the run has used up. -/
theorem used_ne_zero {q : Pending} {m : Mask} (sub : m &&& ~~~q.lanes = 0) {l : Fin 32} (run : bit m l = true) (h : q.look ≤ q.issued[l]) :
    q.used m ≠ 0 := by
  intro none
  have used := bit_used q m l
  rw [none, bit_none, run, bit_lanes sub run, decide_eq_true h] at used
  exact Bool.false_ne_true used

theorem touches_run {q : Pending} {m : Mask} (sub : m &&& ~~~q.lanes = 0) (run : m ≠ 0) : q.touches m = true := by
  refine bne_iff_ne.mpr fun apart => run (mask_ext _ _ fun l => ?_)
  have both := congrArg (bit · l) apart
  rw [bit_and, bit_none] at both
  rw [bit_none]
  by_contra h
  rw [Bool.not_eq_false] at h
  rw [h, bit_lanes sub h] at both
  exact absurd both (by decide)

/-! ## One pending instruction -/

section
variable {s : State} {q : Pending} (one : s.w.pending = [q])
include one

theorem mustWait_inside {g : Sig} (inside : InsideWindow q s) (control : g.control = false) (long : g.long = false) (fence : g.fence = false) :
    mustWait g s = false := by
  simp [mustWait, one, used_inside inside, control, long, fence]

theorem mustWait_used {g : Sig} (sub : s.iss.run &&& ~~~q.lanes = 0) {l : Fin 32} (run : bit s.iss.run l = true) (h : q.look ≤ q.issued[l]) :
    mustWait g s = true := by
  have used := bne_iff_ne.mpr (used_ne_zero sub run h)
  simp only [mustWait, one, List.any_cons, used, Bool.true_or]

theorem mustWait_control {g : Sig} (sub : s.iss.run &&& ~~~q.lanes = 0) (run : s.iss.run ≠ 0) (control : g.control = true) :
    mustWait g s = true := by
  simp [mustWait, one, touches_run sub run, control]

theorem breaching_one (g : Sig) : breaching g s = if q.dests.any fun r => (g.reads ++ g.writes ++ g.names).contains r then q.open_ s.iss.run else 0 := by
  have empty : (0 : Mask) ||| q.open_ s.iss.run = q.open_ s.iss.run := BitVec.zero_or
  simp only [breaching, one, List.foldl_cons, List.foldl_nil, empty]

end

/-- A run among the lanes of the pending instruction is counted by its windows (R56). -/
theorem advance_one {g : Sig} {s : State} {q : Pending} (one : s.w.pending = [q]) (first : s.iss.replay = none)
    (sub : s.iss.run &&& ~~~q.lanes = 0) : (advance g s.iss.run s).w.pending =
      [{ q with issued := Lanes.ofFn fun l => if bit s.iss.run l then q.issued[l] + 1 else q.issued[l] }] := by
  have lanes : s.iss.run &&& q.lanes = s.iss.run := mask_ext _ _ fun l => by
    rw [bit_and]
    by_cases run : bit s.iss.run l = true
    · rw [run, bit_lanes sub run]; rfl
    · rw [Bool.eq_false_iff.mpr run, Bool.false_and]
  simp only [State.w] at one
  cases perLane : g.perLane <;> simp [advance, first, State.w, State.modW, Wave.setPc, Wave.setGuard, perLane, one, lanes]

theorem advance_rdV (g : Sig) (m : Mask) (s : State) (r : Fin 128) (l : Fin 32) : (advance g m s).w.rdV r l = s.w.rdV r l := by
  unfold advance
  split
  · rfl
  · cases perLane : g.perLane <;> rfl

theorem enabledLanes_first {g : Sig} {m : Mask} {s : State} (first : s.iss.replay = none) (perLane : g.perLane = true) (run : m = s.iss.run) :
    enabledLanes g m s = laneSet s := by
  rw [enabledLanes, first, perLane, run]
  rfl

/-! ## What an unprivileged instruction of the allotment does that need not wait -/

section
variable {g : Sig} {s : State} (body : Exec → State → State) (wait : mustWait g s = false) (privileged : g.privileged = false)
  (handler : g.handlerOnly = false) (within : (g.reads ++ g.writes).any (beyond s.grp.allot) = false)
include wait privileged handler within

/-- R57: a breach in every lane of the run parks them all, and the instruction has no effect. -/
theorem issueRun_breach (breach : breaching g s = s.iss.run) (run : s.iss.run ≠ 0) :
    issueRun g body s = park s.iss.run (againRecord s ⟨enabledLanes g s.iss.run s, 0, s.w⟩ 0x06 s.here) s := by
  have left : s.iss.run &&& ~~~s.iss.run = (0 : Mask) := mask_ext _ _ fun l => by rw [bit_and, bit_not, Bool.and_not_self, bit_none]
  unfold issueRun
  simp only [wait, privileged, handler, within, breach, left, Bool.false_and, Bool.or_false, Bool.false_eq_true, if_false]
  exact if_pos ⟨run, .inl trivial⟩

/-- With no breach the PCs advance and the effect takes place in the enabled lanes. -/
theorem issueRun_unbreached (breach : breaching g s = 0) (clear : g.waitsFor = []) (outside : g.notInHandler = false) (mode : s.w.mode = .normal) :
    issueRun g body s = if enabledLanes g s.iss.run s = 0 then advance g s.iss.run s
      else body ⟨enabledLanes g s.iss.run s, s.iss.run, s.w⟩ (advance g s.iss.run s) := by
  have left : s.iss.run &&& ~~~(0 : Mask) = s.iss.run := mask_ext _ _ fun l => by rw [bit_and, bit_not, bit_none, Bool.not_false, Bool.and_true]
  have mode' : (advance g s.iss.run s).w.mode = .normal := by
    rw [← mode]
    unfold advance
    split
    · rfl
    · cases g.perLane <;> rfl
  have free (t : State) : clearOf g.waitsFor (~~~0#32) t = true := by simp [clearOf, clear]
  have unparked (r : Fin 32 → TrapRecord) : park (0 : Mask) r s = s := park_zero r s
  unfold issueRun
  simp only [wait, privileged, handler, within, breach, left, unparked, free, outside, mode, byMode, mode', Bool.false_and, Bool.or_false,
    Bool.false_eq_true, if_false, ne_eq, not_true_eq_false, false_and, reduceCtorEq, not_false_eq_true, and_true, Bool.not_true]

end

/-! ## addB32 inside the window -/

theorem within_lane3 {d a b : Fin 128} {s : State} (h : Within [.v a.val, .v b.val, .v d.val] s) :
    ((lane3 d a b).reads ++ (lane3 d a b).writes).any (beyond s.grp.allot) = false :=
  List.any_eq_false.mpr fun r hr => Bool.not_eq_true _ ▸ h r hr

theorem named_lane3 {q : Pending} {d a b : Fin 128} :
    (q.dests.any fun r => ((lane3 d a b).reads ++ (lane3 d a b).writes ++ (lane3 d a b).names).contains r) = true ↔
      Reg.v d.val ∈ q.dests ∨ Reg.v a.val ∈ q.dests ∨ Reg.v b.val ∈ q.dests := by
  simp only [lane3, vReg, List.any_eq_true, List.contains_iff_mem, List.mem_append, List.mem_singleton, List.not_mem_nil, or_false]
  constructor
  · rintro ⟨r, hr, (rfl | rfl) | rfl⟩
    · exact .inr (.inl hr)
    · exact .inr (.inr hr)
    · exact .inl hr
  · rintro (h | h | h)
    · exact ⟨_, h, .inr rfl⟩
    · exact ⟨_, h, .inl (.inl rfl)⟩
    · exact ⟨_, h, .inl (.inr rfl)⟩

section
variable {s : State} {q : Pending} (first : s.iss.replay = none) (stores : s.stores = []) (one : s.w.pending = [q])
include first stores one

/-- R57: the breach parks the run at the instruction. -/
theorem addB32_breach (sub : s.iss.run &&& ~~~q.lanes = 0) (run : s.iss.run ≠ 0) (inside : InsideWindow q s) {d a b : Fin 128}
    (named : Reg.v d.val ∈ q.dests ∨ Reg.v a.val ∈ q.dests ∨ Reg.v b.val ∈ q.dests) (within : Within [.v a.val, .v b.val, .v d.val] s) :
    exec (.addB32 d a b) s = .next (faultsAt false s.iss.run 0x06 (fun _ => at_ s) (laneSet s) s s) := by
  have breach : breaching (lane3 d a b) s = s.iss.run := by
    rw [breaching_one one, if_pos (named_lane3.mpr named), open_inside sub inside]
  have wait : mustWait (lane3 d a b) s = false := mustWait_inside one inside rfl rfl rfl
  have record : againRecord s ⟨enabledLanes (lane3 d a b) s.iss.run s, 0, s.w⟩ 0x06 s.here = fun l =>
      { cause := 0x06, addr := at_ s, pc := at_ s, entry := at_ s, guard := s.w.guard[l], guardAt := s.w.guard[l]
        enabled := bit (laneSet s) l, passed := false } := by
    funext l
    rw [enabledLanes_first first rfl rfl, againRecord, bit_none, Bool.and_false, entryWord_ready]
    rfl
  refine next_of _ s _ ?_ ((park_stores _ _ _).trans stores) (park_mem _ _ _)
  rw [issueRun_breach _ wait rfl rfl (within_lane3 within) breach run, record]
  rfl

/-- R57: an instruction that names no pending destination executes inside the window, and the windows of its run count it. -/
theorem addB32_inside (mode : s.w.mode = .normal) (inside : InsideWindow q s) {d a b : Fin 128}
    (named : ¬ (Reg.v d.val ∈ q.dests ∨ Reg.v a.val ∈ q.dests ∨ Reg.v b.val ∈ q.dests)) (within : Within [.v a.val, .v b.val, .v d.val] s) :
    exec (.addB32 d a b) s = .next (if laneSet s = 0 then advance (lane3 d a b) s.iss.run s
      else laneOp2 addOp d a b ⟨laneSet s, s.iss.run, s.w⟩ (advance (lane3 d a b) s.iss.run s)) := by
  have breach : breaching (lane3 d a b) s = 0 := by rw [breaching_one one, if_neg (mt named_lane3.mp named)]
  have wait : mustWait (lane3 d a b) s = false := mustWait_inside one inside rfl rfl rfl
  have stored : (advance (lane3 d a b) s.iss.run s).stores = [] := by rw [advance, first]; exact stores
  have memory : (advance (lane3 d a b) s.iss.run s).mem = s.mem := by rw [advance, first]; rfl
  refine next_of _ s _ ?_ ?_ ?_
  · rw [issueRun_unbreached _ wait rfl rfl (within_lane3 within) breach rfl rfl mode, enabledLanes_first first rfl rfl]
  · split
    · exact stored
    · exact stored
  · split
    · exact memory
    · exact memory

end

/-- Settles O16: the run is among the lanes of the one pending instruction, so its window lets the instruction pass or breach (`addB32_inside`,
`addB32_breach`), or makes it wait (`issue_stall`). -/
theorem lookaheadWindows : Obligations.LookaheadWindows := by
  unfold Obligations.LookaheadWindows
  intro s q mode run first stores one sub
  refine ⟨fun inside d a b named within => addB32_breach first stores one sub run inside named within, fun inside d a b hd ha hb within => ?_,
    fun ⟨l, hl, used⟩ d a b => issue_stall _ stores (mustWait_used one sub hl used),
    fun f c => ⟨issue_stall _ stores (mustWait_control one sub run rfl), issue_stall _ stores (mustWait_control one sub run rfl)⟩⟩
  refine ⟨_, addB32_inside first stores one mode inside (by simp [hd, ha, hb]) within, fun l enabled => ?_, ?_⟩
  · have some_ : laneSet s ≠ 0 := fun none => by rw [none, bit_none] at enabled; exact Bool.false_ne_true enabled
    rw [if_neg some_, laneOp2]
    show (Wave.wrV _ _ _ _).rdV d l = _
    rw [Wave.rdV_wrV, if_pos ⟨rfl, enabled⟩, advance_rdV, advance_rdV]
    rfl
  · rw [← advance_one (g := lane3 d a b) one first sub]
    split
    · rfl
    · exact Wave.wrV_pending _ _ _ _

end Sys2Proof.Proofs.Lookahead
end

section
/-! Dictionary codes, completions and handler entry (R51, R56, R61, R279, R405, R407). -/
namespace Sys2Proof.Proofs.CodesAndHandlers
open Sys2Proof Sys2Proof.Machine Sys2Proof.Claims Sys2Proof.Proofs.MachineState Sys2Proof.Proofs.WaveControl

/-! ## Dictionary codes -/

/-- Parking depends on the records of the lanes that park alone. -/
theorem parkAt_congr (n : Nat) {m : Mask} {r q : Fin 32 → TrapRecord} (s : State) (h : ∀ l, bit m l = true → r l = q l) :
    parkAt n m r s = parkAt n m q s := by
  have recs (w : Wave) : (Lanes.ofFn fun l => if bit m l then r l else w.recs[l]) = Lanes.ofFn fun l => if bit m l then q l else w.recs[l] :=
    congrArg Lanes.ofFn (funext fun l => by split; exacts [h l ‹_›, rfl])
  have pcs (w : Wave) : w.setPc m (fun l => entryPc (r l).entry) = w.setPc m fun l => entryPc (q l).entry := by
    have lanes (l : Fin 32) : (if bit m l then entryPc (r l).entry else w.pc[l]) = if bit m l then entryPc (q l).entry else w.pc[l] := by
      split; exacts [by rw [h l ‹_›], rfl]
    simp only [Wave.setPc, lanes]
  simp only [parkAt, recs, pcs]

/-- R67: a decode fault of a run that is not empty. -/
theorem decodeFault_eq {s : State} (code : Nat) (h : CanIssue s) : decodeFault code s.here s = decodeFaults (causeWord code 0 false) s := by
  have lanes : s.atPc = s.iss.run ||| maskOf fun l => decide (s.w.st[l] = .ready ∧ s.w.pc[l] = s.iss.pc) := mask_ext _ _ fun l => by
    rw [State.atPc, bit_or, bit_or, bit_and, bit_ready, bit_maskOf, bit_maskOf]
    simp only [Bool.decide_and, beq_eq_decide]
  obtain ⟨-, run, -⟩ := h
  have some_ : s.atPc ≠ 0 := fun none => run (BitVec.or_eq_zero_iff.mp none).1
  have record : againRecord s ⟨s.atPc, 0, s.w⟩ code s.here = fun l => {
      cause := causeWord code 0 false, addr := at_ s, pc := at_ s, entry := at_ s, guard := s.w.guard[l], guardAt := s.w.guard[l]
      enabled := bit s.atPc l, passed := false } := by
    funext l
    have out : bit (0 : Mask) l = false := bit_zero l
    rw [againRecord, out, Bool.and_false, entryWord_ready]
    rfl
  rw [decodeFault, if_neg some_, record, lanes]
  rfl

theorem msb_iff (e : Word) (set : Fin 2) : e.msb = decide (set = 1) ↔ e.toNat / 2 ^ 31 % 2 = set.val := by
  have := e.isLt
  rw [BitVec.msb_eq_decide, decide_eq_decide, Fin.ext_iff]
  have := set.isLt
  simp only [Fin.val_one]
  omega

theorem bit30_iff (e : Word) : e.getLsbD 30 = false ↔ e.toNat / 2 ^ 30 % 2 = 0 := by
  rw [BitVec.getLsbD, Nat.testBit_eq_decide_div_mod_eq, decide_eq_false_iff_not]
  omega

/-- The word of a code whose entry has its SET and bit 30 set (R51). -/
theorem codeWord_fits {e : Word} {set : Fin 2} (hset : e.msb = decide (set = 1)) (hbit : e.getLsbD 30 = true) (k : Nat) :
    codeWord set.val k e.toNat = if k = 15 then .ok e.toNat else if lookFormat e.toNat then .ok (e.toNat / 16 * 16 + k) else .error .lookaheadField := by
  have same := (msb_iff e set).mp hset
  have fits : e.toNat / 2 ^ 30 % 2 ≠ 0 := fun none => Bool.false_ne_true (((bit30_iff e).mpr none).symm.trans hbit)
  rw [codeWord, if_neg (not_not.mpr same), if_neg fits]

/-- The word of an entry with another lookahead (R51, R56). -/
theorem withLook_eq (e : Word) (k : Fin 16) : BitVec.ofNat 32 (e.toNat / 16 * 16 + k.val) = e.extractLsb' 4 28 ++ BitVec.ofNat 4 k.val := by
  have := e.isLt
  have := k.isLt
  apply BitVec.eq_of_toNat_eq
  rw [BitVec.toNat_append, BitVec.extractLsb'_toNat, BitVec.toNat_ofNat, BitVec.toNat_ofNat, Nat.shiftRight_eq_div_pow,
    ← Nat.shiftLeft_add_eq_or_of_lt (Nat.mod_lt _ (by decide)), Nat.shiftLeft_eq]
  omega

section
variable {s : State} {set : Fin 2} {i : Fin 1024} {k : Fin 16} (h : CanIssue s)
include h

/-- A code that is an illegal instruction (R66). -/
theorem illegal_of {f : State → State} (fault : f s = decodeFault 0x03 s.here s) : next f s = .next (decodeFaults 0x03 s) :=
  next_of f s _ (fault.trans (decodeFault_eq 0x03 h)) ((park_stores _ _ _).trans (stores_of_canIssue h)) (park_mem _ _ _)

theorem exec_dictionaryCode_beyond (none_ : s.grp.dict[i.val]? = none) : exec (.dictionaryCode set i k) s = .next (decodeFaults 0x03 s) := by
  have wait : mustWait {} s = false := mustWait_ready {} s h nofun
  show execDictionaryCode set i k s = _
  rw [execDictionaryCode, wait, none_]
  exact illegal_of h rfl

variable {e : Word} (entry : s.grp.dict[i.val]? = some e)
include entry

theorem exec_dictionaryCode_refused {r : Reject} (refused : codeWord set.val k.val e.toNat = .error r) :
    exec (.dictionaryCode set i k) s = .next (decodeFaults 0x03 s) := by
  have wait : mustWait {} s = false := mustWait_ready {} s h nofun
  show execDictionaryCode set i k s = _
  simp only [execDictionaryCode, wait, entry, refused]
  exact illegal_of h rfl

theorem exec_dictionaryCode_word {x : Nat} (word : codeWord set.val k.val e.toNat = .ok x) :
    exec (.dictionaryCode set i k) s = .next { s with latch := some (BitVec.ofNat 32 x) } := by
  have wait : mustWait {} s = false := mustWait_ready {} s h nofun
  show execDictionaryCode set i k s = _
  simp only [execDictionaryCode, wait, entry, word]
  exact next_of _ s _ rfl (stores_of_canIssue h) rfl

end

/-- R51: what a code does by its entry's SET and bit 30 and by its LOOK. -/
theorem dictionaryCodes : DictionaryCodes := by
  intro s set i k h
  refine ⟨exec_dictionaryCode_beyond h, fun e entry => ⟨fun ⟨hset, hbit⟩ full => ?_, fun ⟨hset, hbit⟩ part look => ?_, fun bad => ?_⟩⟩
  · have word : codeWord set.val k.val e.toNat = .ok e.toNat := by rw [codeWord_fits hset hbit, if_pos full]
    rw [exec_dictionaryCode_word h entry word, BitVec.ofNat_toNat, BitVec.setWidth_eq]
  · have word : codeWord set.val k.val e.toNat = .ok (e.toNat / 16 * 16 + k.val) := by rw [codeWord_fits hset hbit, if_neg part, if_pos look]
    rw [exec_dictionaryCode_word h entry word, withLook_eq]
  · by_cases same : e.toNat / 2 ^ 31 % 2 = set.val
    · have clear : e.toNat / 2 ^ 30 % 2 = 0 := (bit30_iff e).mp (bad.resolve_left (not_not.mpr ((msb_iff e set).mpr same)))
      have refused : codeWord set.val k.val e.toNat = .error .reservedMajor := by rw [codeWord, if_neg (not_not.mpr same), if_pos clear]
      exact exec_dictionaryCode_refused h entry refused
    · have refused : codeWord set.val k.val e.toNat = .error .fieldRange := by rw [codeWord, if_pos same]
      exact exec_dictionaryCode_refused h entry refused

/-! ## Completions -/

/-- Results reach registers alone: what the lanes' states, PCs, guard windows, records and queue say stands (R56). -/
structure SameLanes (v w : Wave) : Prop where
  st      : v.st = w.st
  pc      : v.pc = w.pc
  guard   : v.guard = w.guard
  recs    : v.recs = w.recs
  subs    : v.subs = w.subs
  halted  : v.halted = w.halted

theorem SameLanes.trans {u v w : Wave} (h : SameLanes u v) (k : SameLanes v w) : SameLanes u w :=
  ⟨h.st.trans k.st, h.pc.trans k.pc, h.guard.trans k.guard, h.recs.trans k.recs, h.subs.trans k.subs, h.halted.trans k.halted⟩

theorem apply_sameLanes (s : State) (r : RegWrite) : SameLanes (r.apply s).w s.w := by
  have same (f : Wave → Wave) (h : SameLanes (f s.w) s.w) : SameLanes (s.modW f).w s.w := h
  cases r with
  | p n m x =>
    refine same _ ?_
    unfold Wave.wrP
    split <;> exact ⟨rfl, rfl, rfl, rfl, rfl, rfl⟩
  | s n x =>
    show SameLanes (s.wrS n x).w s.w
    unfold State.wrS
    split <;> exact ⟨rfl, rfl, rfl, rfl, rfl, rfl⟩
  | v | retcode | rows | header => exact ⟨rfl, rfl, rfl, rfl, rfl, rfl⟩

theorem applyAll_sameLanes (ws : List RegWrite) (s : State) : SameLanes (applyAll s ws).w s.w := by
  induction ws generalizing s with
  | nil => exact ⟨rfl, rfl, rfl, rfl, rfl, rfl⟩
  | cons r ws ih => exact (ih (r.apply s)).trans (apply_sameLanes s r)

/-- The lanes of faults stand in no mask that holds none of them. -/
theorem clear_faults {fs : List LaneFault} {m : Mask} (h : ∀ f ∈ fs, bit m f.lane = false) : m &&& ~~~faultLanes fs = m := by
  refine mask_ext _ _ fun l => ?_
  rw [bit_and, bit_not, faultLanes, bit_maskOf]
  cases found : faultOf fs l with
  | none => simp
  | some f =>
    have lane : f.lane = l := by simpa using List.find?_some found
    rw [← lane, h f (List.mem_of_find?_eq_some found)]
    rfl

/-- The record of a lane that had not parked and that no halt holds (R61, R407). -/
theorem pendingRecord_fresh {p : Pending} {w : Wave} {f : LaneFault} (restart : p.restart = true) (st : w.st[f.lane] ≠ .parked)
    (halted : bit w.halted f.lane = false) : pendingRecord p w f =
      { cause := BitVec.ofNat 32 (f.cause + 256 * (p.look - p.issued[f.lane]) + 4096), addr := f.addr, pc := p.pc
        entry := (w.pc[f.lane]).setWidth 64, guard := w.guard[f.lane], guardAt := w.guard[f.lane], enabled := bit p.enabled f.lane
        passed := false } := by
  have was : (w.st[f.lane] == LaneState.parked) = false := beq_eq_false_iff_ne.mpr st
  simp only [pendingRecord, was, halted, restart, causeWord, entryWord_ready, Bool.not_true, Bool.false_and, Bool.false_eq_true, if_false, if_true,
    Nat.sub_zero]

/-- The lanes of a wave's faults stand in no queued sub-wave and no halt holds them, so that they leave none (R61, R407). -/
theorem leave_fresh {fs : List LaneFault} {w : Wave} (halted : ∀ f ∈ fs, bit w.halted f.lane = false)
    (queued : ∀ f ∈ fs, ∀ b ∈ w.subs, bit b.lanes f.lane = false) (full : ∀ b ∈ w.subs, b.lanes ≠ 0) :
    { w with halted := w.halted &&& ~~~faultLanes fs
             subs := (w.subs.map fun b => { b with lanes := b.lanes &&& ~~~faultLanes fs }).filter fun b => b.lanes != 0 } = w := by
  have lanes : ∀ b ∈ w.subs, { b with lanes := b.lanes &&& ~~~faultLanes fs } = b := fun b hb => by
    rw [clear_faults fun f hf => queued f hf b hb]
  have kept : ∀ b ∈ w.subs, (b.lanes != 0) = true := fun b hb => bne_iff_ne.mpr (full b hb)
  rw [clear_faults halted, List.map_congr_left lanes, List.map_id', List.filter_eq_self.mpr kept]

/-- The state once the results of a pending instruction stand and it is pending no more. -/
def resultsOf (p : Pending) (s : State) : State := applyAll (s.modW fun w => { w with pending := w.pending.filter fun q => q.id != p.id }) p.writes

theorem resultsOf_sameLanes (p : Pending) (s : State) : SameLanes (resultsOf p s).w s.w :=
  (applyAll_sameLanes p.writes _).trans ⟨rfl, rfl, rfl, rfl, rfl, rfl⟩

/-- The record of a lane that parks at the completion of a pending instruction, the wave's lanes as they stand (R61, R405). -/
def completionRecord (p : Pending) (w : Wave) (l : Fin 32) : TrapRecord :=
  let f := (faultOf p.faults l).getD ⟨l, 0, 0⟩
  { cause := BitVec.ofNat 32 (f.cause + 256 * (p.look - p.issued[l]) + 4096), addr := f.addr, pc := p.pc, entry := w.pc[l].setWidth 64
    guard := w.guard[l], guardAt := w.guard[l], enabled := bit p.enabled l, passed := false }

/-- R56, R61 and R407: a completion whose faulting lanes have not parked. -/
theorem completePending_fresh {s : State} {p : Pending} (restart : p.restart = true)
    (fresh : ∀ f ∈ p.faults, s.w.st[f.lane] ≠ .parked ∧ bit s.w.halted f.lane = false ∧ ∀ b ∈ s.w.subs, bit b.lanes f.lane = false)
    (full : ∀ b ∈ s.w.subs, b.lanes ≠ 0) :
    completePending p s = parkAt p.issue (faultLanes p.faults) (completionRecord p s.w) (resultsOf p s) := by
  obtain ⟨st, pc, guard, recs, subs, halted⟩ := resultsOf_sameLanes p s
  show (if faultLanes p.faults = 0 then resultsOf p s
    else parkAt p.issue (faultLanes p.faults) (fun l => match faultOf p.faults l with
      | some f => pendingRecord p (resultsOf p s).w f
      | none => (resultsOf p s).w.recs[l]) ((resultsOf p s).modW fun w => { w with
        halted := w.halted &&& ~~~faultLanes p.faults
        subs := (w.subs.map fun b => { b with lanes := b.lanes &&& ~~~faultLanes p.faults }).filter fun b => b.lanes != 0 })) = _
  generalize resultsOf p s = after at *
  rw [← st, ← halted, ← subs] at fresh
  rw [← subs] at full
  split
  next none_ => rw [none_]; exact (parkAt_zero _ _ _).symm
  next =>
    have stays := leave_fresh (fun f hf => (fresh f hf).2.1) (fun f hf => (fresh f hf).2.2) full
    rw [modW_congr (g := fun w => w) stays]
    refine parkAt_congr _ _ fun l parks => ?_
    rw [faultLanes, bit_maskOf] at parks
    obtain ⟨f, found⟩ := Option.isSome_iff_exists.mp parks
    have lane : f.lane = l := by simpa using List.find?_some found
    obtain ⟨unparked, unhalted, -⟩ := fresh f (List.mem_of_find?_eq_some found)
    subst lane
    simp only [found, pendingRecord_fresh restart unparked unhalted, completionRecord, Option.getD_some, pc, guard]

theorem timed_eq (w : Wave) : timed w = w.pending.filter fun q => decide (q.on = .time) :=
  List.filter_congr fun _ _ => beq_eq_decide ..

/-! ## Handler entry -/

/-- One step of the search for the reporting lane (R405). -/
def lessCode (w : Wave) (b : Option (Fin 32)) (l : Fin 32) : Option (Fin 32) :=
  match b with
  | none => some l
  | some j => if causeCode w.recs[l].cause < causeCode w.recs[j].cause then some l else some j

theorem reported_foldl (w : Wave) (m : Mask) : reported w m = (lanesOf m).foldl (lessCode w) none := rfl

/-- A lane reports before another. -/
def Sooner (w : Wave) (l i : Fin 32) : Prop :=
  causeCode w.recs[l].cause < causeCode w.recs[i].cause ∨ (causeCode w.recs[l].cause = causeCode w.recs[i].cause ∧ l ≤ i)

/-- The search over lanes in ascending order finds the one that reports before all others. -/
theorem foldl_lessCode {w : Wave} {l : Fin 32} {xs : List (Fin 32)} {j : Fin 32} (sorted : (j :: xs).Pairwise (· < ·)) (mem : l ∈ j :: xs)
    (soonest : ∀ i ∈ j :: xs, Sooner w l i) : xs.foldl (lessCode w) (some j) = some l := by
  induction xs generalizing j with
  | nil => rw [List.mem_singleton.mp mem]; rfl
  | cons x xs ih =>
    obtain ⟨before, rest⟩ := List.pairwise_cons.mp sorted
    obtain ⟨-, tail⟩ := List.pairwise_cons.mp rest
    have hj : Sooner w l j := soonest j (List.mem_cons_self ..)
    have hx : Sooner w l x := soonest x (List.mem_cons_of_mem _ (List.mem_cons_self ..))
    have jx : j < x := before x (List.mem_cons_self ..)
    rw [List.foldl_cons, lessCode]
    split
    next less =>
      have other : l ≠ j := by
        rintro rfl
        rcases hx with h | ⟨h, -⟩ <;> omega
      exact ih rest ((List.mem_cons.mp mem).resolve_left other) fun i hi => soonest i (List.mem_cons_of_mem _ hi)
    next less =>
      have other : l ≠ x := by
        rintro rfl
        rcases hj with h | ⟨-, h⟩
        · exact less h
        · exact absurd jx (not_lt.mpr h)
      refine ih (List.pairwise_cons.mpr ⟨fun i hi => before i (List.mem_cons_of_mem _ hi), tail⟩) ?_ fun i hi => ?_
      · rcases List.mem_cons.mp mem with rfl | h
        · exact List.mem_cons_self ..
        · exact List.mem_cons_of_mem _ ((List.mem_cons.mp h).resolve_left other)
      · rcases List.mem_cons.mp hi with rfl | h
        · exact hj
        · exact soonest i (List.mem_cons_of_mem _ (List.mem_cons_of_mem _ h))

theorem causeCode_eq (c : Word) : causeCode c = c.toNat % 256 := by
  simp [causeCode, bitsOf]

theorem lanesOf_sorted (m : Mask) : (lanesOf m).Pairwise (· < ·) := List.Pairwise.filter _ (by decide)

/-- The lane that reports is the one found (R405). -/
theorem reported_eq {w : Wave} {m : Mask} {l : Fin 32} (h : Reports w m l) : reported w m = some l := by
  obtain ⟨mem, least⟩ := h
  have mem := (mem_lanesOf m l).mpr mem
  have soonest : ∀ i ∈ lanesOf m, Sooner w l i := fun i hi => by
    simp only [Sooner, causeCode_eq]
    exact least i ((mem_lanesOf m i).mp hi)
  have sorted := lanesOf_sorted m
  rw [reported_foldl]
  cases lanes : lanesOf m with
  | nil => rw [lanes] at mem; cases mem
  | cons j xs =>
    rw [lanes] at mem soonest sorted
    exact foldl_lessCode sorted mem soonest

theorem combCause_iff (c : Word) : combCause c = true ↔ c.toNat % 256 = 0x17 ∨ c.toNat % 256 = 0x18 := by
  simp only [combCause, causeCode_eq, Bool.or_eq_true, beq_iff_eq]

/-- The lowest lane of a mask that a test holds for. -/
theorem find_lowest {m : Mask} {f : Fin 32 → Bool} {j : Fin 32} (mem : bit m j = true) (holds : f j = true)
    (least : ∀ i, bit m i = true → f i = true → j ≤ i) : (lanesOf m).find? f = some j := by
  cases found : (lanesOf m).find? f with
  | none => exact absurd holds (List.find?_eq_none.mp found j ((mem_lanesOf m j).mpr mem))
  | some i =>
    obtain ⟨hi, before, after, lanes, unheld⟩ := List.find?_eq_some_iff_append.mp found
    have i_mem : i ∈ lanesOf m := List.mem_of_find?_eq_some found
    have below : j ≤ i := least i ((mem_lanesOf m i).mp i_mem) hi
    have sorted := lanesOf_sorted m
    have j_mem := (mem_lanesOf m j).mpr mem
    rw [lanes] at sorted j_mem
    rcases List.mem_append.mp j_mem with hj | hj
    · exact absurd (unheld j hj) (by simp [holds])
    rcases List.mem_cons.mp hj with rfl | hj
    · rfl
    · have above := (List.pairwise_cons.mp (List.pairwise_append.mp sorted).2.1).1 j hj
      exact absurd above (not_lt.mpr below)

/-- The address that a sub-wave presents (R248, R405). -/
theorem presented_eq {w : Wave} {m : Mask} {l j : Fin 32} (h : Presents w m l j) : presented w m l = w.recs[j].addr := by
  rcases h with ⟨other, rfl⟩ | ⟨comb, mem, holds, least⟩
  · rw [presented, if_neg (mt (combCause_iff _).mp other)]
  · have found := find_lowest (f := fun i => combCause w.recs[i].cause) mem ((combCause_iff _).mpr holds)
      fun i hi hc => least i hi ((combCause_iff _).mp hc)
    rw [presented, if_pos ((combCause_iff _).mpr comb), found]

/-- R407: an entry that nothing delays is due. -/
theorem entryDue_of {w : Wave} {b : SubWave} {t : List SubWave} (subs : w.subs = b :: t) (free : EntryFree w b) : entryDue w = true := by
  obtain ⟨handler, batch, ahead, pending⟩ := free
  have untouched : (w.pending.any fun p => p.touches b.lanes) = false := List.any_eq_false.mpr fun p hp => by
    simp [Pending.touches, pending p hp]
  simp [entryDue, handler, batch, ahead, subs, untouched]

theorem handlerAddr_eq (s : State) :
    s.handlerAddr = if s.grp.handler = (0 : DWord) then (s.ctx s.grp.task.ctx).defhandler.setWidth 64 else s.grp.handler := by
  rw [State.handlerAddr]
  by_cases none : s.grp.handler = (0 : DWord)
  · rw [if_pos none, if_neg (not_not.mpr none)]
  · rw [if_neg none, if_pos none]

section
variable {s : State} {b : SubWave} {t : List SubWave} {l j : Fin 32} (stores : s.stores = []) (subs : s.w.subs = b :: t) (free : EntryFree s.w b)
  (reports : Reports s.w b.lanes l)
include stores subs free reports

/-- R279 and R407: the first queued sub-wave enters the handler. -/
theorem exec_handlerEntry (presents : Presents s.w b.lanes l j) (handler : s.handlerAddr ≠ 0) : exec .handlerEntry s = .next (s.modW fun w => { w with
    st := Lanes.ofFn fun i => if bit b.lanes i then .ready else w.st[i]
    pc := Lanes.ofFn fun i => if bit b.lanes i then s.handlerAddr.setWidth 56 else w.pc[i]
    guard := Lanes.ofFn fun i => if bit b.lanes i then Guard.none else w.guard[i]
    trapcause := s.w.recs[l].cause, trapaddr := s.w.recs[j].addr, trapmask := b.lanes, trappc := s.w.recs[l].pc
    trapent := Lanes.ofFn fun i => if bit b.lanes i then w.recs[i].entry else w.trapent[i]
    yieldMask := w.yieldMask &&& ~~~b.lanes, subs := t, handler := some b }) := by
  have enters : (if entryDue s.w then enterHandler s else s) = enterHandler s := if_pos (entryDue_of subs free)
  refine next_of _ s _ (enters.trans ?_) stores rfl
  rw [← presented_eq presents]
  simp only [enterHandler, subs, reported_eq reports, if_neg handler]
  rfl

/-- R279 and R410: with no handler the group ends with STATUS 3. -/
theorem exec_handlerEntry_none (none : s.handlerAddr = 0) : exec .handlerEntry s = .next (stopGroup 3 s) := by
  have enters : (if entryDue s.w then enterHandler s else s) = enterHandler s := if_pos (entryDue_of subs free)
  refine next_of _ s _ (enters.trans ?_) stores rfl
  simp only [enterHandler, subs, reported_eq reports, if_pos none]

end

/-- R56, R61, R279, R405 and R407: completions and the entry into the handler. -/
theorem completionsAndHandlerEntry : CompletionsAndHandlerEntry := by
  refine ⟨fun s i p stores found restart fresh full => ?_, fun s b t l j stores subs free reports presents => ⟨fun handler => ?_, fun none => ?_⟩⟩
  · have done : (match (timed s.w)[i]? with | some p => completePending p s | none => s) = completePending p s := by rw [timed_eq, found]
    have others : (fun q : Pending => q.id != p.id) = fun q => decide (q.id ≠ p.id) := funext fun q => by rw [bne, beq_eq_decide, decide_not]
    have ofLane (l : Fin 32) : faultOf p.faults l = p.faults.find? fun f => decide (f.lane = l) :=
      congrArg p.faults.find? (funext fun f => beq_eq_decide ..)
    have whole : completePending p s = _ := completePending_fresh restart fresh full
    unfold faultLanes completionRecord resultsOf at whole
    simp only [ofLane, others] at whole
    exact next_of _ s _ (done.trans whole) ((parkAt_stores ..).trans ((applyAll_stores ..).trans stores)) ((parkAt_mem ..).trans (applyAll_mem ..))
  · rw [← handlerAddr_eq] at handler ⊢
    exact exec_handlerEntry stores subs free reports presents handler
  · rw [← handlerAddr_eq] at none
    exact ⟨_, exec_handlerEntry_none stores subs free reports none, rfl, stopGroup_ended 3 s⟩

/-- Settles O38: a code does what its entry's word says (`codeWord`), a completion whose lanes have not parked leaves their records alone changed
(`completePending_fresh`), and the lane with the lowest cause reports for its sub-wave (`reported_eq`). -/
theorem codesCompletionsAndHandlers : Obligations.CodesCompletionsAndHandlers := by
  unfold Obligations.CodesCompletionsAndHandlers
  exact ⟨dictionaryCodes, completionsAndHandlerEntry⟩

end Sys2Proof.Proofs.CodesAndHandlers
end

section
/-! The step of an issue (R44, R46, R47, R51, R134): a fetch whose page is cached changes nothing but caches and owners, and the bytes at the PC
decide what executes. -/
namespace Sys2Proof.Proofs.IssueStep
open Sys2Proof Sys2Proof.Machine Sys2Proof.Claims Sys2Proof.Proofs.MachineState Sys2Proof.Proofs.Encoding

/-! ## A state but for what a fetch changes -/

/-- A state t that is s but for the owners of words, L2, the L1 of the cores and the instruction cache of the group's core, which is ic. -/
structure Fetching (ic : List (Nat × BitVec 16)) (s t : State) : Prop where
  same : t = { s with cores := t.cores, owners := t.owners, l2 := t.l2 }
  cores : ∀ c, ∃ l, t.core c = { s.core c with l1 := l, icache := if c = s.grp.core then ic else (s.core c).icache }
  low : ∀ e ∈ t.l2, e.line < 2 ^ 40

section fetching
variable {ic : List (Nat × BitVec 16)} {s t : State}

theorem fetching_self (low : ∀ e ∈ s.l2, e.line < 2 ^ 40) : Fetching (s.core s.grp.core).icache s s where
  same := rfl
  cores c := by
    by_cases own : c = s.grp.core
    · exact ⟨_, by rw [if_pos own, ← own]⟩
    · exact ⟨_, by rw [if_neg own]⟩
  low := low

theorem Fetching.setL2 (h : Fetching ic s t) (ls : List L2Line) (low : ∀ e ∈ ls, e.line < 2 ^ 40) : Fetching ic s { t with l2 := ls } where
  same := congrArg (fun u : State => { u with l2 := ls }) h.same
  cores := h.cores
  low := low

theorem Fetching.setOwners (h : Fetching ic s t) (os : List (Nat × Nat)) : Fetching ic s { t with owners := os } where
  same := congrArg (fun u : State => { u with owners := os }) h.same
  cores := h.cores
  low := h.low

theorem core_modCore (t : State) (c j : Nat) (f : Core → Core) : (t.modCore c f).core j = if j = c then f (t.core c) else t.core j := by
  by_cases e : j = c
  · rw [if_pos e, e]
    exact look_put_same _ _ _ _
  · rw [if_neg e]
    exact look_put_ne _ _ _ _ _ e

/-- A core whose L1 changes. -/
theorem Fetching.modL1 (h : Fetching ic s t) (c : Nat) {f : Core → Core} (hf : ∀ k, ∃ l, f k = { k with l1 := l }) :
    Fetching ic s (t.modCore c f) where
  same := congrArg (fun u : State => { u with cores := (t.modCore c f).cores }) h.same
  cores j := by
    rw [core_modCore]
    split
    next e =>
      obtain ⟨l, changed⟩ := hf (t.core c)
      obtain ⟨l', before⟩ := h.cores c
      exact ⟨l, by rw [changed, before, e]⟩
    next => exact h.cores j
  low := h.low

/-- The group's core whose instruction cache changes. -/
theorem Fetching.setCache (h : Fetching ic s t) {f : List (Nat × BitVec 16) → List (Nat × BitVec 16)} :
    Fetching (f ic) s (t.modCore s.grp.core fun k => { k with icache := f k.icache }) where
  same := congrArg (fun u : State => { u with cores := (t.modCore s.grp.core fun k => { k with icache := f k.icache }).cores }) h.same
  cores j := by
    rw [core_modCore]
    obtain ⟨l, before⟩ := h.cores j
    refine ⟨l, ?_⟩
    split
    next e => subst e; rw [before, if_pos rfl]
    next e => rw [before, if_neg e]
  low := h.low

theorem Fetching.foldl {α : Type} (f : State → α → State) (xs : List α) (step : ∀ x ∈ xs, ∀ t, Fetching ic s t → Fetching ic s (f t x))
    (h : Fetching ic s t) : Fetching ic s (xs.foldl f t) := by
  induction xs generalizing t with
  | nil => exact h
  | cons x xs ih => exact ih (fun y hy => step y (List.mem_cons_of_mem _ hy)) (step x List.mem_cons_self t h)

theorem Fetching.revokeLine (h : Fetching ic s t) (line : Nat) : Fetching ic s (Machine.revokeLine line t) := by
  refine Fetching.foldl _ _ (fun a _ u hu => ?_) h
  unfold revoke
  split
  · exact (hu.modL1 _ fun k => ⟨_, rfl⟩).setOwners _
  · exact hu

theorem Fetching.replaceWay (h : Fetching ic s t) {v : L2Line} (low : v.line < 2 ^ 40) : Fetching ic s (Machine.replaceWay v t) := by
  unfold Machine.replaceWay
  rw [if_pos (regionOf_line low)]
  split
  · exact h
  · exact h.revokeLine v.line

theorem Fetching.useWay (h : Fetching ic s t) {new : L2Line} (low : new.line < 2 ^ 40) : Fetching ic s (Machine.useWay new t) := by
  have add (ls : List L2Line) (sub : ∀ e ∈ ls, e ∈ t.l2) (e : L2Line) (he : e.line < 2 ^ 40) : ∀ x ∈ ls ++ [e], x.line < 2 ^ 40 := fun x hx =>
    (List.mem_append.mp hx).elim (fun hx => h.low x (sub x hx)) fun hx => List.mem_singleton.mp hx ▸ he
  unfold Machine.useWay
  split
  next e u found =>
    obtain ⟨-, mem, sub, -⟩ := pull_some found
    refine h.setL2 _ (add u sub _ ?_)
    split
    · exact low
    · exact h.low e mem
  next =>
    split
    · exact h.setL2 _ (add _ (fun _ => id) new low)
    · split
      next v u found =>
        obtain ⟨-, mem, sub, -⟩ := pull_some found
        exact (h.replaceWay (h.low v mem)).setL2 _ (add u sub new low)
      next => exact h

theorem Fetching.useL2All (h : Fetching ic s t) {lines : List Nat} (low : ∀ l ∈ lines, l < 2 ^ 40) :
    Fetching ic s (Machine.useL2All lines false t) := by
  refine Fetching.foldl _ _ (fun l hl u hu => ?_) h
  unfold useL2
  rw [if_pos (regionOf_line (low l hl))]
  exact hu.useWay (low l hl)

/-! ## Reading code -/

/-- Nothing stands between a fetch and the bytes of memory. -/
structure PlainMemory (s : State) : Prop where
  stores : s.stores = []
  bands : s.bands = []
  aliases : s.aliases = []
  provs : s.provs = []

theorem Fetching.plain (h : Fetching ic s t) (m : PlainMemory s) : PlainMemory t where
  stores := (congrArg State.stores h.same :).trans m.stores
  bands := (congrArg State.bands h.same :).trans m.bands
  aliases := (congrArg State.aliases h.same :).trans m.aliases
  provs := (congrArg State.provs h.same :).trans m.provs

theorem Fetching.bytes (h : Fetching ic s t) (m : PlainMemory s) (a n : Nat) : t.bytes a n = s.mem.bytes a n := by
  have byte (b : Nat) : t.byte b = s.mem.read b := by
    rw [State.byte, (h.plain m).stores, (congrArg State.mem h.same :)]
    rfl
  induction n generalizing a with
  | zero => rfl
  | succ n ih => rw [State.bytes, Mem.bytes, byte, ih]

/-- A read of device memory at its home slice. -/
theorem Fetching.homeRead (h : Fetching ic s t) (m : PlainMemory s) {a n : Nat} (low : a + n ≤ 2 ^ 48) :
    (Machine.homeRead .quiet a n t).2.1 = s.mem.bytes a n ∧ Fetching ic s (Machine.homeRead .quiet a n t).1 := by
  have p := h.plain m
  have rounded (ls : List Nat) : ls.foldl (fun s l => Machine.roundLine l s) t = t :=
    List.foldl_fixed' (fun l => roundLine_none l t (by rw [p.bands, List.find?_nil])) _
  have sources : ((List.range n).map fun i => a + i).map (sourceOf t) = (List.range n).map fun i => a + i := by
    refine (List.map_congr_left fun b _ => ?_).trans (List.map_id _)
    rw [sourceOf, coverOf, p.aliases, List.find?_nil]
    rfl
  let lines := ((((List.range n).map fun i => a + i).map wordOf).dedup.map fun b => lineOf b).dedup
  have used : Fetching ic s (Machine.useL2All lines false t) := h.useL2All fun l hl => by
    rw [List.mem_dedup, List.mem_map] at hl
    obtain ⟨w, hw, rfl⟩ := hl
    rw [List.mem_dedup, List.map_map, List.mem_map] at hw
    obtain ⟨i, hi, rfl⟩ := hw
    have := List.mem_range.mp hi
    refine lineOf_low ?_
    simp only [Function.comp_apply, wordOf]
    omega
  have q := used.plain m
  have observed (ws : List Nat) : observe .quiet ws (Machine.useL2All lines false t) = Machine.useL2All lines false t := by
    have none (f : Prov → Prov) : (Machine.useL2All lines false t).provs.map f = (Machine.useL2All lines false t).provs := by rw [q.provs]; rfl
    simp only [observe, none]
  have uncounted : countReads .quiet ((List.range n).map fun i => a + i) (Machine.useL2All lines false t) = Machine.useL2All lines false t := by
    simp only [countReads, q.aliases, List.filter_nil, if_true]
  have read : ((List.range n).map fun i => a + i).map (Machine.useL2All lines false t).byte = s.mem.bytes a n := by
    rw [List.map_map, ← used.bytes m a n]
    exact (bytes_eq_map _ a n).symm
  unfold Machine.homeRead Machine.homeFetch
  simp only [rounded, p.aliases, List.filter_nil, if_true, sources]
  rw [observed, uncounted]
  exact ⟨read, used⟩

/-- No store that the core's fetches are still to find has changed what stands at n bytes (R47). -/
def Unhidden (s : State) (a n : Nat) : Prop :=
  ∀ e ∈ s.codeLog.drop (s.core s.grp.core).icSeq, a ≤ e.1 → e.1 < a + n → e.2 = none

theorem Fetching.codeByte (h : Fetching ic s t) {a n b : Nat} (shown : Unhidden s a n) (low : a ≤ b) (high : b < a + n) (now : Byte) :
    Machine.codeByte t s.grp.core b now = now := by
  obtain ⟨l, core⟩ := h.cores s.grp.core
  have log : t.codeLog.drop (t.core s.grp.core).icSeq = s.codeLog.drop (s.core s.grp.core).icSeq := by
    rw [(congrArg State.codeLog h.same :), core]
  have clear : (s.codeLog.drop (s.core s.grp.core).icSeq).find? (fun e => e.1 == b && e.2.isSome) = none :=
    List.find?_eq_none.mpr fun e he found => by
      obtain ⟨at_, kept⟩ := Bool.and_eq_true_iff.mp found
      have e1 : e.1 = b := beq_iff_eq.mp at_
      rw [shown e he (e1 ▸ low) (e1 ▸ high)] at kept
      exact Bool.false_ne_true kept
  rw [Machine.codeByte, log, clear]

/-- A parcel that the instruction cache does not hold is fetched from memory. -/
theorem Fetching.fetchParcel (h : Fetching ic s t) (m : PlainMemory s) {a : Nat} (low : a + 2 ≤ 2 ^ 48) (shown : Unhidden s a 2)
    (miss : ic.find? (fun e => e.1 == a) = none) :
    ∃ t', Machine.fetchParcel s.grp.core a t = (t', parcel (s.mem.read a) (s.mem.read (a + 1))) ∧
      Fetching (put ic a (BitVec.ofNat 16 (parcel (s.mem.read a) (s.mem.read (a + 1))))) s t' := by
  obtain ⟨l, core⟩ := h.cores s.grp.core
  obtain ⟨bytes, read⟩ := h.homeRead m low
  have uncached : (t.core s.grp.core).icache.find? (fun e => e.1 == a) = none := by rw [core, if_pos rfl]; exact miss
  refine ⟨_, ?_, read.setCache (f := fun c => put c a (BitVec.ofNat 16 (parcel (s.mem.read a) (s.mem.read (a + 1)))))⟩
  unfold Machine.fetchParcel
  rw [uncached]
  simp only [bytes, Mem.bytes, List.zipIdx_cons, List.zipIdx_nil, List.map_cons, List.map_nil]
  rw [read.codeByte shown (by omega) (by omega), read.codeByte shown (by omega) (by omega)]
  rfl

end fetching

/-! ## Fetching at the PC -/

/-- The translation of code whose page the core's TLB holds (R46, R385). -/
theorem translate_cached {s : State} {va pa : Nat} {e : TlbEntry} (hit : cached s va = some e) (x : e.x = true) (lease : e.lease = none)
    (at_ : pa = e.pa + (va - e.page)) (low : pa < 2 ^ 48) : translate (.core s.coreNo) s.ctxNo .fetch va s = (s, .ok pa e.nc) := by
  have near : tlbAt s (.core s.coreNo) s.ctxNo va = some e := hit
  have found : tlbFind s s.ctxNo va ((TlbUnit.core s.coreNo).path va) = some (e, []) := by rw [TlbUnit.path, tlbFind, near]
  have free : e.recalled s = false := by rw [TlbEntry.recalled, lease]
  have filled : tlbFill e va [] s = s := rfl
  have look : lookPage (.core s.coreNo) s.ctxNo .fetch va s = (s, .entry e) := by simp only [lookPage, found, free, filled, Bool.false_eq_true, if_false]
  have device : regionOf pa = 0 := regionOf_low low
  have checked : checkLeaf .fetch e.w e.x e.nc pa s = .ok pa e.nc := by simp [checkLeaf, x, device]
  unfold Machine.translate
  rw [look, ← checked, at_]
  rfl

section
variable {ic : List (Nat × BitVec 16)} {s t : State}

theorem Fetching.cached (h : Fetching ic s t) (va : Nat) : Claims.cached t va = Claims.cached s va := by
  have tlb : t.tlb = s.tlb := (congrArg State.tlb h.same :)
  have grp : t.grp = s.grp := (congrArg State.grp h.same :)
  rw [Claims.cached, Claims.cached, cachedAt, cachedAt, tlb, grp]

/-- A parcel at an address whose page the core's TLB holds. -/
theorem Fetching.fetchAt (h : Fetching ic s t) (m : PlainMemory s) {pc : BitVec 56} {pa : Nat} {e : TlbEntry} (hit : Claims.cached s pc.toNat = some e)
    (x : e.x = true) (lease : e.lease = none) (at_ : pa = e.pa + (pc.toNat - e.page)) (low : pa + 2 ≤ 2 ^ 48) (shown : Unhidden s pa 2)
    (miss : ic.find? (fun e => e.1 == pa) = none) :
    ∃ t', Machine.fetchAt pc t = (t', .got (parcel (s.mem.read pa) (s.mem.read (pa + 1)))) ∧
      Fetching (put ic pa (BitVec.ofNat 16 (parcel (s.mem.read pa) (s.mem.read (pa + 1))))) s t' := by
  obtain ⟨t', parcel_, fetched⟩ := h.fetchParcel m low shown miss
  refine ⟨t', ?_, fetched⟩
  have translated := translate_cached ((h.cached _).trans hit) x lease at_ (by omega)
  have held : lineHeld t pa = true := by rw [lineHeld, regionOf_low (by omega)]; rfl
  have core : t.coreNo = s.grp.core := (congrArg (fun u : State => u.grp.core) h.same :)
  unfold Machine.fetchAt
  rw [translated]
  simp only [held, core, parcel_, Bool.not_true, Bool.false_eq_true, if_false]

end

/-- What the bytes at the PC of the run bring (R44). -/
theorem fetchInstr_code {s : State} {pa : Nat} (m : PlainMemory s) (fetches : FetchesAt s pa 2)
    (short : longParcel (parcel (s.mem.read pa) (s.mem.read (pa + 1))) = false) :
    ∃ ic t, fetchInstr s = (t, .code (parcel (s.mem.read pa) (s.mem.read (pa + 1)))) ∧ Fetching ic s t := by
  obtain ⟨icache, low, lines, -, shown, e, hit, x, lease, at_, -⟩ := fetches
  obtain ⟨t, got, fetched⟩ := (fetching_self lines).fetchAt m hit x lease at_ low shown (by rw [icache]; rfl)
  refine ⟨_, t, ?_, fetched⟩
  unfold fetchInstr
  rw [got]
  simp only [short, Bool.not_false, if_true]

theorem fetchInstr_word {s : State} {pa : Nat} (m : PlainMemory s) (fetches : FetchesAt s pa 4)
    (long : longParcel (parcel (s.mem.read pa) (s.mem.read (pa + 1))) = true) :
    ∃ ic t, fetchInstr s = (t, .word (parcel (s.mem.read pa) (s.mem.read (pa + 1)) * 65536 +
      parcel (s.mem.read (pa + 2)) (s.mem.read (pa + 3)))) ∧ Fetching ic s t := by
  obtain ⟨icache, low, lines, canonical, shown, e, hit, x, lease, at_, fits, paged⟩ := fetches
  have next_ : (s.iss.pc + 2).toNat = s.iss.pc.toNat + 2 := by
    rw [BitVec.toNat_add]
    exact Nat.mod_eq_of_lt (show s.iss.pc.toNat + 2 < 2 ^ 56 by omega)
  have page : e.page ≤ s.iss.pc.toNat := by
    have inside := List.find?_some hit
    simp only [Bool.and_eq_true, decide_eq_true_eq] at inside
    exact inside.1.2
  obtain ⟨t, got, fetched⟩ := (fetching_self lines).fetchAt m hit x lease at_ (by omega)
    (fun b hb lo hi => shown b hb lo (by omega)) (by rw [icache]; rfl)
  have other : (put (s.core s.grp.core).icache pa (BitVec.ofNat 16 (parcel (s.mem.read pa) (s.mem.read (pa + 1))))).find?
      (fun e => e.1 == pa + 2) = none := by
    rw [icache]
    simp [put]
  obtain ⟨u, got', fetched'⟩ := fetched.fetchAt m (pc := s.iss.pc + 2) (pa := pa + 2) (e := e) (by rw [next_]; exact paged 2 (by decide)) x lease
    (by rw [next_]; omega) (by omega) (fun b hb lo hi => shown b hb (by omega) (by omega)) other
  refine ⟨_, u, ?_, fetched'⟩
  unfold fetchInstr
  rw [got]
  simp only [long, Bool.not_true, Bool.false_eq_true, if_false]
  rw [(congrArg (fun u : State => u.iss.pc) fetched.same :), got']

/-! ## The issue -/

theorem Fetching.fetchedCores {ic : List (Nat × BitVec 16)} {s t : State} (h : Fetching ic s t) : FetchedCores t.cores s := fun c => by
  obtain ⟨l, core⟩ := h.cores c
  exact ⟨l, _, core⟩

/-- The instruction under way takes the length of what was fetched. -/
theorem Fetching.withLength {ic : List (Nat × BitVec 16)} {s t : State} (h : Fetching ic s t) (n : Nat) :
    { t with iss := { t.iss with len := n } } = { s with cores := t.cores, owners := t.owners, l2 := t.l2, iss := { s.iss with len := n } } :=
  congrArg (fun u : State => { u with iss := { u.iss with len := n } }) h.same

theorem Fetching.dictFailed {ic : List (Nat × BitVec 16)} {s t : State} (h : Fetching ic s t) (loaded : s.grp.failed = false) :
    Machine.dictFailed t = false := by
  rw [Machine.dictFailed, (congrArg (fun u : State => u.grp.failed) h.same :), loaded]
  rfl

section
variable {s t : State} (wait : mustWait {} s = false) (loaded : dictFailed t = false)
include wait loaded

theorem issueAt_code {p : Nat} (fetched : fetchInstr s = (t, .code p)) :
    issueAt s = runInstr (decodeCode p) { t with iss := { t.iss with len := 2 } } := by
  unfold issueAt
  rw [wait, fetched]
  simp only [loaded, Bool.false_eq_true, if_false]

theorem issueAt_word {w : Nat} {i : Instr} (fetched : fetchInstr s = (t, .word w)) (word : decodeWord w = .ok i) :
    issueAt s = runInstr i { t with iss := { t.iss with len := 4 } } := by
  unfold issueAt
  rw [wait, fetched]
  simp only [loaded, word, Bool.false_eq_true, if_false]

end

/-- The instruction whose bytes stand at the PC executes with its length (R44, R51). -/
theorem issueAt_decoded {s : State} {pa n : Nat} {i : Instr} (m : PlainMemory s) (wait : mustWait {} s = false) (loaded : s.grp.failed = false)
    (size : n = 2 ∨ n = 4) (fetches : FetchesAt s pa n) (decoded : decode (s.mem.bytes pa n) = .ok (i, [])) :
    ∃ cs os ls, FetchedCores cs s ∧ issueAt s = runInstr i { s with cores := cs, owners := os, l2 := ls, iss := { s.iss with len := n } } := by
  rcases (decode_iff _ _ _).mp decoded with ⟨b0, b1, bytes, short, rfl⟩ | ⟨b0, b1, b2, b3, bytes, long, word⟩
  · obtain rfl : n = 2 := by
      rcases size with rfl | rfl
      · rfl
      · cases bytes
    obtain ⟨rfl, rfl⟩ : s.mem.read pa = b0 ∧ s.mem.read (pa + 1) = b1 := by simpa only [Mem.bytes, List.cons.injEq, and_true] using bytes
    obtain ⟨ic, t, fetched, change⟩ := fetchInstr_code m fetches short
    refine ⟨t.cores, t.owners, t.l2, change.fetchedCores, ?_⟩
    rw [issueAt_code wait (change.dictFailed loaded) fetched, change.withLength]
  · obtain rfl : n = 4 := by
      rcases size with rfl | rfl
      · cases bytes
      · rfl
    obtain ⟨rfl, rfl, rfl, rfl⟩ : s.mem.read pa = b0 ∧ s.mem.read (pa + 1) = b1 ∧ s.mem.read (pa + 2) = b2 ∧ s.mem.read (pa + 3) = b3 := by
      simpa only [Mem.bytes, List.cons.injEq, and_true] using bytes
    obtain ⟨ic, t, fetched, change⟩ := fetchInstr_word m fetches long
    refine ⟨t.cores, t.owners, t.l2, change.fetchedCores, ?_⟩
    rw [issueAt_word wait (change.dictFailed loaded) fetched word, change.withLength]

/-! ## The step -/

/-- A choice of a run leaves the wave in its slot. -/
theorem chooseRun_slot {w w' : Wave} {iss : Issue} (h : chooseRun w = some (w', iss)) : w'.slot = w.slot := by
  have shown : (if w.ready &&& ~~~w.yieldMask = 0 then { w with yieldMask := 0 } else w).slot = w.slot := by split <;> rfl
  unfold chooseRun at h
  dsimp only at h
  generalize (if w.ready &&& ~~~w.yieldMask = 0 then { w with yieldMask := 0 } else w) = v at h shown
  rw [← shown]
  split at h
  next => cases h
  next =>
    split at h
    · cases h; rfl
    · split at h
      · cases h; rfl
      · cases h; rfl

theorem nextIssue_slot {w w' : Wave} {iss : Issue} (h : nextIssue w = some (w', iss)) : w'.slot = w.slot := by
  have fresh (v : Wave) (h : (match v.replay with
      | some r => some ({ v with replay := none }, Issue.of r.lanes r.pc 4 (some r.enabled))
      | none => chooseRun v) = some (w', iss)) : w'.slot = v.slot := by
    split at h
    · cases h; rfl
    · exact chooseRun_slot h
  unfold nextIssue at h
  dsimp only at h
  split at h
  next c _ =>
    split at h
    · cases h; rfl
    · exact fresh { w with chosen := none } h
  next => exact fresh w h

/-- The end of an issue, and the turn of the group pipe (R411, R466). -/
noncomputable def issueEnds (s t u : State) : State :=
  if nextIsGroup s = true ∧ (endIssue u).w.chosen = none then servePipe t.grp.core t.w.slot (endIssue u) else endIssue u

/-- The state of an issue whose identity has been given. -/
theorem identify_eq (iss : Issue) (s : State) : identify iss s = { s with
    iss := { iss with id := if iss.id = 0 then s.nextUid else iss.id }, nextUid := if iss.id = 0 then s.nextUid + 1 else s.nextUid } := by
  unfold identify
  split <;> rfl

/-- An issue is its run executed, and ends (R134, R411, R466). -/
theorem issueWave_issues {s t : State} (h : Issues s t) : issueWave s = match issueAt t with
    | .next u => .next (issueEnds s t u)
    | .fault f => .fault f
    | .refused r => .refused r := by
  obtain ⟨w, iss, next, same⟩ := h
  have identified : identify iss (s.modW fun _ => { w with issues := w.issues + 1 }) = t := by
    rw [identify_eq, same]
    rfl
  have slot : s.w.slot = t.w.slot := by
    rw [same]
    exact (nextIssue_slot next).symm
  have core : s.coreNo = t.grp.core := by
    rw [same]
    rfl
  unfold issueWave
  rw [next]
  simp only [identified, slot, core]
  cases issueAt t with
  | next u => simp only [issueEnds, Bool.and_eq_true, Option.isNone_iff_eq_none]
  | fault f => rfl
  | refused r => rfl

/-- The step of an issue that is due. -/
theorem step_issue {s : State} {a : Action} (inbox : s.inbox = []) (runs : running s = true) (deed : nextDeed s = some a) (issue : a.deed = .issue) :
    step s = thenTime (issueWave (focusOn a (chosen s))) := by
  unfold step
  rw [inbox]
  simp only [runs, deed, if_true]
  rw [act, issue]

/-- An instruction that latches no word executes alone. -/
theorem runInstr_unlatched {s u : State} {i : Instr} (h : exec i s = .next u) (latch : u.latch = none) : runInstr i s = .next u := by
  rw [runInstr, h]
  simp only [latch]

/-- Settles O54: the fetch changes nothing but caches and owners (`issueAt_decoded`), and the step is the issue that is due (`step_issue`,
`issueWave_issues`). -/
theorem stepRunsTheDecodedInstruction : Obligations.StepRunsTheDecodedInstruction := by
  unfold Obligations.StepRunsTheDecodedInstruction
  intro s t a pa i inbox runs deed issue issues wait stores bands aliases provs loaded
  refine ⟨fun n size fetches decoded => ?_, fun u h latch => runInstr_unlatched h latch⟩
  obtain ⟨cs, os, ls, cores, executes⟩ := issueAt_decoded ⟨stores, bands, aliases, provs⟩ wait loaded size fetches decoded
  refine ⟨cs, os, ls, cores, ?_⟩
  rw [step_issue inbox runs deed issue, issueWave_issues issues, executes]
  rfl

end Sys2Proof.Proofs.IssueStep
end

section
/-! The integer family and the exchange between lanes (R100 to R124): an instruction that is ready writes its destination in the enabled lanes of its
run, or once for the run, with the value that the manual gives. -/
namespace Sys2Proof.Proofs.IntegerAndLanes
open Sys2Proof Sys2Proof.Machine Sys2Proof.Claims Sys2Proof.Proofs.MachineState

/-! ## Reads behind the instruction, and registers within the allotment -/

/-- An effect reads the wave as it stands. -/
theorem modW_reads (s : State) (effect : Wave → Wave → Wave) : (s.modW fun w => effect w w) = s.modW (effect s.w) := rfl

@[simp] theorem past_rdV (k : Bool) (s : State) (a : Fin 128) (l : Fin 32) : (past k s).w.rdV a l = s.w.rdV a l := rfl
@[simp] theorem past_rdVV (k : Bool) (s : State) (a : Fin 128) (l : Fin 32) : (past k s).w.rdVV a l = s.w.rdVV a l := rfl
@[simp] theorem past_rdP (k : Bool) (s : State) (p : Nat) (l : Fin 32) : (past k s).w.rdP p l = s.w.rdP p l := rfl

theorem within_of_subset {a b : List Reg} {s : State} (h : Within b s) (sub : a ⊆ b) : Within a s := fun r hr => h r (sub hr)

/-- Predicates need no allotment (R14). -/
theorem within_pReg (n : Nat) (s : State) : Within (pReg n) s := by
  intro r hr
  unfold pReg at hr
  split at hr
  · obtain rfl := List.mem_singleton.mp hr
    rfl
  · cases hr

theorem within_group3 (d a b : Fin 128) (s : State) : Within (sReg a ++ sReg b ++ sReg d) s :=
  within_append (within_append (within_sReg a s) (within_sReg b s)) (within_sReg d s)

theorem within_group2 (d a : Fin 128) (s : State) : Within (sReg a ++ sReg d) s :=
  within_append (within_sReg a s) (within_sReg d s)

theorem within_group3Pair (d a b : Fin 128) (s : State) : Within (sPair a ++ sPair b ++ sPair d) s :=
  within_append (within_append (within_sPair a s) (within_sPair b s)) (within_sPair d s)

/-! ## Forms: what an instruction of one destination leaves (R100) -/

section forms
variable {s : State} {reads writes : List Reg} {body : Exec → State → State} (h : CanIssue s) (within : Within (reads ++ writes) s)
include h within

/-- An instruction of the lane set changes the wave alone, by an effect that does nothing where no lane is enabled. -/
theorem issue_lane {effect : Wave → Wave} (idle : laneSet s = 0 → ∀ w, effect w = w)
    (acts : body (execOf true s) (past true s) = (past true s).modW effect) :
    issue { reads := reads, writes := writes } body s = .next ((past true s).modW effect) := by
  refine issue_past _ _ s h within rfl rfl (absurd · Bool.false_ne_true) (absurd · Bool.false_ne_true) rfl _ ?_ (stores_of_canIssue (s := s) h) rfl
  split
  case isTrue none => exact (congrArg (past true s).modW (funext (idle none))).symm
  case isFalse => exact acts

theorem issue_wrV {d : Fin 128} {f : Fin 32 → Word}
    (acts : body (execOf true s) (past true s) = (past true s).modW fun w => w.wrV d (laneSet s) f) :
    issue { reads := reads, writes := writes } body s = .next ((past true s).modW fun w => w.wrV d (laneSet s) f) :=
  issue_lane h within (fun none w => none ▸ Wave.wrV_zero w d f) acts

theorem issue_wrVV {d : Fin 128} {f : Fin 32 → DWord}
    (acts : body (execOf true s) (past true s) = (past true s).modW fun w => w.wrVV d (laneSet s) f) :
    issue { reads := reads, writes := writes } body s = .next ((past true s).modW fun w => w.wrVV d (laneSet s) f) :=
  issue_lane h within (fun none w => none ▸ Wave.wrVV_zero w d f) acts

theorem issue_wrP {d : Nat} {f : Fin 32 → Bool}
    (acts : body (execOf true s) (past true s) = (past true s).modW fun w => w.wrP d (laneSet s) f) :
    issue { reads := reads, writes := writes } body s = .next ((past true s).modW fun w => w.wrP d (laneSet s) f) :=
  issue_lane h within (fun none w => none ▸ Wave.wrP_zero w d f) acts

theorem issue_wrS {d : Fin 128} {x : Word} (acts : body (execOf false s) (past false s) = (past false s).wrS d x) :
    issue { reads := reads, writes := writes, perLane := false } body s = .next ((past false s).wrS d x) :=
  issue_group _ _ s h rfl within rfl rfl (absurd · Bool.false_ne_true) (absurd · Bool.false_ne_true) rfl _ acts
    (by simpa using stores_of_canIssue h) (by simp)

theorem issue_wrSS {d : Fin 128} {x : DWord} (acts : body (execOf false s) (past false s) = (past false s).wrSS d x) :
    issue { reads := reads, writes := writes, perLane := false } body s = .next ((past false s).wrSS d x) :=
  issue_group _ _ s h rfl within rfl rfl (absurd · Bool.false_ne_true) (absurd · Bool.false_ne_true) rfl _ acts
    (by simpa using stores_of_canIssue h) (by simp)

end forms

/-! ## Tables: a table holds where each instruction is its form with the value of its row -/

theorem laneTwo_of {t : List Two} (rows : ∀ e ∈ t, ∀ d a b s, exec (e.1 d a b) s = issue (lane3 d a b) (laneOp2 e.2 d a b) s) : LaneTwo t :=
  fun e he d a b s h within => (rows e he d a b s).trans (issue_wrV h within rfl)

theorem laneOne_of {t : List One} (rows : ∀ e ∈ t, ∀ d a s, exec (e.1 d a) s = issue (lane2 d a) (laneOp1 e.2 d a) s) : LaneOne t :=
  fun e he d a s h within => (rows e he d a s).trans (issue_wrV h within rfl)

theorem laneImm_of {t : List Imm}
    (rows : ∀ e ∈ t, ∀ d a i s, exec (e.1 d a i) s = issue (lane2 d a) (laneOp1 (e.2 · (imm9 i)) d a) s) : LaneImm t :=
  fun e he d a i s h within => (rows e he d a i s).trans (issue_wrV h within rfl)

/-- A form that reads its destination names it twice. -/
theorem within_lane3d {d a b : Fin 128} {s : State} (h : Within [.v a.val, .v b.val, .v d.val] s) :
    Within ((lane3d d a b).reads ++ (lane3d d a b).writes) s :=
  within_of_subset h (by simp [lane3d, vReg])

theorem laneThree_of {t : List Three}
    (rows : ∀ e ∈ t, ∀ d a b s, exec (e.1 d a b) s = issue (lane3d d a b) (laneOp3 e.2 d a b) s) : LaneThree t :=
  fun e he d a b s h within => (rows e he d a b s).trans (issue_wrV h (within_lane3d within) rfl)

theorem groupTwo_of {t : List Two} (rows : ∀ e ∈ t, ∀ d a b s, exec (e.1 d a b) s = issue (group3 d a b) (groupOp2 e.2 d a b) s) : GroupTwo t :=
  fun e he d a b s h => (rows e he d a b s).trans (issue_wrS h (within_group3 d a b s) rfl)

theorem groupOne_of {t : List One} (rows : ∀ e ∈ t, ∀ d a s, exec (e.1 d a) s = issue (group2 d a) (groupOp1 e.2 d a) s) : GroupOne t :=
  fun e he d a s h => (rows e he d a s).trans (issue_wrS h (within_group2 d a s) rfl)

theorem groupImm_of {t : List Imm}
    (rows : ∀ e ∈ t, ∀ d a i s, exec (e.1 d a i) s = issue (group2 d a) (groupOp1 (e.2 · (imm9 i)) d a) s) : GroupImm t :=
  fun e he d a i s h => (rows e he d a i s).trans (issue_wrS h (within_group2 d a s) rfl)

theorem groupThree_of {t : List Three}
    (rows : ∀ e ∈ t, ∀ d a b s, exec (e.1 d a b) s = issue (group3d d a b) (groupOp3 e.2 d a b) s) : GroupThree t :=
  fun e he d a b s h => (rows e he d a b s).trans (issue_wrS h (within_append (within_group3 b d a s) (within_sReg d s)) rfl)

end Sys2Proof.Proofs.IntegerAndLanes
end

section
namespace Sys2Proof.Proofs.IntegerAndLanes
open Sys2Proof Sys2Proof.Machine Sys2Proof.Claims Sys2Proof.Proofs.MachineState

/-! ## Integer arithmetic (R103) -/

/-- The natural clamp of a number that is not negative, and of a difference. -/
theorem clampNatural_natCast (n : Nat) : clampNatural n = BitVec.ofNat 32 (min n (2 ^ 32 - 1)) := by
  have clamp : max (0 : Int) (min (n : Int) (2 ^ 32 - 1)) = (min n (2 ^ 32 - 1) : Nat) := by omega
  rw [clampNatural, clamp, BitVec.ofInt_natCast]

theorem clampNatural_sub (a b : Word) : clampNatural (a.toNat - b.toNat) = BitVec.ofNat 32 (a.toNat - b.toNat) := by
  have clamp : max (0 : Int) (min ((a.toNat : Int) - b.toNat) (2 ^ 32 - 1)) = (a.toNat - b.toNat : Nat) := by omega
  rw [clampNatural, clamp, BitVec.ofInt_natCast]

/-- Bits 63:32 of a product, of signed and of natural numbers. -/
theorem mulHiN_eq (a b : Word) : mulHiN a b = upper (a.setWidth 64 * b.setWidth 64) := by
  have fits : a.toNat * b.toNat < 2 ^ 64 := by
    rw [show 2 ^ 64 = 2 ^ 32 * 2 ^ 32 from rfl]
    exact Nat.mul_lt_mul'' a.isLt b.isLt
  have product : (a.setWidth 64 * b.setWidth 64).toNat = a.toNat * b.toNat := by
    rw [BitVec.toNat_mul, BitVec.toNat_setWidth_of_le (by decide), BitVec.toNat_setWidth_of_le (by decide), Nat.mod_eq_of_lt fits]
  apply BitVec.eq_of_toNat_eq
  rw [mulHiN, upper, BitVec.toNat_ofNat, BitVec.toNat_setWidth, BitVec.toNat_ushiftRight, product, Nat.shiftRight_eq_div_pow]

theorem mulHiI_eq (a b : Word) : mulHiI a b = upper (a.signExtend 64 * b.signExtend 64) := by
  have product : BitVec.ofInt 64 (a.toInt * b.toInt) = a.signExtend 64 * b.signExtend 64 := by
    rw [BitVec.ofInt_mul, BitVec.signExtend, BitVec.signExtend]
  rw [upper, ← product]
  apply BitVec.eq_of_toNat_eq
  rw [mulHiI, BitVec.toNat_ofInt, BitVec.toNat_setWidth, BitVec.toNat_ushiftRight, BitVec.toNat_ofInt, Nat.shiftRight_eq_div_pow]
  omega

/-- The table of R103 by the machine's operations. -/
theorem arithTable_eq (add addI addN sub subI subN mul mulI mulN min minN' max maxN' : Fin 128 → Fin 128 → Fin 128 → Instr) :
    arithTable add addI addN sub subI subN mul mulI mulN min minN' max maxN' =
      [(add, addOp), (addI, addSatI), (addN, addSatN), (sub, subOp), (subI, subSatI), (subN, subSatN), (mul, mulLo), (mulI, mulHiI),
        (mulN, mulHiN), (min, minI), (minN', minN), (max, maxI), (maxN', maxN)] := by
  have sumN : addSatN = fun a b => BitVec.ofNat 32 (Min.min (a.toNat + b.toNat) (2 ^ 32 - 1)) :=
    funext₂ fun a b => clampNatural_natCast (a.toNat + b.toNat)
  have differenceN : subSatN = fun a b => BitVec.ofNat 32 (a.toNat - b.toNat) := funext₂ clampNatural_sub
  have upperI : mulHiI = fun a b => upper (a.signExtend 64 * b.signExtend 64) := funext₂ mulHiI_eq
  have upperN : mulHiN = fun a b => upper (a.setWidth 64 * b.setWidth 64) := funext₂ mulHiN_eq
  have least : minI = fun a b => if a.sle b then a else b := by
    funext a b
    simp [minI, BitVec.sle]
  have greatest : maxI = fun a b => if b.sle a then a else b := by
    funext a b
    simp [maxI, BitVec.sle]
  rw [sumN, differenceN, upperI, upperN, least, greatest]
  rfl

/-- R103, by the rows of its table. -/
theorem integerArithmetic : IntegerArithmetic := by
  refine ⟨?_, ?_, laneThree_of ?_, groupThree_of ?_⟩
  · rw [arithTable_eq]
    apply laneTwo_of
    simp only [List.forall_mem_cons, List.not_mem_nil, false_imp_iff, implies_true, and_true]
    and_intros <;> exact fun _ _ _ _ => rfl
  · rw [arithTable_eq]
    apply groupTwo_of
    simp only [List.forall_mem_cons, List.not_mem_nil, false_imp_iff, implies_true, and_true]
    and_intros <;> exact fun _ _ _ _ => rfl
  · exact List.forall_mem_singleton.mpr fun _ _ _ _ => rfl
  · exact List.forall_mem_singleton.mpr fun _ _ _ _ => rfl

/-! ## Bits of a word's number -/

theorem bitsOf_toNat {v : Nat} (x : BitVec v) (lo n : Nat) : bitsOf x.toNat lo n = ((x >>> lo).setWidth n).toNat := by
  rw [bitsOf, BitVec.toNat_setWidth, BitVec.toNat_ushiftRight, Nat.shiftRight_eq_div_pow]

theorem bitsOf_low {v : Nat} (x : BitVec v) (n : Nat) : bitsOf x.toNat 0 n = (x.setWidth n).toNat := by
  rw [bitsOf_toNat, BitVec.ushiftRight_zero]

theorem testBit_toNat {v : Nat} (x : BitVec v) (i : Nat) : testBit x.toNat i = x.getLsbD i := by
  rw [← BitVec.testBit_toNat, Nat.testBit_eq_decide_div_mod_eq]
  rfl

/-! ## Logic and shifts (R104, R105) -/

theorem shiftCount_eq (b : Word) : shiftCount b = count b := bitsOf_low b 8

/-- An arithmetic shift by 32 and more leaves copies of bit 31, as one by 31 does. -/
theorem sshiftRight_min (a : Word) (n : Nat) : a.sshiftRight n = a.sshiftRight (min n 31) := by
  rcases Nat.le_total n 31 with small | large
  · rw [Nat.min_eq_left small]
  · rw [Nat.min_eq_right large]
    apply BitVec.eq_of_getLsbD_eq
    intro i hi
    rw [BitVec.getLsbD_sshiftRight, BitVec.getLsbD_sshiftRight, BitVec.msb_eq_getLsbD_last]
    split_ifs <;> grind

/-- The table of R105 by the machine's operations. -/
theorem logicTable_eq (and or xor andn shl shr sar rot : Fin 128 → Fin 128 → Fin 128 → Instr) :
    logicTable and or xor andn shl shr sar rot =
      [(and, andOp), (or, orOp), (xor, xorOp), (andn, andnOp), (shl, shlOp), (shr, shrOp), (sar, sarOp), (rot, rotOp)] := by
  have left : shlOp = fun a b : Word => if 32 ≤ count b then 0 else a <<< count b := by
    funext a b
    rw [shlOp, shiftCount_eq]
    split
    case isTrue beyond => exact BitVec.shiftLeft_eq_zero beyond
    case isFalse => rfl
  have right : shrOp = fun a b : Word => if 32 ≤ count b then 0 else a >>> count b := by
    funext a b
    rw [shrOp, shiftCount_eq]
    split
    case isTrue beyond => exact BitVec.ushiftRight_eq_zero beyond
    case isFalse => rfl
  have arithmetic : sarOp = fun a b => a.sshiftRight (min (count b) 31) := by
    funext a b
    rw [sarOp, shiftCount_eq, sshiftRight_min]
  have rotate : rotOp = fun a b => a.rotateLeft (count b % 32) := by
    funext a b
    rw [rotOp, shiftCount_eq]
  rw [left, right, arithmetic, rotate]
  rfl

/-- The shift count of a well-formed immediate is the immediate (R104). -/
theorem shiftCount_imm9 (i : BitVec 9) (h : i.toNat < 32) : shiftCount (imm9 i) = i.toNat := by
  have positive : i.msb = false := BitVec.msb_eq_false_iff_two_mul_lt.mpr (by omega)
  have value : (imm9 i).toNat = i.toNat := by
    rw [imm9, BitVec.signExtend_eq_setWidth_of_msb_false positive, BitVec.toNat_setWidth_of_le (by decide)]
  rw [shiftCount, value, bitsOf]
  omega

/-- Each row of the shifts of R104 shifts by the count that its immediate holds. -/
theorem shiftTable_rows : ∀ e ∈ shiftTable, ∀ d a i s,
    exec (e.1 d a i) s = issue (lane2 d a) (laneOp1 (e.2.2 · (shiftCount (imm9 i))) d a) s ∧
    exec (e.2.1 d a i) s = issue (group2 d a) (groupOp1 (e.2.2 · (shiftCount (imm9 i))) d a) s := by
  simp only [shiftTable, List.forall_mem_cons, List.not_mem_nil, false_imp_iff, implies_true, and_true]
  exact ⟨fun _ _ _ _ => ⟨rfl, rfl⟩, fun _ _ _ _ => ⟨rfl, rfl⟩, fun _ _ _ _ => ⟨rfl, rfl⟩⟩

theorem shiftTable_refused : ∀ e ∈ shiftTable, ∀ d a i, 32 ≤ i.toNat → (e.1 d a i).check ≠ none ∧ (e.2.1 d a i).check ≠ none := by
  have refused (i : BitVec 9) (h : 32 ≤ i.toNat) : limit (i.toNat < 32) .fieldRange none ≠ none := by
    simp [limit, h]
  simp only [shiftTable, List.forall_mem_cons, List.not_mem_nil, false_imp_iff, implies_true, and_true]
  exact ⟨fun _ _ i h => ⟨refused i h, refused i h⟩, fun _ _ i h => ⟨refused i h, refused i h⟩, fun _ _ i h => ⟨refused i h, refused i h⟩⟩

/-- R104 and R105, by the rows of their tables. -/
theorem logicShiftsAndImmediates : LogicShiftsAndImmediates := by
  refine ⟨?_, ?_, laneImm_of ?_, groupImm_of ?_, fun e he d a i small => ⟨fun s h within => ?_, fun s h => ?_⟩, shiftTable_refused⟩
  · rw [logicTable_eq]
    apply laneTwo_of
    simp only [List.forall_mem_cons, List.not_mem_nil, false_imp_iff, implies_true, and_true]
    and_intros <;> exact fun _ _ _ _ => rfl
  · rw [logicTable_eq]
    apply groupTwo_of
    simp only [List.forall_mem_cons, List.not_mem_nil, false_imp_iff, implies_true, and_true]
    and_intros <;> exact fun _ _ _ _ => rfl
  · simp only [immTable, List.forall_mem_cons, List.not_mem_nil, false_imp_iff, implies_true, and_true]
    and_intros <;> exact fun _ _ _ _ => rfl
  · simp only [immTable, List.forall_mem_cons, List.not_mem_nil, false_imp_iff, implies_true, and_true]
    and_intros <;> exact fun _ _ _ _ => rfl
  · rw [(shiftTable_rows e he d a i s).1, shiftCount_imm9 i small]
    exact issue_wrV h within rfl
  · rw [(shiftTable_rows e he d a i s).2, shiftCount_imm9 i small]
    exact issue_wrS h (within_group2 d a s) rfl

/-- Settles O1: the tables of R103 and R105 are the machine's operations (`arithTable_eq`, `logicTable_eq`), and each instruction is the form of its
row. -/
theorem integerAndLogic : Obligations.IntegerAndLogic := ⟨integerArithmetic, logicShiftsAndImmediates⟩

end Sys2Proof.Proofs.IntegerAndLanes
end

section
/-! Bit counts, fields, pairs, constants and moves (R106 to R110, R117). -/
namespace Sys2Proof.Proofs.IntegerAndLanes
open Sys2Proof Sys2Proof.Machine Sys2Proof.Claims Sys2Proof.Proofs.MachineState Sys2Proof.Proofs.CodesAndHandlers

/-! ## Bit counts (R106) -/

theorem range_lanes : List.range 32 = laneList.map Fin.val := rfl

theorem popMask_eq (m : Mask) : popMask m = laneList.countP (bit m) := List.countP_eq_length_filter.symm

theorem popMask_eq_countP (m : Mask) : popMask m = (List.range 32).countP fun i => m.getLsbD i := by
  rw [popMask_eq, range_lanes, List.countP_map]
  rfl

/-- How far a test holds from 0 on. -/
theorem length_takeWhile_range {n k : Nat} {p : Nat → Bool} (within : k ≤ n) (holds : ∀ i < k, p i = true) (stops : k < n → p k = false) :
    ((List.range n).takeWhile p).length = k := by
  obtain ⟨m, rfl⟩ := Nat.exists_eq_add_of_le within
  rw [List.range_add, List.takeWhile_append_of_pos fun i hi => holds i (List.mem_range.mp hi)]
  cases m with
  | zero => simp
  | succ m =>
    have stop : p k = false := stops (by omega)
    simp [List.range_succ_eq_map, stop]

theorem clzOp_eq (a : Word) : clzOp a = BitVec.ofNat 32 ((List.range 32).takeWhile fun i => !a.getLsbD (31 - i)).length := by
  by_cases zero : a = 0
  · subst zero
    decide
  have nonzero : a.toNat ≠ 0 := fun e => zero (BitVec.eq_of_toNat_eq e)
  have top : a.toNat.log2 < 32 := (Nat.log2_lt nonzero).mpr a.isLt
  rw [clzOp, if_neg zero, length_takeWhile_range (k := 31 - a.toNat.log2) (by omega)]
  · intro i hi
    have above : a.toNat < 2 ^ (31 - i) := (Nat.log2_lt nonzero).mp (by omega)
    rw [← BitVec.testBit_toNat, Nat.testBit_lt_two_pow above]
    rfl
  · intro _
    rw [show 31 - (31 - a.toNat.log2) = a.toNat.log2 by omega, ← BitVec.testBit_toNat, Nat.testBit_log2 nonzero]
    rfl

theorem lowest_none {m : Mask} (h : lowest m = none) (l : Fin 32) : bit m l = false := by
  have empty : lanesOf m = [] := List.head?_eq_none_iff.mp h
  simpa [empty] using mem_lanesOf m l

theorem lowest_some {m : Mask} {l : Fin 32} (h : lowest m = some l) : bit m l = true ∧ ∀ j < l, bit m j = false := by
  obtain ⟨t, split⟩ := List.head?_eq_some_iff.mp h
  have sorted := lanesOf_sorted m
  rw [split] at sorted
  refine ⟨(mem_lanesOf m l).mp (split ▸ List.mem_cons_self), fun j below => Bool.eq_false_iff.mpr fun member => ?_⟩
  rcases List.mem_cons.mp (split ▸ (mem_lanesOf m j).mpr member) with rfl | later
  · exact lt_irrefl _ below
  · exact lt_asymm below ((List.pairwise_cons.mp sorted).1 j later)

theorem ctzOp_eq (a : Word) : ctzOp a = BitVec.ofNat 32 ((List.range 32).takeWhile fun i => !a.getLsbD i).length := by
  unfold ctzOp
  cases low : lowest a with
  | none =>
    have clear (i : Nat) (hi : i < 32) : (!a.getLsbD i) = true := by
      rw [show a.getLsbD i = false from lowest_none low ⟨i, hi⟩]
      rfl
    rw [length_takeWhile_range (le_refl _) clear fun h => absurd h (lt_irrefl _)]
    rfl
  | some l =>
    obtain ⟨set, below⟩ := lowest_some low
    rw [length_takeWhile_range (k := l.val) l.isLt.le ?_ ?_]
    · intro i hi
      have clear : a.getLsbD i = false := below ⟨i, by omega⟩ hi
      rw [clear]
      rfl
    · intro _
      rw [show a.getLsbD l.val = true from set]
      rfl

theorem brevOp_eq (a : Word) : brevOp a = a.reverse := by
  refine mask_ext _ _ fun l => ?_
  rw [brevOp, bit_maskOf, bit, bit, BitVec.getLsbD_reverse, BitVec.getMsbD_eq_getLsbD]
  simp

/-- The table of R106 by the machine's operations. -/
theorem bitTable_eq (popc clz ctz brev : Fin 128 → Fin 128 → Instr) :
    bitTable popc clz ctz brev = [(popc, popcOp), (clz, clzOp), (ctz, ctzOp), (brev, brevOp)] := by
  have ones : popcOp = fun a => BitVec.ofNat 32 ((List.range 32).countP fun i => a.getLsbD i) :=
    funext fun a => congrArg (BitVec.ofNat 32) (popMask_eq_countP a)
  rw [ones, funext clzOp_eq, funext ctzOp_eq, funext brevOp_eq]
  rfl

/-! ## Fields (R107, R108) -/

theorem fieldPos_eq (b : Word) : fieldPos b = pos b := bitsOf_low b 5

theorem fieldWidth_eq (b : Word) : fieldWidth b = width b := by
  rw [fieldWidth, fieldPos_eq, bitsOf_toNat]
  rfl

theorem bfeN_eq (a b : Word) : bfeN a b = ((a >>> pos b).setWidth (width b)).setWidth 32 := by
  rw [bfeN, fieldPos_eq, fieldWidth_eq, bitsOf_toNat, BitVec.ofNat_toNat]

/-- A field read as a signed number of its own width. -/
theorem signed_eq_signExtend {w : Nat} (x : BitVec w) :
    (if w ≠ 0 ∧ testBit x.toNat (w - 1) then BitVec.ofInt 32 ((x.toNat : Int) - 2 ^ w) else BitVec.ofNat 32 x.toNat) = x.signExtend 32 := by
  have sign : (w ≠ 0 ∧ testBit x.toNat (w - 1) = true) ↔ x.msb = true := by
    rw [testBit_toNat, BitVec.msb_eq_getLsbD_last]
    refine and_iff_right_of_imp fun set positive => ?_
    subst positive
    simp at set
  rw [BitVec.signExtend, BitVec.toInt_eq_msb_cond]
  simp only [sign]
  split <;> simp

theorem bfeI_eq (a b : Word) : bfeI a b = ((a >>> pos b).setWidth (width b)).signExtend 32 := by
  rw [← signed_eq_signExtend, bfeI, fieldPos_eq, fieldWidth_eq, bitsOf_toNat]

/-- Bit i of a mask of w ones from bit p on. -/
theorem getLsbD_ones (p w i : Nat) (hi : i < 32) : (BitVec.ofNat 32 ((2 ^ w - 1) * 2 ^ p)).getLsbD i = decide (p ≤ i ∧ i < p + w) := by
  rw [BitVec.getLsbD_ofNat, Nat.testBit_mul_two_pow, Nat.testBit_two_pow_sub_one, Bool.eq_iff_iff]
  simp only [hi, decide_true, Bool.true_and, Bool.and_eq_true, decide_eq_true_eq]
  omega

theorem bfiOp_eq (d a b : Word) : bfiOp d a b = insertField d a b := by
  refine mask_ext _ _ fun l => ?_
  have field : pos b ≤ l.val ∧ l.val < pos b + width b ↔ pos b ≤ l.val ∧ l.val < top b := by
    unfold width
    omega
  rw [bfiOp, insertField, bit_maskOf, fieldPos_eq, fieldWidth_eq]
  simp only [bit, BitVec.getLsbD_or, BitVec.getLsbD_and, BitVec.getLsbD_not, BitVec.getLsbD_shiftLeft, getLsbD_ones _ _ _ l.isLt, field]
  by_cases inside : pos b ≤ l.val ∧ l.val < top b
  · simp [inside, Nat.not_lt.mpr inside.1]
  · simp [inside]

/-- The table of R107 by the machine's operations. -/
theorem fieldTable_eq (n i : Fin 128 → Fin 128 → Fin 128 → Instr) : fieldTable n i = [(n, bfeN), (i, bfeI)] := by
  rw [funext₂ bfeN_eq, funext₂ bfeI_eq]
  rfl

/-- R106, R107 and R108, by the rows of their tables. -/
theorem bitCountsAndFields : BitCountsAndFields := by
  have insert : insertField = bfiOp := (funext fun d => funext₂ (bfiOp_eq d)).symm
  refine ⟨?_, ?_, ?_, ?_, laneThree_of ?_, groupThree_of ?_⟩
  · rw [bitTable_eq]
    apply laneOne_of
    simp only [List.forall_mem_cons, List.not_mem_nil, false_imp_iff, implies_true, and_true]
    and_intros <;> exact fun _ _ _ => rfl
  · rw [bitTable_eq]
    apply groupOne_of
    simp only [List.forall_mem_cons, List.not_mem_nil, false_imp_iff, implies_true, and_true]
    and_intros <;> exact fun _ _ _ => rfl
  · rw [fieldTable_eq]
    apply laneTwo_of
    simp only [List.forall_mem_cons, List.not_mem_nil, false_imp_iff, implies_true, and_true]
    and_intros <;> exact fun _ _ _ _ => rfl
  · rw [fieldTable_eq]
    apply groupTwo_of
    simp only [List.forall_mem_cons, List.not_mem_nil, false_imp_iff, implies_true, and_true]
    and_intros <;> exact fun _ _ _ _ => rfl
  · rw [insert]
    exact List.forall_mem_singleton.mpr fun _ _ _ _ => rfl
  · rw [insert]
    exact List.forall_mem_singleton.mpr fun _ _ _ _ => rfl

/-! ## Pairs, constants and moves (R109, R110, R117) -/

/-- A constant replaces one half of a register (R110). -/
theorem constLow_eq (d : Word) (i : BitVec 16) : constLow d i = d.extractLsb' 16 16 ++ i := by
  have upperHalf : (0xFFFF0000 : Word) = BitVec.allOnes 16 ++ (0 : BitVec 16) := rfl
  apply BitVec.eq_of_getLsbD_eq
  intro k hk
  rw [constLow, upperHalf]
  simp only [BitVec.getLsbD_or, BitVec.getLsbD_and, BitVec.getLsbD_append, BitVec.getLsbD_setWidth, BitVec.getLsbD_extractLsb',
    BitVec.getLsbD_allOnes]
  by_cases low : k < 16
  · simp [low, hk]
  · simp [low, show k - 16 < 16 by omega, show 16 + (k - 16) = k by omega, BitVec.getLsbD_of_ge i k (by omega)]

theorem constHigh_eq (d : Word) (i : BitVec 16) : constHigh d i = i ++ d.extractLsb' 0 16 := by
  have lowerHalf : ((65535 : Nat) : Word) = (0 : BitVec 16) ++ BitVec.allOnes 16 := rfl
  apply BitVec.eq_of_getLsbD_eq
  intro k hk
  rw [constHigh, lowerHalf]
  simp only [BitVec.getLsbD_or, BitVec.getLsbD_and, BitVec.getLsbD_append, BitVec.getLsbD_shiftLeft, BitVec.getLsbD_setWidth,
    BitVec.getLsbD_extractLsb', BitVec.getLsbD_allOnes]
  by_cases low : k < 16
  · simp [low]
  · simp [low, hk, show k - 16 < 32 by omega]

theorem lanePair2_past (f : DWord → DWord → DWord) (d a b : Fin 128) (s : State) : lanePair2 f d a b (execOf true s) (past true s) =
    (past true s).modW fun w => w.wrVV d (laneSet s) fun l => f (s.w.rdVV a l) (s.w.rdVV b l) := by
  refine (modW_reads (past true s) fun r w => w.wrVV d (laneSet s) fun l => f (r.rdVV a l) (r.rdVV b l)).trans ?_
  simp only [past_rdVV]

theorem lanePair1_past (f : DWord → DWord) (d a : Fin 128) (s : State) : lanePair1 f d a (execOf true s) (past true s) =
    (past true s).modW fun w => w.wrVV d (laneSet s) fun l => f (s.w.rdVV a l) := by
  refine (modW_reads (past true s) fun r w => w.wrVV d (laneSet s) fun l => f (r.rdVV a l)).trans ?_
  simp only [past_rdVV]

/-- R109, R110 and R117. -/
theorem pairsConstantsAndMoves : PairsConstantsAndMoves := by
  refine ⟨?_, fun d i s h => ?_, laneOne_of ?_, groupOne_of ?_, fun d a s h => ⟨fun within => ?_, ?_, fun within => ?_⟩⟩
  · exact List.forall_mem_cons.mpr ⟨fun d a b s h => ⟨fun within => issue_wrVV h within (lanePair2_past _ d a b s),
        issue_wrSS h (within_group3Pair d a b s) rfl⟩, List.forall_mem_singleton.mpr fun d a b s h =>
      ⟨fun within => issue_wrVV h within (lanePair2_past _ d a b s), issue_wrSS h (within_group3Pair d a b s) rfl⟩⟩
  · rw [← constLow_eq, ← constHigh_eq]
    exact ⟨issue_wrS h (within_group2 d d s) rfl, issue_wrS h (within_group2 d d s) rfl⟩
  · exact List.forall_mem_singleton.mpr fun _ _ _ => rfl
  · exact List.forall_mem_singleton.mpr fun _ _ _ => rfl
  · exact issue_wrVV h within (lanePair1_past id d a s)
  · exact issue_wrSS h (within_append (within_sPair a s) (within_sPair d s)) rfl
  · exact issue_wrV h (within_append (within_sReg a s) within) rfl

/-- Settles O2: the tables of R106 and R107 are the machine's operations (`bitTable_eq`, `fieldTable_eq`), the insert of R108 is bit for bit
(`bfiOp_eq`), and pairs, constants and moves write their one destination. -/
theorem bitsAndMoves : Obligations.BitsAndMoves := ⟨bitCountsAndFields, pairsConstantsAndMoves⟩

end Sys2Proof.Proofs.IntegerAndLanes
end

section
/-! Compares, selects, the byte permute and the nibble lookup (R111 to R116). -/
namespace Sys2Proof.Proofs.IntegerAndLanes
open Sys2Proof Sys2Proof.Machine Sys2Proof.Claims Sys2Proof.Proofs.MachineState

/-! ## Compares (R111, R112) -/

/-- The bits of a word below its sign. -/
theorem toNat_magnitude (x : Word) : (x &&& 0x7FFFFFFF).toNat = x.toNat % 2 ^ 31 :=
  (BitVec.toNat_and _ _).trans (Nat.and_two_pow_sub_one_eq_mod x.toNat 31)

theorem nan32_eq (x : Word) : nan32 x = isNaN x := by
  have above : x.toNat % 2 ^ 31 > 0x7F800000 ↔ (0x7F800000 : Word) < (x &&& 0x7FFFFFFF) := by
    rw [BitVec.lt_def, toNat_magnitude]
    rfl
  exact decide_eq_decide.mpr above

theorem numKey_eq (x : Word) : numKey x = place x := by
  rw [numKey, place, testBit_toNat, toNat_magnitude, BitVec.msb_eq_getLsbD_last]

/-- The relations of R111, in both sets, by the machine's operations. -/
theorem relations_eq (eq ne ltI ltN leI leN eqF neF ltF leF : Fin 128 → Fin 128 → Fin 128 → Instr) :
    wordRelations eq ne ltI ltN leI leN ++ floatRelations eqF neF ltF leF =
      [(eq, eqB32), (ne, neB32), (ltI, ltI32), (ltN, ltN32), (leI, leI32), (leN, leN32), (eqF, eqF32), (neF, neF32), (ltF, ltF32),
        (leF, leF32)] := by
  have same : eqB32 = fun a b => decide (a = b) := funext₂ fun a b => Bool.beq_eq_decide_eq a b
  have differs : neB32 = fun a b => decide (a ≠ b) := by
    funext a b
    simp [neB32, bne, Bool.beq_eq_decide_eq]
  have sameF : eqF32 = fun a b => !isNaN a && !isNaN b && decide (place a = place b) := by
    funext a b
    rw [eqF32, nan32_eq, nan32_eq, numKey_eq, numKey_eq, Bool.not_or, Bool.beq_eq_decide_eq]
  have differsF : neF32 = fun a b => isNaN a || isNaN b || decide (place a ≠ place b) := by
    funext a b
    rw [neF32, sameF]
    simp
  have lessF : ltF32 = fun a b => !isNaN a && !isNaN b && decide (place a < place b) := by
    funext a b
    rw [ltF32, nan32_eq, nan32_eq, numKey_eq, numKey_eq, Bool.not_or]
  have leastF : leF32 = fun a b => !isNaN a && !isNaN b && decide (place a ≤ place b) := by
    funext a b
    rw [leF32, nan32_eq, nan32_eq, numKey_eq, numKey_eq, Bool.not_or]
  rw [same, differs, sameF, differsF, lessF, leastF]
  rfl

theorem laneRelations_rows : ∀ e ∈ laneRelations, ∀ d a b s, exec (e.1 d a b) s = issue (cmpSig d a b) (laneCmp e.2 d a b) s := by
  rw [laneRelations, relations_eq]
  simp only [List.forall_mem_cons, List.not_mem_nil, false_imp_iff, implies_true, and_true]
  and_intros <;> exact fun _ _ _ _ => rfl

theorem groupRelations_rows : ∀ e ∈ groupRelations, ∀ d a b s, exec (e.1 d a b) s = issue (group3 d a b) (groupCmp e.2 d a b) s := by
  rw [groupRelations, relations_eq]
  simp only [List.forall_mem_cons, List.not_mem_nil, false_imp_iff, implies_true, and_true]
  and_intros <;> exact fun _ _ _ _ => rfl

/-- R111 and R112, by the rows of their tables. -/
theorem compares : Compares := by
  refine ⟨fun e he d a b s h within _ => ?_, fun e he d a b s h => ?_, fun d a i s h => ⟨?_, ?_⟩⟩
  · rw [laneRelations_rows e he d a b s]
    exact issue_wrP h (within_append within (within_pReg d.val s)) rfl
  · rw [groupRelations_rows e he d a b s]
    exact issue_wrS h (within_group3 d a b s) rfl
  · have equal : boolWord (eqB32 (s.rdS a) (i.signExtend 32)) = if s.rdS a = i.signExtend 32 then 1 else 0 := by
      simp [boolWord, eqB32]
    rw [← equal]
    exact issue_wrS h (within_group2 d a s) rfl
  · exact issue_wrS h (within_group2 d a s) rfl

/-! ## Selects and lookups (R113 to R116) -/

theorem toNat_append_eq {v w : Nat} (x : BitVec v) (y : BitVec w) : (x ++ y).toNat = x.toNat * 2 ^ w + y.toNat := by
  rw [BitVec.toNat_append, ← Nat.shiftLeft_add_eq_or_of_lt y.isLt, Nat.shiftLeft_eq]

/-- A word from its bytes (R115). -/
theorem wordFrom_toNat (f : Nat → BitVec 8) : wordFrom (fun j => (f j).toNat) = ofBytes f := by
  apply BitVec.eq_of_toNat_eq
  rw [wordFrom, ofBytes, toNat_append_eq, toNat_append_eq, toNat_append_eq, BitVec.toNat_ofNat]
  omega

theorem byteOf_eq (x : Word) (i : Nat) : byteOf x i = (byte x i).toNat := bitsOf_toNat x (8 * i) 8

/-- perm.b8 (R115) byte by byte. -/
theorem permOp_eq (sel a b : Word) : permOp sel a b = permute sel a b := by
  rw [permute, ← wordFrom_toNat, permOp]
  congr 1
  funext j
  have index : (byte sel j).toNat % 4 = ((byte sel j).setWidth 2).toNat := (BitVec.toNat_setWidth 2 _).symm
  have source : (if (byte sel j).getLsbD 2 then (byte b ((byte sel j).setWidth 2).toNat).toNat else (byte a ((byte sel j).setWidth 2).toNat).toNat) =
      (byte (if (byte sel j).getLsbD 2 then b else a) ((byte sel j).setWidth 2).toNat).toNat := by
    split <;> rfl
  simp only [byteOf_eq, index, testBit_toNat, source]
  split_ifs <;> rfl

/-- lut.n4 (R116) in a lane. -/
theorem lutLanes_past (d a b : Fin 128) (s : State) : lutLanes d a b (execOf true s) (past true s) =
    (past true s).modW fun w => w.wrV d (laneSet s) fun l => ofBytes fun j =>
      let t := ((byte (s.w.rdV b l) j).setWidth 4).toNat
      byte (s.w.rdV (Fin.ofNat 128 (a.val + t / 4)) l) (t % 4) := by
  have index (x : Word) (j : Nat) : byteOf x j % 16 = ((byte x j).setWidth 4).toNat := by
    rw [byteOf_eq, BitVec.toNat_setWidth]
  simp only [← wordFrom_toNat, ← byteOf_eq, ← index]
  rfl

/-- R113 to R116. -/
theorem selectsAndLookups : SelectsAndLookups := by
  refine ⟨fun d a b p s h within => ?_, groupThree_of ?_, laneThree_of ?_, fun d a b s h _ within => ?_⟩
  · have sources : Within (vReg a ++ vReg b ++ pReg p.val) s :=
      within_append (within_of_subset within (by simp [vReg])) (within_pReg p.val s)
    exact issue_wrV h (within_append sources (within_of_subset within (by simp [vReg]))) rfl
  · exact List.forall_mem_singleton.mpr fun _ _ _ _ => rfl
  · rw [show permute = permOp from (funext fun d => funext₂ (permOp_eq d)).symm]
    exact List.forall_mem_singleton.mpr fun _ _ _ _ => rfl
  · exact issue_wrV h (within_of_subset within (by simp [vSpan, vReg, List.range_succ])) (lutLanes_past d a b s)

/-- Settles O3: the relations of R111 are the machine's (`relations_eq`), the permute and the lookup agree with R115 and R116 byte by byte. -/
theorem comparesSelectsAndLookups : Obligations.ComparesSelectsAndLookups := ⟨compares, selectsAndLookups⟩

end Sys2Proof.Proofs.IntegerAndLanes
end

section
/-! Moves between the register sets, tests of predicates and the exchange between lanes (R118 to R124, R146). -/
namespace Sys2Proof.Proofs.IntegerAndLanes
open Sys2Proof Sys2Proof.Machine Sys2Proof.Claims Sys2Proof.Proofs.MachineState

/-! ## Sources of other lanes (R119) -/

/-- Nothing pending for the lanes of a mask has a settled register as its destination, so an effect on it does not wait (R118, R119). -/
theorem whenClear_settled {r : Reg} {holds : Fin 32 → Prop} {s : State} (settled : Settled r holds s) {m : Mask}
    (lanes : ∀ l, bit m l = true → holds l) (k : Bool) (body : Exec → State → State) (x : Exec) :
    whenClear [r] m body x (past k s) = body x (past k s) := by
  have clear : clearOf [r] m (past k s) = true := by
    rw [clearOf, Bool.not_eq_true', List.any_eq_false]
    intro p hp waits
    obtain ⟨touches, dest⟩ := Bool.and_eq_true_iff.mp waits
    have names : r ∈ p.dests := by simpa using dest
    have apart : p.lanes &&& m = 0 := mask_ext _ _ fun l => by
      rw [bit_and]
      cases member : bit m l with
      | false => simp
      | true => simp [settled p hp names l (lanes l member)]
    simp [Pending.touches, apart] at touches
  rw [whenClear, clear, if_pos rfl]

theorem bit_oneLane (l j : Fin 32) : bit (oneLane l) j = decide (j = l) := by
  simp [bit, oneLane, Fin.ext_iff, eq_comm]

/-! ## Moves between the register sets (R118, R122, R146) -/

/-- A long-latency instruction of the group set that accesses no memory delivers its results (R55, R56). -/
theorem deliver_once {g : Sig} {s : State} (h : CanIssue s) (plain : g.kind = .plain) (space : g.space = 0) (ws : List RegWrite) :
    deliver g (execOf false s) ws [] (past false s) = delivered g.lookahead g.writes ws s.iss.run g.ordered s (past false s) := by
  obtain ⟨-, -, replay, -, -⟩ := h
  have replayed : (past false s).iss.replay = none := replay
  have restarts : notRestarted g [] = false := by simp [notRestarted]
  have performed : (g.reach.filter fun r => (faultOf [] r.1).isSome) = [] := by simp [faultOf]
  unfold deliver delivered deliveredAs
  rw [replayed, restarts, performed, plain, space]
  by_cases now : g.lookahead = 0
  · simp [now]
  · simp [now, State.here, execOf]
    rfl

/-- The signature of a long-latency instruction of the group set. -/
def longSig (reads writes : List Reg) (look : Nat) : Sig :=
  { reads := reads, writes := writes, perLane := false, long := true, lookahead := look }

/-- A long-latency instruction of the group set that delivers its results. -/
theorem issue_longSig {reads writes : List Reg} {look : Nat} {body : Exec → State → State} {s : State} {ws : List RegWrite} (h : CanIssue s)
    (within : Within (reads ++ writes) s)
    (acts : body (execOf false s) (past false s) = deliver (longSig reads writes look) (execOf false s) ws [] (past false s)) :
    issue (longSig reads writes look) body s = .next (delivered look writes ws s.iss.run false s (past false s)) :=
  issue_group _ _ s h rfl within rfl rfl (absurd · Bool.false_ne_true) (absurd · Bool.false_ne_true) rfl _
    (acts.trans (deliver_once h rfl rfl ws)) ((deliveredAs_frame ..).2.trans (stores_of_canIssue (s := s) h)) (deliveredAs_frame ..).1

theorem exec_rdlane {d a : Fin 128} {l : Fin 32} {k : Fin 16} {s : State} (h : CanIssue s) (within : Within (vReg a) s)
    (settled : Settled (.v a.val) (· = l) s) : exec (.rdlane d a l k) s =
      .next (delivered k.val [.s d.val] [.s d (seen s.w a l)] s.iss.run false s (past false s)) :=
  issue_longSig h (within_append within (within_sReg d s))
    (whenClear_settled settled (fun j hj => by simpa [bit_oneLane] using hj) _ _ _)

theorem exec_wrlane {d a : Fin 128} {l : Fin 32} {s : State} (h : CanIssue s) (within : Within (vReg d) s)
    (settled : Settled (.v d.val) (· = l) s) : exec (.wrlane d a l) s = .next (if s.w.st[l] = .inactive then past false s
      else (past false s).modW fun w => w.wrV d (BitVec.twoPow 32 l.val) fun _ => s.rdS a) := by
  have lane : ∀ j, bit (oneLane l) j = true → j = l := fun j hj => by simpa [bit_oneLane] using hj
  refine issue_group _ _ s h rfl (within_append (within_sReg a s) within) rfl rfl (absurd · Bool.false_ne_true) (absurd · Bool.false_ne_true)
    rfl _ ((whenClear_settled settled lane _ _ _).trans ?_) ?_ ?_
  · refine (modW_reads (past false s) fun r w => if r.st[l] = .inactive then w else w.wrV d (oneLane l) fun _ => (past false s).rdS a).trans ?_
    by_cases inactive : s.w.st[l] = .inactive
    · have state : (past false s).w.st[l] = .inactive := inactive
      simp only [inactive, state, if_true]
      rfl
    · have state : (past false s).w.st[l] ≠ .inactive := inactive
      simp only [inactive, state, if_false]
      rfl
  · split <;> exact stores_of_canIssue (s := s) h
  · split <;> rfl

/-- The lanes of a mask that a test holds for. -/
theorem length_filter_lanesOf (m : Mask) (f : Fin 32 → Bool) : ((lanesOf m).filter f).length = laneList.countP fun l => bit m l && f l := by
  rw [lanesOf, List.filter_filter, List.countP_eq_length_filter]
  simp only [Bool.and_comm]

theorem exec_votec {d : Fin 128} {p : Fin 8} {k : Fin 16} {s : State} (h : CanIssue s) : exec (.votec d p k) s =
    .next (delivered k.val [.s d.val] [.s d (BitVec.ofNat 32 (laneList.countP fun l => bit s.iss.run l && s.w.rdP p.val l))]
      s.iss.run false s (past false s)) := by
  rw [← length_filter_lanesOf]
  exact issue_longSig h (within_append (within_pReg p.val s) (within_sReg d s)) rfl

theorem exec_bcast {d a l : Fin 128} {s : State} (h : CanIssue s) (lane : l.val < 32) (within : Within [.v a.val, .v d.val] s)
    (settled : Settled (.v a.val) (fun j => j.val = l.val) s) : exec (.bcast d a l) s =
      .next ((past true s).modW fun w => w.wrV d (laneSet s) fun _ => seen s.w a (Fin.ofNat 32 l.val)) := by
  have source (j : Fin 32) (hj : bit (oneLane (Fin.ofNat 32 l.val)) j = true) : j.val = l.val := by
    rw [bit_oneLane, decide_eq_true_eq] at hj
    rw [hj]
    exact Nat.mod_eq_of_lt lane
  exact issue_wrV h within (whenClear_settled settled source _ _ _)

/-- popk counts the lanes of a mask register (R146). -/
theorem exec_popk {d : Fin 128} {k : Fin 12} {s : State} (h : CanIssue s) : exec (.popk d (k.castLE (by decide))) s =
    .next ((past false s).wrS d (BitVec.ofNat 32 (laneList.countP (bit s.w.k[k])))) := by
  have member : s.w.rdK k.val = s.w.k[k] := dif_pos k.isLt
  rw [← member, ← popMask_eq]
  exact issue_wrS h (within_append (within_nil s) (within_sReg d s)) rfl

/-- R118, R122 and R146. -/
theorem movesBetweenSets : MovesBetweenSets :=
  ⟨fun _ _ _ _ _ h within settled => exec_rdlane h within settled, fun _ _ _ _ h within settled => exec_wrlane h within settled,
    fun _ _ _ _ h => exec_votec h, fun _ _ _ _ h lane within settled => exec_bcast h lane within settled, fun _ _ _ h => exec_popk h⟩

/-! ## Tests of a predicate (R123, R124) -/

section tests
variable (m : Mask) (f : Fin 32 → Bool)

theorem everyLane_eq_true : everyLane m f = true ↔ ¬ ∃ l, bit m l = true ∧ f l = false := by
  simp [everyLane]

theorem someLane_eq_true : someLane m f = true ↔ ∃ l, bit m l = true ∧ f l = true := by
  simp [someLane]

theorem agreeLane_eq_true : agreeLane m f = true ↔ ¬ ((∃ l, bit m l = true ∧ f l = false) ∧ ∃ l, bit m l = true ∧ f l = true) := by
  rw [← someLane_eq_true, not_and_or, ← everyLane_eq_true, agreeLane, Bool.or_eq_true, Bool.not_eq_true', Bool.not_eq_true]
  rfl

end tests

/-- wtest writes one answer in every enabled lane. -/
theorem wtestBody_past (f : Mask → (Fin 32 → Bool) → Bool) (d a : Fin 128) (s : State) : wtestBody f d a (execOf true s) (past true s) =
    (past true s).modW fun w => w.wrP d.val (laneSet s) fun _ => f (laneSet s) fun l => s.w.rdP a.val l := by
  refine (modW_reads (past true s) fun r w => w.wrP d.val (laneSet s) fun _ => f (laneSet s) fun l => r.rdP a.val l).trans ?_
  simp only [past_rdP]

theorem issue_wtest {f : Mask → (Fin 32 → Bool) → Bool} {d a : Fin 128} {s : State} {answer : Bool} (h : CanIssue s)
    (answers : (f (laneSet s) fun l => s.w.rdP a.val l) = answer) :
    issue (wtestSig d a) (wtestBody f d a) s = .next ((past true s).modW fun w => w.wrP d.val (laneSet s) fun _ => answer) := by
  subst answers
  exact issue_wrP h (within_append (within_pReg a.val s) (within_pReg d.val s)) (wtestBody_past f d a s)

theorem ballotBody_past (d a : Fin 128) (s : State) : ballotBody d a (execOf true s) (past true s) =
    (past true s).modW fun w => w.wrV d (laneSet s) fun _ => laneSet s &&& maskOf fun l => s.w.rdP a.val l := by
  refine (modW_reads (past true s) fun r w => w.wrV d (laneSet s) fun _ => laneSet s &&& maskOf fun l => r.rdP a.val l).trans ?_
  simp only [past_rdP]

/-- R123 and R124. -/
theorem predicateTests : PredicateTests := by
  intro d a s h one zero
  refine ⟨fun _ => ⟨issue_wtest h ?_, issue_wtest h ?_, issue_wtest h ?_⟩, fun within => ?_⟩
  · exact Bool.eq_iff_iff.mpr ((everyLane_eq_true _ _).trans decide_eq_true_iff.symm)
  · exact Bool.eq_iff_iff.mpr ((someLane_eq_true _ _).trans decide_eq_true_iff.symm)
  · exact Bool.eq_iff_iff.mpr ((agreeLane_eq_true _ _).trans decide_eq_true_iff.symm)
  · have lanes : (maskOf fun l => decide (one l)) = laneSet s &&& maskOf fun l => s.w.rdP a.val l := mask_ext _ _ fun l => by
      rw [bit_maskOf, bit_and, bit_maskOf]
      exact (Bool.decide_and ..).trans (by simp)
    rw [lanes]
    exact issue_wrV h (within_append (within_pReg a.val s) within) (ballotBody_past d a s)

/-- Settles O4: a settled source is read without waiting (`whenClear_settled`), and each test is its quantifier over the enabled lanes. -/
theorem movesAndTests : Obligations.MovesAndTests := ⟨movesBetweenSets, predicateTests⟩

/-! ## Exchange between lanes (R120, R121) -/

/-- The source lanes of R120. -/
theorem source_from (l : Fin 32) (b : Word) : Reach.from_.source l b = sourceFrom l b := by
  simp only [Reach.source, sourceFrom, bitsOf_low, Option.some.injEq]
  exact Fin.ext (Nat.mod_eq_of_lt (b.setWidth 5).isLt)

theorem source_back (l : Fin 32) (b : Word) : Reach.back.source l b = sourceBack l b := by
  simp only [Reach.source, sourceBack, bitsOf_low, testBit_toNat, Bool.or_eq_true, decide_eq_true_eq, Fin.le_def]
  congr 2
  apply Fin.ext
  have distance : (b.setWidth 5).toNat < 32 := (b.setWidth 5).isLt
  simp only [Fin.val_ofNat, Fin.sub_def]
  exact congrArg (· % 32) (by omega)

theorem source_fwd (l : Fin 32) (b : Word) : Reach.fwd.source l b = sourceFwd l b := by
  simp only [Reach.source, sourceFwd, bitsOf_low, testBit_toNat, Bool.or_eq_true, decide_eq_true_eq, Nat.lt_succ_iff]
  rfl

theorem source_swap (l : Fin 32) (b : Word) : Reach.swap.source l b = sourceSwap l b := by
  simp only [Reach.source, sourceSwap, bitsOf_low]

/-- Each row of R120 is an exchange by the source lane that the row gives. -/
theorem xlaneTable_rows : ∀ e ∈ xlaneTable, ∃ r : Reach, r.source = e.2 ∧
    ∀ d a b s, exec (e.1 d a b) s = issue (lane3 d a b) (xlaneBody r d a b) s := by
  simp only [xlaneTable, List.forall_mem_cons, List.not_mem_nil, false_imp_iff, implies_true, and_true]
  exact ⟨⟨.from_, funext₂ source_from, fun _ _ _ _ => rfl⟩, ⟨.back, funext₂ source_back, fun _ _ _ _ => rfl⟩,
    ⟨.fwd, funext₂ source_fwd, fun _ _ _ _ => rfl⟩, ⟨.swap, funext₂ source_swap, fun _ _ _ _ => rfl⟩⟩

/-- The lanes that an exchange reads are sources of enabled lanes. -/
theorem xlaneSources_source (r : Reach) (b : Fin 128) (en : Mask) (w : Wave) :
    ∀ j, bit (xlaneSources r b en w) j = true → ∃ l, bit en l = true ∧ r.source l (w.rdV b l) = some j := by
  refine List.foldlRecOn (motive := fun m => ∀ j, bit m j = true → ∃ l, bit en l = true ∧ r.source l (w.rdV b l) = some j) (lanesOf en) _
    (fun j hj => by simp at hj) fun m sources l hl j hj => ?_
  cases reads : r.source l (w.rdV b l) with
  | none =>
    simp only [reads] at hj
    exact sources j hj
  | some k =>
    simp only [reads, bit_or, bit_oneLane, Bool.or_eq_true, decide_eq_true_eq] at hj
    exact hj.elim (sources j) fun same => ⟨l, (mem_lanesOf en l).mp hl, same ▸ reads⟩

/-- The byte before each byte of a word (R121). -/
theorem shiftBytes_eq (own below : Word) : own <<< 8 ||| below >>> 24 = own.extractLsb' 0 24 ++ below.extractLsb' 24 8 := by
  apply BitVec.eq_of_getLsbD_eq
  intro i hi
  simp only [BitVec.getLsbD_or, BitVec.getLsbD_shiftLeft, BitVec.getLsbD_ushiftRight, BitVec.getLsbD_append, BitVec.getLsbD_extractLsb']
  by_cases low : i < 8
  · simp [low]
  · simp [low, hi, show i - 8 < 24 by omega, BitVec.getLsbD_of_ge below (24 + i) (by omega)]

theorem laneBelow_eq (l : Fin 32) : laneBelow l = l - 1 := by
  revert l
  decide

/-- lsh in a run whose sources are settled: each enabled lane takes its value from the place below and its own (R121). -/
theorem issue_lsh (f : Word → Word → Word) {d a b : Fin 128} {s : State} (h : CanIssue s) (within : Within [.v a.val, .v b.val, .v d.val] s)
    (current : Settled (.v a.val) (fun j => ∃ l, bit (laneSet s) l = true ∧ l.val = j.val + 1) s)
    (previous : Settled (.v b.val) (fun j => bit (laneSet s) 0 = true ∧ j = 31) s) :
    issue (lane3 d a b) (lshBody f d a b) s = .next ((past true s).modW fun w => w.wrV d (laneSet s) fun l =>
      f (if l = 0 then seen s.w b 31 else seen s.w a (l - 1)) (s.w.rdV a l)) := by
  refine issue_wrV h within ?_
  have rows (j : Fin 32) (hj : bit (maskOf fun j => (lanesOf (laneSet s)).any fun l => l.val == j.val + 1) j = true) :
      ∃ l, bit (laneSet s) l = true ∧ l.val = j.val + 1 := by
    simpa using hj
  have top (j : Fin 32) (hj : bit (if bit (laneSet s) 0 then oneLane 31 else 0) j = true) : bit (laneSet s) 0 = true ∧ j = 31 := by
    split at hj
    case isTrue first => exact ⟨first, by simpa [bit_oneLane] using hj⟩
    case isFalse => simp at hj
  refine (whenClear_settled current rows _ _ _).trans ((whenClear_settled previous top _ _ _).trans ?_)
  simp only [laneBelow_eq]
  rfl

/-- Settles O5: an exchange reads the lanes that the enabled lanes name (`xlaneSources_source`), which are settled, and lsh the lanes below
(`issue_lsh`). -/
theorem exchangeBetweenLanes : Obligations.ExchangeBetweenLanes := by
  refine ⟨fun e he d a b s h within settled => ?_, fun d a b s h within current previous => ⟨issue_lsh _ h within current previous, ?_⟩⟩
  · obtain ⟨r, source, runs⟩ := xlaneTable_rows e he
    rw [← source] at settled ⊢
    rw [runs d a b s]
    exact issue_wrV h within ((whenClear_settled settled (xlaneSources_source r b _ _) _ _ _).trans rfl)
  · simp only [← shiftBytes_eq]
    exact issue_lsh (fun below own => own <<< 8 ||| below >>> 24) h within current previous

end Sys2Proof.Proofs.IntegerAndLanes
end

section
/-! Branches, jumps and the address faults of their targets (R54, R128 to R131). -/
namespace Sys2Proof.Proofs.ControlAndMasks
open Sys2Proof Sys2Proof.Machine Sys2Proof.Claims Sys2Proof.Proofs.MachineState

/-! ## Control instructions that issue (R126) -/

section
variable {reads : List Reg} {notInHandler : Bool} {body : Exec → State → State} {s : State} (h : CanIssue s) (within : Within reads s)
  (outside : notInHandler = true → Outside s)
include h within outside

/-- What a control instruction leaves that stores nothing: the state behind it, with its effect where a lane is enabled. -/
theorem issue_control {t : State} (idle : laneSet s = 0 → past true s = t) (acts : laneSet s ≠ 0 → body (execOf true s) (past true s) = t)
    (stores : t.stores = []) (mem : t.mem = s.mem) :
    issue { controlSig with reads := reads, notInHandler := notInHandler } body s = .next t := by
  rw [issue_ready _ body s h (within_append within (within_nil s)) (absurd · Bool.false_ne_true) (by simp [clearOf, controlSig])
    (absurd · Bool.false_ne_true) (absurd · Bool.false_ne_true) outside]
  refine next_of _ s t ?_ stores mem
  show (if laneSet s = 0 then past true s else body (execOf true s) (past true s)) = t
  split
  case isTrue none => exact idle none
  case isFalse some_ => exact acts some_

/-- The same for an effect on the wave alone that does nothing where no lane is enabled. -/
theorem issue_controlWave {effect : Wave → Wave} (idle : laneSet s = 0 → ∀ w, effect w = w)
    (acts : laneSet s ≠ 0 → body (execOf true s) (past true s) = (past true s).modW effect) :
    issue { controlSig with reads := reads, notInHandler := notInHandler } body s = .next ((past true s).modW effect) :=
  issue_control h within outside (fun none => (congrArg (past true s).modW (funext (idle none))).symm) acts (stores_of_canIssue (s := s) h) rfl

end

/-! ## Faults at the instruction (R465) -/

theorem faultOf_lanes (m : Mask) (code : Nat) (addr : Fin 32 → DWord) (l : Fin 32) :
    faultOf ((lanesOf m).map fun l => ⟨l, code, addr l⟩) l = if bit m l then some ⟨l, code, addr l⟩ else none := by
  rw [faultOf, List.find?_map]
  show ((lanesOf m).find? fun j => j == l).map _ = _
  split
  next mem =>
    have found : (lanesOf m).find? (fun j => j == l) = some l := by
      rw [List.find?_eq_some_iff_append]
      obtain ⟨as, bs, split_⟩ := List.append_of_mem ((mem_lanesOf m l).mpr mem)
      have sorted : (as ++ l :: bs).Pairwise (· < ·) := split_ ▸ List.Pairwise.filter _ (by decide)
      obtain ⟨-, -, before⟩ := List.pairwise_append.mp sorted
      exact ⟨beq_self_eq_true l, as, bs, split_, fun j hj => by simpa using (before j hj l (List.mem_cons_self ..)).ne⟩
    rw [found]
    rfl
  next out =>
    have absent : (lanesOf m).find? (fun j => j == l) = none := List.find?_eq_none.mpr fun j hj same => by
      rw [beq_iff_eq.mp same] at hj
      exact out ((mem_lanesOf m l).mp hj)
    rw [absent]
    rfl

theorem faultLanes_lanes (m : Mask) (code : Nat) (addr : Fin 32 → DWord) : faultLanes ((lanesOf m).map fun l => ⟨l, code, addr l⟩) = m :=
  mask_ext _ _ fun l => by
    rw [faultLanes, bit_maskOf, faultOf_lanes]
    cases bit m l <;> rfl

/-- Lanes of a run on its first issue that fault at the instruction park at it with RESTART 0. -/
theorem parkAgain_lanes {s t : State} (first : s.iss.replay = none) (same : t.iss = s.iss) {m : Mask}
    (sub : ∀ l, bit m l = true → bit s.iss.run l = true) (code : Nat) (addr : Fin 32 → DWord) : parkAgain (execOf true s) ((lanesOf m).map fun l => ⟨l, code, addr l⟩) t =
      faultsAt true m (causeWord code 0 false) addr (laneSet s) s t := by
  rw [parkAgain, faultLanes_lanes]
  refine CodesAndHandlers.parkAt_congr _ _ fun l mem => ?_
  have issued : (s.iss.replay.isNone && bit (execOf true s).run l) = true := by
    rw [first]
    exact sub l mem
  simp only [faultOf_lanes, mem, if_true, againRecord, same, issued, WaveControl.entryWord_ready]
  rfl

/-- The address fault of a whole run. -/
theorem faultRun_past {s : State} (first : s.iss.replay = none) (code : Nat) (addr : DWord) :
    faultRun (execOf true s) code addr (past true s) =
      faultsAt true s.iss.run (causeWord code 0 false) (fun _ => addr) (laneSet s) s (past true s) :=
  parkAgain_lanes (m := s.iss.run) first (State.modW_iss _ _) (fun _ mem => mem) code fun _ => addr

@[simp] theorem faultsAt_stores (passed : Bool) (m : Mask) (cause : Word) (addr : Fin 32 → DWord) (en : Mask) (s t : State) :
    (faultsAt passed m cause addr en s t).stores = t.stores := park_stores _ _ _
@[simp] theorem faultsAt_mem (passed : Bool) (m : Mask) (cause : Word) (addr : Fin 32 → DWord) (en : Mask) (s t : State) :
    (faultsAt passed m cause addr en s t).mem = t.mem := park_mem _ _ _

/-! ## Branches to one target (R54, R128 to R130) -/

theorem goTo_eq (t : Fin 32 → DWord) (m : Mask) (w : Wave) : goTo t m w = w.setPc m fun l => (t l).setWidth 56 := rfl

@[simp] theorem goTo_none (t : Fin 32 → DWord) (w : Wave) : goTo t 0#32 w = w := Wave.setPc_zero w _

theorem branchTo_below {t : DWord} (low : t.toNat < 2 ^ 56) (x : Exec) (link : State → State) (s : State) :
    branchTo t x link s = (link s).modW (goTo (fun _ => t) x.en) := if_neg (Nat.not_le.mpr low)

theorem branchTo_above {t : DWord} (high : 2 ^ 56 ≤ t.toNat) (x : Exec) (link : State → State) (s : State) :
    branchTo t x link s = faultRun x 0x10 t s := if_pos high

section
variable {s : State} (h : CanIssue s)
include h

theorem replay_of_canIssue : s.iss.replay = none := by
  obtain ⟨-, -, first, -⟩ := h
  exact first

/-- An instruction whose target is no address parks its whole run at it. -/
theorem issue_badTarget {reads : List Reg} (within : Within reads s) {body : Exec → State → State} {t : DWord} (some_ : laneSet s ≠ 0)
    (faults : body (execOf true s) (past true s) = faultRun (execOf true s) 0x10 t (past true s)) :
    issue { controlSig with reads := reads } body s = .next (faultsAt true s.iss.run 0x10 (fun _ => t) (laneSet s) s (past true s)) :=
  issue_control h within (absurd · Bool.false_ne_true) (absurd · some_) (fun _ => faults.trans (faultRun_past (replay_of_canIssue h) 0x10 t))
    ((faultsAt_stores ..).trans (stores_of_canIssue (s := s) h)) (faultsAt_mem ..)

theorem exec_br {f : BitVec 23} (low : (at_ s + f.signExtend 64 * 2).toNat < 2 ^ 56) :
    exec (.br f) s = .next ((past true s).modW (goTo (fun _ => at_ s + f.signExtend 64 * 2) (laneSet s))) :=
  issue_controlWave h (within_nil s) (absurd · Bool.false_ne_true) (fun none w => none ▸ goTo_none _ w) fun _ => branchTo_below low _ _ _

theorem exec_call {f : BitVec 23} (low : (at_ s + f.signExtend 64 * 2).toNat < 2 ^ 56) :
    exec (.call f) s = .next ((past true s).modW fun w => goTo (fun _ => at_ s + f.signExtend 64 * 2) (laneSet s)
      (w.wrVV 14 (laneSet s) fun _ => (s.iss.pc + BitVec.ofNat 56 s.iss.len).setWidth 64)) :=
  issue_controlWave h (within_nil s) (absurd · Bool.false_ne_true)
    (fun none w => by rw [none]; exact (goTo_none _ _).trans (Wave.wrVV_zero w _ _)) fun _ => branchTo_below low _ _ _

theorem exec_jmp {a : Fin 128} (low : (s.rdSS a).toNat < 2 ^ 56) (even : (s.rdSS a).getLsbD 0 = false) :
    exec (.jmp a) s = .next ((past true s).modW (goTo (fun _ => s.rdSS a) (laneSet s))) :=
  issue_controlWave h (within_sPair a s) (absurd · Bool.false_ne_true) (fun none w => none ▸ goTo_none _ w) fun _ =>
    (if_neg (Bool.eq_false_iff.mp even)).trans (branchTo_below low _ _ _)

theorem exec_jmp_fault {a : Fin 128} (bad : 2 ^ 56 ≤ (s.rdSS a).toNat ∨ (s.rdSS a).getLsbD 0 = true) (some_ : laneSet s ≠ 0) :
    exec (.jmp a) s = .next (faultsAt true s.iss.run 0x10 (fun _ => s.rdSS a) (laneSet s) s (past true s)) := by
  refine issue_badTarget h (within_sPair a s) some_ ?_
  by_cases odd_ : (s.rdSS a).getLsbD 0 = true
  · exact if_pos odd_
  · exact (if_neg odd_).trans (branchTo_above (bad.resolve_right odd_) _ _ _)

end

/-! ## Returns: a target for each lane (R131) -/

theorem lanesOf_filter (m : Mask) (f : Fin 32 → Bool) : (lanesOf m).filter f = lanesOf (m &&& maskOf f) := by
  rw [lanesOf, lanesOf, List.filter_filter]
  exact List.filter_congr fun l _ => by rw [bit_and, bit_maskOf, Bool.and_comm]

theorem and_maskOf_not (m : Mask) (f : Fin 32 → Bool) : (m &&& maskOf fun l => !f l) = m &&& ~~~(m &&& maskOf f) := mask_ext _ _ fun l => by
  simp only [bit_and, bit_not, bit_maskOf]
  cases bit m l <;> rfl

/-- The enabled lanes whose target is no address (R131). -/
def badReturns (a : Fin 128) (s : State) : Mask :=
  laneSet s &&& maskOf fun l => (s.w.rdVV a l).getLsbD 0 || decide (2 ^ 56 ≤ (s.w.rdVV a l).toNat)

theorem retBody_past (a : Fin 128) (s : State) : retBody a (execOf true s) (past true s) =
    parkAgain (execOf true s) ((lanesOf (badReturns a s)).map fun l => ⟨l, 0x10, s.w.rdVV a l⟩)
      ((past true s).modW (goTo (s.w.rdVV a) (laneSet s &&& ~~~badReturns a s))) := by
  rw [badReturns, ← and_maskOf_not, ← lanesOf_filter]
  rfl

theorem exec_ret {s : State} (h : CanIssue s) {a : Fin 128} (within : Within [.v a.val, .v (a.val + 1)] s) :
    exec (.ret a) s = .next (faultsAt true (badReturns a s) 0x10 (fun l => s.w.rdVV a l) (laneSet s) s
      ((past true s).modW (goTo (s.w.rdVV a) (laneSet s &&& ~~~badReturns a s)))) := by
  have sub (l : Fin 32) (bad : bit (badReturns a s) l = true) : bit s.iss.run l = true := by
    rw [badReturns, bit_and, Bool.and_eq_true] at bad
    exact laneSet_run s l bad.1
  refine issue_control (reads := vPair a) h within (absurd · Bool.false_ne_true) (fun none => ?_) (fun _ => ?_)
    ((faultsAt_stores ..).trans (stores_of_canIssue (s := s) h)) (faultsAt_mem ..)
  · have bad : badReturns a s = 0#32 := by rw [badReturns, none]; exact BitVec.zero_and
    have good : laneSet s &&& ~~~badReturns a s = 0#32 := by rw [none]; exact BitVec.zero_and
    rw [good, bad]
    exact (congrArg (past true s).modW (funext fun w => (goTo_none _ w).symm)).trans (park_zero _ _).symm
  · refine (retBody_past a s).trans ?_
    exact parkAgain_lanes (replay_of_canIssue h) ((State.modW_iss _ _).trans (State.modW_iss _ _)) sub 0x10 _

/-- R128 to R131 with R54. -/
theorem branchesCallsAndReturns : BranchesCallsAndReturns := by
  intro s h
  have fault := fun {body t} => issue_badTarget (body := body) (t := t) h (within_nil s)
  exact ⟨fun f => ⟨fun low => ⟨exec_br h low, exec_call h low⟩, fun high some_ =>
      ⟨fault some_ (branchTo_above high _ _ _), fault some_ (branchTo_above high _ _ _)⟩⟩,
    fun a => ⟨exec_jmp h, exec_jmp_fault h⟩, fun a within => exec_ret h within⟩

end Sys2Proof.Proofs.ControlAndMasks
end

section
/-! Exit, yield and the mask instructions (R132, R137 to R142, R145), and their use in a trap handler (R409). -/
namespace Sys2Proof.Proofs.ControlAndMasks
open Sys2Proof Sys2Proof.Machine Sys2Proof.Claims Sys2Proof.Proofs.MachineState Sys2Proof.Proofs.WaveControl

/-! ## Lanes that exit, and release (R132, R142) -/

theorem releaseAll_eq_allReleased (w : Wave) : w.releaseAll = allReleased w := by
  have masks : List.range 12 = (List.finRange 12).map Fin.val := by decide
  rw [Wave.releaseAll, allReleased, masks, List.foldl_map]
  simp only [release_eq_released]

theorem exit_eq (w : Wave) (m : Mask) : w.exit m = allReleased { w with
    st := Lanes.ofFn fun l => if bit m l then .exited else w.st[l]
    k := w.k.map fun x => x &&& ~~~m, yieldMask := w.yieldMask &&& ~~~m } :=
  releaseAll_eq_allReleased _

theorem ended_iff (w : Wave) : w.ended = true ↔ ∀ l : Fin 32, w.st[l] = .exited ∨ w.st[l] = .inactive := by
  have absent (l : Fin 32) : bit w.present l = false ↔ w.st[l] = .exited ∨ w.st[l] = .inactive := by
    rw [bit_present, decide_eq_false_iff_not]
    tauto
  rw [Wave.ended, beq_iff_eq]
  exact ⟨fun none l => (absent l).mp ((congrArg (bit · l) none).trans (bit_zero l)),
    fun gone => mask_ext _ _ fun l => ((absent l).mpr (gone l)).trans (bit_zero l).symm⟩

/-- No lane of a wave that has ended waits on a mask. -/
theorem allReleased_of_ended {w : Wave} (gone : w.ended = true) : allReleased w = w := by
  refine List.foldl_fixed' (fun k => ?_) _
  have waiters : (maskOf fun l => decide (w.st[l] = .waiting (kField k))) = 0 := mask_ext _ _ fun l => by
    rw [bit_maskOf]
    rcases (ended_iff w).mp gone l with st | st <;> rw [st] <;> exact (bit_zero l).symm
  rw [released]
  exact if_neg fun ⟨some_, _⟩ => some_ waiters

/-- A wave all of whose lanes exit: it has ended, and nothing is left to release. -/
theorem exit_last {w : Wave} {m : Mask} (all : w.present &&& ~~~m = 0) :
    (w.exit m).ended = true ∧ w.exit m = { w.setState m .exited with k := w.k.map fun x => x &&& ~~~m, yieldMask := w.yieldMask &&& ~~~m } := by
  have gone : Wave.ended { w.setState m .exited with k := w.k.map fun x => x &&& ~~~m, yieldMask := w.yieldMask &&& ~~~m } = true :=
    (ended_iff _).mpr fun l => by
      have left := congrArg (bit · l) all
      simp only [bit_and, bit_not, bit_present] at left
      simp only [Wave.setState, Lanes.ofFn_get]
      split
      next => exact .inl rfl
      next out =>
        simp only [out, Bool.not_false, Bool.and_true] at left
        have absent := of_decide_eq_false (left.trans (bit_zero l))
        tauto
  have same : w.exit m = _ := (exit_eq w m).trans (allReleased_of_ended gone)
  exact ⟨same ▸ gone, same⟩

/-! ## Barriers of which none waits (R206, R207) -/

theorem noBarrier_modW {s : State} {f : Wave → Wave} (quiet : NoBarrier s) : NoBarrier (s.modW f) := by
  simpa only [NoBarrier, State.modW_grp_barG, State.modW_grp_barC, State.modW_grp_arrivedC, State.modW_grp_epilogues, State.modW_rest] using quiet

theorem settleBarG_none {g : Group} (none : g.barG = []) : g.settleBarG = g := if_neg fun ⟨some_, _⟩ => some_ none

theorem atBarC_none {g : Group} (arrived : g.arrivedC = false) (none : g.barC = []) : g.atBarC = false := by
  simp [Group.atBarC, arrived, none]

theorem settleBarC_none {s : State} (quiet : NoBarrier s) : settleBarC s = s := by
  obtain ⟨-, barC, arrived, -, others⟩ := quiet
  have own : s.grp.atBarC = false := atBarC_none arrived barC
  have same : (s.modG fun g => { g with arrivedC := g.atBarC }) = s := by
    show { s with grp := { s.grp with arrivedC := s.grp.atBarC } } = s
    rw [own, ← arrived]
  have idle : ((s.groups.filter fun h => h.peerOf s.grp).any fun h => h.atBarC) = false := List.any_eq_false.mpr fun g mem => by
    obtain ⟨live, -⟩ := List.mem_filter.mp mem
    obtain ⟨group, -⟩ := List.mem_filter.mp live
    rcases List.mem_cons.mp group with rfl | rest
    · simp [own]
    · simp [others g rest]
  simp only [settleBarC, same, idle, Bool.false_eq_true, false_and, if_false]

/-- With no barrier and no epilogue row waiting, an exit settles the cells of a wave that has ended, and nothing else. -/
theorem settleBarriers_none {s : State} (quiet : NoBarrier s) : settleBarriers s = if s.w.ended then settleWave s.w.uid s else s := by
  have settled {t : State} (quiet : NoBarrier t) : settleBarC (t.modG (·.settleBarG)) = t := by
    have barG : (t.modG (·.settleBarG)) = t := by
      obtain ⟨none, -⟩ := quiet
      rw [State.modG, settleBarG_none none]
    rw [barG, settleBarC_none quiet]
  have ⟨_, _, _, rows, _⟩ := quiet
  rw [settleBarriers, releaseWave, drainOwnRows_none s rows]
  split
  · exact settled quiet
  · exact settled quiet

/-- Without epilogue rows nothing holds an effect that comes after them. -/
theorem afterStores_none {s : State} (rows : s.grp.epilogues = []) (body : Exec → State → State) (x : Exec) :
    afterStores false body x s = body x s := by
  have free : heldStores false s = (s, false) := by simp [heldStores, ownRowWords, rows, blockedAt, waitLines]
  rw [afterStores, free]
  exact congrArg (body x) (drainOwnRows_none s rows)

/-! ## exit (R132) -/

/-- The state behind an exit of the enabled lanes. -/
def exitState (s : State) : State := (past true s).modW fun w => w.exit (laneSet s)

theorem exitState_w (s : State) : (exitState s).w = (past true s).w.exit (laneSet s) := State.modW_grp_wave _ _
theorem exitState_mem (s : State) : (exitState s).mem = s.mem := (State.modW_mem _ _).trans (past_mem true s)
theorem exitState_stores (s : State) : (exitState s).stores = s.stores := (State.modW_stores _ _).trans (past_stores true s)

theorem exitState_provs (s : State) : (exitState s).provs = s.provs := (State.modW_provs _ _).trans (State.modW_provs _ _)
theorem exitState_grp_s (s : State) : (exitState s).grp.s = s.grp.s := (State.modW_grp_s _ _).trans (State.modW_grp_s _ _)
theorem noBarrier_exitState {s : State} (quiet : NoBarrier s) : NoBarrier (exitState s) := noBarrier_modW (noBarrier_modW quiet)

@[simp] theorem settleWave_mem (uid : Nat) (s : State) : (settleWave uid s).mem = s.mem := rfl
@[simp] theorem settleWave_stores (uid : Nat) (s : State) : (settleWave uid s).stores = s.stores := rfl
@[simp] theorem settleWave_grp (uid : Nat) (s : State) : (settleWave uid s).grp = s.grp := rfl
@[simp] theorem settleWave_provs (uid : Nat) (s : State) : (settleWave uid s).provs = s.provs.filter fun c => c.wave != uid := rfl

theorem exitBody_past {s : State} (rows : s.grp.epilogues = []) : exitBody (execOf true s) (past true s) = settleBarriers (exitState s) := by
  rw [exitBody]
  split
  · exact afterStores_none (s := past true s) rows _ _
  · rfl

theorem exec_exit {s : State} (h : CanIssue s) (outside : Outside s) (quiet : NoBarrier s) (some_ : laneSet s ≠ 0) :
    exec .exit s = .next (if (exitState s).w.ended then settleWave (exitState s).w.uid (exitState s) else exitState s) := by
  have ⟨_, _, _, rows, _⟩ := quiet
  have stores := (exitState_stores s).trans (stores_of_canIssue h)
  have leaves := settleBarriers_none (noBarrier_exitState quiet)
  rw [← leaves]
  refine issue_control h (within_nil s) (fun _ => outside) (absurd · some_) (fun _ => exitBody_past rows) ?_ ?_
  · rw [leaves]
    split
    · exact (settleWave_stores _ _).trans stores
    · exact stores
  · rw [leaves]
    split
    · exact (settleWave_mem _ _).trans (exitState_mem s)
    · exact exitState_mem s

/-- R132: some lanes leave the wave, or the last. -/
theorem exitOfLanes : ExitOfLanes := by
  intro s h outside quiet
  have exits : exitState s = (past true s).modW fun w => allReleased { w with
      st := Lanes.ofFn fun l => if bit (laneSet s) l then .exited else w.st[l]
      k := w.k.map fun x => x &&& ~~~laneSet s, yieldMask := w.yieldMask &&& ~~~laneSet s } :=
    congrArg (past true s).modW (funext fun w => exit_eq w _)
  refine ⟨fun some_ left => ?_, fun all some_ => ?_⟩
  · rw [← exits] at left ⊢
    rw [exec_exit h outside quiet some_, left]
    rfl
  · obtain ⟨gone, same⟩ := exit_last (w := (past true s).w) (m := laneSet s) all
    rw [← exitState_w] at gone same
    have uid : (exitState s).w.uid = s.w.uid := by rw [same]; rfl
    have regs : (exitState s).w.v = s.w.v := by rw [same]; rfl
    rw [exec_exit h outside quiet some_, if_pos gone, uid]
    refine ⟨_, rfl, ?_⟩
    rw [settleWave_mem, settleWave_grp, settleWave_provs, exitState_mem, exitState_grp_s, exitState_provs]
    exact ⟨gone, rfl, regs, rfl, rfl⟩

/-- Settles O9: a target that is an address moves the enabled lanes (`branchTo_below`), another parks the run or its lanes (`parkAgain_lanes`); an exit
leaves the barriers as they are where none waits (`settleBarriers_none`). -/
theorem controlFlow : Obligations.ControlFlow := ⟨branchesCallsAndReturns, exitOfLanes⟩

/-! ## yield and the mask instructions (R137 to R142, R145) -/

theorem rdK_eq (k : Fin 12) (w : Wave) : w.rdK k.val = w.k[k] := dif_pos k.isLt

/-- A mask register is written whole, and its release evaluated. -/
theorem writeMask_release (k : Fin 12) {x y : Mask} (value : x = y) (w : Wave) : (w.wrK k.val x).release k.val = released k (maskSet k y w) := by
  rw [release_eq_released, wrK_eq_maskSet, value]

section
variable (k a : Fin 12) {s : State} (h : CanIssue s) (outside : Outside s)
include h outside

theorem exec_yield : exec .yield s = .next ((past true s).modW fun w => { w with yieldMask := w.yieldMask ||| laneSet s }) :=
  issue_controlWave h (within_nil s) (fun _ => outside)
    (fun none w => by rw [none]; exact congrArg (fun y => { w with yieldMask := y }) BitVec.or_zero) fun _ => rfl

/-- An instruction on a mask that some lane executes. -/
theorem issue_mask {body : Exec → State → State} {effect : Wave → Wave} (some_ : laneSet s ≠ 0)
    (acts : body (execOf true s) (past true s) = (past true s).modW effect) : issue maskSig body s = .next ((past true s).modW effect) :=
  issue_controlWave h (within_nil s) (fun _ => outside) (absurd · some_) fun _ => acts

theorem exec_join (some_ : laneSet s ≠ 0) : exec (.join (kField k)) s =
    .next ((past true s).modW fun w => released k (maskSet k (s.w.k[k] ||| laneSet s) w)) :=
  issue_mask h outside some_ (modW_congr (writeMask_release k (rdK_eq k s.w ▸ rfl) _))

theorem exec_leave (some_ : laneSet s ≠ 0) : exec (.leave (kField k)) s =
    .next ((past true s).modW fun w => released k (maskSet k (s.w.k[k] &&& ~~~laneSet s) w)) :=
  issue_mask h outside some_ (modW_congr (writeMask_release k (rdK_eq k s.w ▸ rfl) _))

theorem exec_wait (some_ : laneSet s ≠ 0) : exec (.wait (kField k)) s = .next ((past true s).modW fun w => released k { w with
    st := Lanes.ofFn fun l => if bit (laneSet s) l then .waiting (kField k) else w.st[l] }) :=
  issue_mask h outside some_ (modW_congr (release_eq_released k _))

theorem exec_kmov : exec (.kmov (kField a) (kField k)) s = .next ((past false s).modW fun w => released k (maskSet k s.w.k[a] w)) :=
  issue_once h rfl rfl rfl nofun nofun rfl (fun _ => outside) (modW_congr (writeMask_release k (rdK_eq a s.w) _)) (stores_of_canIssue (s := s) h) rfl

end

/-- R137 to R142 and R145. -/
theorem yieldAndMasks : YieldAndMasks := fun _ h outside => ⟨exec_yield h outside, fun k a =>
  ⟨fun some_ => ⟨exec_join k h outside some_, exec_leave k h outside some_, exec_wait k h outside some_⟩, exec_kmov k a h outside⟩⟩

/-! ## In a trap handler (R409) -/

/-- What no lane of a trap handler may execute ends the group with STATUS 3. -/
theorem issue_inHandler {g : Sig} (body : Exec → State → State) {s : State} (h : CanIssue s) (handler : s.iss.run &&& s.w.handlerLanes ≠ 0)
    (forbidden : g.notInHandler = true) (regs : g.reads ++ g.writes = []) (waits : g.waitsFor = []) (fence : g.fence = false)
    (privileged : g.privileged = false) (handlerOnly : g.handlerOnly = false) : issue g body s = .next (stopGroup 3 s) := by
  have wait : mustWait g s = false := mustWait_ready g s h (by simp [fence])
  have left : s.iss.run &&& ~~~(0 : Mask) = s.iss.run := mask_ext _ _ fun l => by
    rw [bit_and, bit_not, show bit (0 : Mask) l = false from bit_zero l, Bool.not_false, Bool.and_true]
  have unparked (r : Fin 32 → TrapRecord) : park (0 : Mask) r s = s := park_zero r s
  have clear : clearOf g.waitsFor (~~~0#32) s = true := by simp [clearOf, waits]
  refine next_of _ s _ ?_ (stores_of_canIssue (s := s) h) rfl
  simp only [issueRun, wait, regs, breaching_ready g s h, left, unparked, clear, forbidden, privileged, handlerOnly, List.any_nil, Bool.false_and,
    Bool.or_false, Bool.false_eq_true, if_false, ne_eq, not_true_eq_false, false_and, Bool.not_true, Bool.true_and]
  exact if_pos (bne_iff_ne.mpr handler)

/-- R409: each of them is forbidden there. -/
theorem maskInstructionsInHandlerStopGroup : MaskInstructionsInHandlerStopGroup := by
  intro s h handler i mem
  rcases List.mem_append.mp mem with plain | masks
  · simp only [List.mem_cons, List.not_mem_nil, or_false] at plain
    rcases plain with rfl | rfl | rfl | rfl <;> exact issue_inHandler _ h handler rfl rfl rfl rfl rfl rfl
  · obtain ⟨k, -, masks⟩ := List.mem_flatMap.mp masks
    simp only [List.mem_cons, List.not_mem_nil, or_false] at masks
    rcases masks with rfl | rfl | rfl | rfl <;> exact issue_inHandler _ h handler rfl rfl rfl rfl rfl rfl

/-- Settles O10: a mask is written and released as R138 and R142 say (`writeMask_release`); in a handler the instruction stops the group before it
acts (`issue_inHandler`). -/
theorem yieldAndMaskRegisters : Obligations.YieldAndMaskRegisters := ⟨yieldAndMasks, maskInstructionsInHandlerStopGroup⟩

end Sys2Proof.Proofs.ControlAndMasks
end

section
/-! The choice of the run (R134). -/
namespace Sys2Proof.Proofs.ChoiceOfRuns
open Sys2Proof Sys2Proof.Machine Sys2Proof.Claims Sys2Proof.Proofs.WaveControl Sys2Proof.Proofs.IntegerAndLanes

/-! ## The lane at the lowest PC -/

/-- One step of the search for the lowest PC. -/
def lowerPc (w : Wave) (b : Option (Fin 32)) (l : Fin 32) : Option (Fin 32) :=
  match b with
  | none => some l
  | some j => if w.pc[l].toNat < w.pc[j].toNat then some l else some j

theorem lowestPc_foldl (w : Wave) (m : Mask) : lowestPc w m = (lanesOf m).foldl (lowerPc w) none := rfl

theorem foldl_lowerPc (w : Wave) (xs : List (Fin 32)) (j : Fin 32) :
    ∃ l ∈ j :: xs, xs.foldl (lowerPc w) (some j) = some l ∧ ∀ i ∈ j :: xs, w.pc[l].toNat ≤ w.pc[i].toNat := by
  induction xs generalizing j with
  | nil => exact ⟨j, List.mem_cons_self .., rfl, fun i hi => List.mem_singleton.mp hi ▸ le_rfl⟩
  | cons x xs ih =>
    rw [List.foldl_cons, lowerPc]
    split
    next below =>
      obtain ⟨l, mem, found, least⟩ := ih x
      refine ⟨l, List.mem_cons_of_mem _ mem, found, fun i hi => ?_⟩
      rcases List.mem_cons.mp hi with rfl | hi
      · exact (least x (List.mem_cons_self ..)).trans below.le
      · exact least i hi
    next above =>
      obtain ⟨l, mem, found, least⟩ := ih j
      refine ⟨l, (List.mem_cons.mp mem).elim (fun e => e ▸ List.mem_cons_self ..) fun h => List.mem_cons_of_mem _ (List.mem_cons_of_mem _ h), found,
        fun i hi => ?_⟩
      have first := least j (List.mem_cons_self ..)
      rcases List.mem_cons.mp hi with rfl | hi
      · exact first
      · rcases List.mem_cons.mp hi with rfl | hi
        · exact first.trans (Nat.le_of_not_lt above)
        · exact least i (List.mem_cons_of_mem _ hi)

/-- The search finds nothing in no lane, and else a lane of the mask at its lowest PC. -/
theorem lowestPc_cases (w : Wave) (m : Mask) : ((∀ l, bit m l = false) ∧ lowestPc w m = none) ∨
    ∃ l, bit m l = true ∧ lowestPc w m = some l ∧ ∀ i, bit m i = true → w.pc[l].toNat ≤ w.pc[i].toNat := by
  rw [lowestPc_foldl]
  simp only [← mem_lanesOf, ← Bool.not_eq_true]
  cases lanesOf m with
  | nil => exact .inl ⟨fun l => List.not_mem_nil, rfl⟩
  | cons j xs => exact .inr (foldl_lowerPc w xs j)

/-! ## Runs: ready lanes of one PC and one class -/

/-- Lanes that may issue together. -/
structure RunAt (w : Wave) (run : Mask) (pc : BitVec 56) : Prop where
  some_ : run ≠ 0
  lanes : ∀ l, bit run l = true → Ready w l ∧ w.pc[l] = pc
  class_ : ∀ l j, bit run l = true → bit run j = true → bit w.handlerLanes l = bit w.handlerLanes j

theorem bit_classAt (w : Wave) (r : Mask) (pc : BitVec 56) (handler : Bool) (l : Fin 32) :
    bit (classAt w r pc handler) l = true ↔ bit r l = true ∧ w.pc[l] = pc ∧ bit w.handlerLanes l = handler := by
  simp [classAt, bit_and]

theorem ne_zero_of_bit {m : Mask} {l : Fin 32} (h : bit m l = true) : m ≠ 0 := by
  rintro rfl
  exact Bool.false_ne_true ((bit_zero l).symm.trans h)

theorem ready_iff (w : Wave) (l : Fin 32) : bit w.ready l = true ↔ Claims.Ready w l := by
  rw [bit_ready, decide_eq_true_iff]
  rfl

/-- The ready lanes of a class at a PC are a run where there is one. -/
theorem classAt_runAt {w : Wave} {pc : BitVec 56} {handler : Bool} (some_ : classAt w w.ready pc handler ≠ 0) :
    RunAt w (classAt w w.ready pc handler) pc where
  some_ := some_
  lanes l mem := by
    obtain ⟨ready, at_, -⟩ := (bit_classAt ..).mp mem
    exact ⟨(ready_iff w l).mp ready, at_⟩
  class_ l j hl hj := by
    obtain ⟨-, -, own⟩ := (bit_classAt ..).mp hl
    obtain ⟨-, -, other⟩ := (bit_classAt ..).mp hj
    exact own.trans other.symm

/-- A ready lane is in the class of its own at its PC. -/
theorem classAt_own {w : Wave} {l : Fin 32} (ready : Ready w l) : bit (classAt w w.ready w.pc[l] (bit w.handlerLanes l)) l = true :=
  (bit_classAt ..).mpr ⟨(ready_iff w l).mpr ready, rfl, rfl⟩

theorem headRun_runAt {w : Wave} {h : Fin 32} (ready : Ready w h) : RunAt w (headRun w w.ready w.pc[h]) w.pc[h] := by
  rw [headRun]
  split
  next some_ => exact classAt_runAt some_
  next none =>
    have other : bit w.handlerLanes h = false := by
      by_contra handler
      have own := classAt_own ready
      rw [Bool.not_eq_false] at handler
      rw [handler] at own
      exact none (ne_zero_of_bit own)
    exact classAt_runAt (other ▸ ne_zero_of_bit (classAt_own ready))

/-- Where all ready lanes share one PC and one class they are the run. -/
theorem converged_runAt {w : Wave} {h : Fin 32} (ready : Ready w h) (one : converged w w.ready = true) : RunAt w w.ready w.pc[h] := by
  have mem : bit w.ready h = true := (ready_iff w h).mpr ready
  unfold converged at one
  split at one
  next none => exact absurd (lowest_none none h) (by rw [mem]; decide)
  next l low =>
    have shared (i : Fin 32) (hi : bit w.ready i = true) : w.pc[i] = w.pc[l] ∧ bit w.handlerLanes i = bit w.handlerLanes l := by
      have out := congrArg (bit · i) (beq_iff_eq.mp one)
      simp only [bit_and, bit_not, hi, Bool.true_and] at out
      have inside : bit (classAt w w.ready w.pc[l] (bit w.handlerLanes l)) i = true := by simpa using out.trans (bit_zero i)
      obtain ⟨-, shared⟩ := (bit_classAt ..).mp inside
      exact shared
    exact ⟨ne_zero_of_bit mem, fun i hi => ⟨(ready_iff w i).mp hi, (shared i hi).1.trans (shared h mem).1.symm⟩,
      fun i j hi hj => (shared i hi).2.trans (shared j hj).2.symm⟩

theorem rotationLane_mem {o : Mask} {p j : Fin 32} (h : rotationLane o p = some j) : bit o j = true := by
  unfold rotationLane at h
  split at h
  next l above =>
    obtain rfl := Option.some.inj h
    exact (mem_lanesOf o l).mp (List.mem_of_find?_eq_some above)
  next => exact (lowest_some h).1

/-! ## The lanes that no yield sets aside -/

/-- The wave that a choice starts from: no lane is set aside where a yield has set aside every ready lane. -/
def offered (w : Wave) : Wave := if w.ready &&& ~~~w.yieldMask = 0 then { w with yieldMask := 0 } else w

/-- The lanes whose lowest PC is that of the head run. -/
def candidates (w : Wave) : Mask := w.ready &&& ~~~(offered w).yieldMask

theorem offered_eq (w : Wave) : ∃ y, offered w = { w with yieldMask := y } := by
  unfold offered
  split
  · exact ⟨0, rfl⟩
  · exact ⟨w.yieldMask, rfl⟩

theorem aside_iff (w : Wave) : w.ready &&& ~~~w.yieldMask = 0 ↔ ∀ j, Ready w j → bit w.yieldMask j = true := by
  have outside (j : Fin 32) : bit (w.ready &&& ~~~w.yieldMask) j = false ↔ (Ready w j → bit w.yieldMask j = true) := by
    rw [bit_and, bit_not, ← ready_iff]
    cases bit w.ready j <;> cases bit w.yieldMask j <;> decide
  exact ⟨fun none j => (outside j).mp ((congrArg (bit · j) none).trans (bit_zero j)),
    fun all => mask_ext _ _ fun j => ((outside j).mpr (all j)).trans (bit_zero j).symm⟩

theorem bit_candidates (w : Wave) (l : Fin 32) : bit (candidates w) l = true ↔ Candidate w l := by
  unfold candidates offered
  split
  next aside =>
    have all := (aside_iff w).mp aside
    rw [show ~~~(0 : Mask) = BitVec.allOnes 32 from by decide, BitVec.and_allOnes, ready_iff]
    exact ⟨fun ready => ⟨ready, .inr all⟩, And.left⟩
  next some_ =>
    have none := mt (aside_iff w).mpr some_
    rw [bit_and, bit_not, Bool.and_eq_true, ready_iff, Bool.not_eq_true', Candidate, or_iff_left none]

/-- Some ready lane is a candidate. -/
theorem exists_candidate {w : Wave} {l : Fin 32} (ready : Ready w l) : ∃ j, Candidate w j := by
  by_cases all : ∀ j, Ready w j → bit w.yieldMask j = true
  · exact ⟨l, ready, .inr all⟩
  · push Not at all
    obtain ⟨j, some_, free⟩ := all
    exact ⟨j, some_, .inl (Bool.eq_false_iff.mpr free)⟩

/-! ## The choice -/

/-- What a wave chooses whose lowest candidate is a lane h: a run that no yield sets aside any more, at the PC of h unless a rotation is due. -/
structure Chosen (w : Wave) (h : Fin 32) (w' : Wave) (iss : Issue) : Prop where
  first : iss.replay = none
  run : RunAt w iss.run iss.pc
  cleared : ∀ l, bit iss.run l = true → bit w'.yieldMask l = false
  head : w.promise = false ∨ w.count < w.fairness → iss.pc = w.pc[h]

theorem bit_cleared {y run : Mask} {l : Fin 32} (mem : bit run l = true) : bit (y &&& ~~~run) l = false := by
  rw [bit_and, bit_not, mem, Bool.not_true, Bool.and_false]

theorem chooseRun_none {w : Wave} (empty : lowestPc (offered w) (candidates w) = none) : chooseRun w = none := by
  unfold candidates offered at empty
  simp only [chooseRun, empty]

theorem chooseRun_some {w : Wave} {h : Fin 32} (ready : Ready w h) (low : lowestPc (offered w) (candidates w) = some h) :
    ∃ w' iss, chooseRun w = some (w', iss) ∧ Chosen w h w' iss := by
  obtain ⟨y, free⟩ := offered_eq w
  unfold candidates at low
  rw [free] at low
  unfold offered at free
  simp only [chooseRun, free, low]
  split
  next one => exact ⟨_, _, rfl, rfl, converged_runAt ready one, fun _ => bit_cleared, fun _ => rfl⟩
  next apart =>
    split
    next j rotates =>
      split at rotates
      next due =>
        obtain ⟨promise, late⟩ := due
        have mem := rotationLane_mem rotates
        rw [bit_and, Bool.and_eq_true] at mem
        have own := classAt_own ((ready_iff w j).mp mem.1)
        refine ⟨_, _, rfl, rfl, classAt_runAt (ne_zero_of_bit own), fun _ => bit_cleared, fun early => ?_⟩
        rcases early with none | early
        · exact absurd (promise.symm.trans none) (by decide)
        · exact absurd early (Nat.not_lt.mpr late)
      next => cases rotates
    next => exact ⟨_, _, rfl, rfl, headRun_runAt ready, fun _ => bit_cleared, fun _ => rfl⟩

/-- Settles O55: a wave with a ready lane has a lowest candidate (`lowestPc_cases`), and each of the three choices of R134 is a run (`chooseRun_some`). -/
theorem choiceOfTheRun : Obligations.ChoiceOfTheRun := by
  unfold Obligations.ChoiceOfTheRun
  intro w
  obtain ⟨y, same⟩ := offered_eq w
  rcases lowestPc_cases (offered w) (candidates w) with ⟨empty, none⟩ | ⟨h, mem, low, least⟩
  · have idle : ¬ ∃ l, Ready w l := fun ⟨l, ready⟩ => by
      obtain ⟨j, candidate⟩ := exists_candidate ready
      exact Bool.false_ne_true ((empty j).symm.trans ((bit_candidates w j).mpr candidate))
    have nothing := chooseRun_none none
    exact ⟨iff_of_false idle (by rw [nothing]; decide), fun w' iss chosen => by rw [nothing] at chosen; cases chosen⟩
  · have candidate := (bit_candidates w h).mp mem
    obtain ⟨v, c, chosen, first, run, cleared, head⟩ := chooseRun_some candidate.1 low
    refine ⟨iff_of_true ⟨h, candidate.1⟩ (by rw [chosen]; rfl), fun w' iss choice => ?_⟩
    obtain ⟨rfl, rfl⟩ := Prod.mk.inj (Option.some.inj (chosen.symm.trans choice))
    refine ⟨first, run.some_, fun l hl => ⟨(run.lanes l hl).1, (run.lanes l hl).2, cleared l hl⟩, run.class_, fun early => ?_⟩
    rw [head early]
    refine ⟨⟨h, candidate, rfl⟩, fun l hl => ?_⟩
    have below := least l ((bit_candidates w l).mpr hl)
    rw [same] at below
    exact below

end Sys2Proof.Proofs.ChoiceOfRuns
end

section
/-! The arithmetic of FP32 and its special results (R86 to R89, R150 to R152). -/
namespace Sys2Proof.Proofs.FloatingPoint
open Sys2Proof Sys2Proof.Machine Sys2Proof.Claims Sys2Proof.Proofs.IntegerAndLanes

/-! ## Minima and maxima (R151) -/

/-- The order of R151 sets a negative number one place below its place among numbers, so that -0 stands below +0. -/
theorem orderKey_eq (x : Word) : orderKey x = if x.msb then place x - 1 else place x := by
  rw [orderKey, place, testBit_toNat, toNat_magnitude, BitVec.msb_eq_getLsbD_last]
  split <;> rfl

theorem place_nonpos {x : Word} (negative : x.msb = true) : place x ≤ 0 := by
  rw [place, if_pos negative]
  omega

theorem place_nonneg {x : Word} (positive : x.msb = false) : 0 ≤ place x := by
  rw [place, positive]
  exact Int.natCast_nonneg _

theorem orderKey_lt_iff (a b : Word) : orderKey a < orderKey b ↔ below a b = true := by
  rw [orderKey_eq, orderKey_eq, below]
  cases signA : a.msb <;> cases signB : b.msb
  case false.true =>
    have apart : place b ≤ place a := (place_nonpos signB).trans (place_nonneg signA)
    simp
    omega
  case true.false =>
    have apart : place a ≤ place b := (place_nonpos signA).trans (place_nonneg signB)
    simp
    omega
  all_goals simp

/-- The table of R151 by the machine's operations. -/
theorem minMaxTable_eq :
    minMaxTable = [(.fminF32, fminOp), (.fmaxF32, fmaxOp), (.fminNumF32, fminNum), (.fmaxNumF32, fmaxNum)] := by
  have least (a b : Word) : lesser a b = if below b a then b else a := by simp only [lesser, orderKey_lt_iff]
  have greatest (a b : Word) : greater a b = if below a b then b else a := by simp only [greater, orderKey_lt_iff]
  have min_ : fminOp = fun a b => if isNaN a ∨ isNaN b then 0x7FC00000 else if below b a then b else a := by
    funext a b
    simp only [fminOp, nan32_eq, least, Bool.or_eq_true, defaultNan]
  have max_ : fmaxOp = fun a b => if isNaN a ∨ isNaN b then 0x7FC00000 else if below a b then b else a := by
    funext a b
    simp only [fmaxOp, nan32_eq, greatest, Bool.or_eq_true, defaultNan]
  have minNumber : fminNum = fun a b =>
      if isNaN a ∧ isNaN b then 0x7FC00000 else if isNaN a then b else if isNaN b then a else if below b a then b else a := by
    funext a b
    simp only [fminNum, nan32_eq, least, Bool.and_eq_true, defaultNan]
  have maxNumber : fmaxNum = fun a b =>
      if isNaN a ∧ isNaN b then 0x7FC00000 else if isNaN a then b else if isNaN b then a else if below a b then b else a := by
    funext a b
    simp only [fmaxNum, nan32_eq, greatest, Bool.and_eq_true, defaultNan]
  rw [min_, max_, minNumber, maxNumber]
  rfl

/-! ## Sign operations (R152) -/

/-- The masks of R152: every bit below the sign, and the sign. -/
theorem magnitudeMask_eq : (0x7FFFFFFF : Word) = 0#1 ++ BitVec.allOnes 31 := rfl
theorem signMask_eq : (0x80000000 : Word) = BitVec.allOnes 1 ++ 0#31 := rfl

/-- A word is its sign bit above its magnitude. -/
theorem sign_append_magnitude (a : Word) : a.extractLsb' 31 1 ++ a.extractLsb' 0 31 = a :=
  (BitVec.extractLsb'_append_extractLsb'_eq_extractLsb' rfl).trans BitVec.extractLsb'_eq_self

theorem and_magnitudeMask (a : Word) : a &&& 0x7FFFFFFF = 0#1 ++ a.extractLsb' 0 31 := by
  conv_lhs => rw [← sign_append_magnitude a, magnitudeMask_eq, BitVec.and_append, BitVec.and_zero, BitVec.and_allOnes]

theorem and_signMask (a : Word) : a &&& 0x80000000 = a.extractLsb' 31 1 ++ 0#31 := by
  conv_lhs => rw [← sign_append_magnitude a, signMask_eq, BitVec.and_append, BitVec.and_allOnes, BitVec.and_zero]

theorem fabsOp_eq (a : Word) : fabsOp a = (a.extractLsb' 0 31).setWidth 32 := by
  rw [fabsOp, and_magnitudeMask, BitVec.setWidth_eq_append (by decide)]
  rfl

theorem fnegOp_eq (a : Word) : fnegOp a = ~~~(a.extractLsb' 31 1) ++ a.extractLsb' 0 31 := by
  conv_lhs => rw [fnegOp, ← sign_append_magnitude a, signMask_eq, BitVec.xor_append, BitVec.xor_allOnes, BitVec.xor_zero]

theorem fcopysignOp_eq (a b : Word) : fcopysignOp a b = b.extractLsb' 31 1 ++ a.extractLsb' 0 31 := by
  rw [fcopysignOp, and_magnitudeMask, and_signMask, BitVec.or_append, BitVec.zero_or, BitVec.or_zero]

/-- R150, R151 and R152, by the rows of their tables. -/
theorem floatArithmetic : FloatArithmetic := by
  refine ⟨fun r => ⟨laneTwo_of ?_, groupTwo_of ?_, laneThree_of ?_, groupThree_of ?_⟩, ?_, ?_, ?_⟩
  · simp only [floatTwo, List.forall_mem_cons, List.not_mem_nil, false_imp_iff, implies_true, and_true]
    and_intros <;> exact fun _ _ _ _ => rfl
  · simp only [floatTwo, List.forall_mem_cons, List.not_mem_nil, false_imp_iff, implies_true, and_true]
    and_intros <;> exact fun _ _ _ _ => rfl
  · exact List.forall_mem_singleton.mpr fun _ _ _ _ => rfl
  · exact List.forall_mem_singleton.mpr fun _ _ _ _ => rfl
  · rw [minMaxTable_eq]
    apply laneTwo_of
    simp only [List.forall_mem_cons, List.not_mem_nil, false_imp_iff, implies_true, and_true]
    and_intros <;> exact fun _ _ _ _ => rfl
  · rw [← funext₂ fcopysignOp_eq]
    exact laneTwo_of (List.forall_mem_singleton.mpr fun _ _ _ _ => rfl)
  · rw [← funext fabsOp_eq, ← funext fnegOp_eq]
    apply laneOne_of
    simp only [List.forall_mem_cons, List.not_mem_nil, false_imp_iff, implies_true, and_true]
    exact ⟨fun _ _ _ => rfl, fun _ _ _ => rfl⟩

/-! ## Codes (R74, R75, R86, R87) -/

theorem withSign_lt {f : Fmt} {neg : Bool} {c : Nat} (fits : c < 2 ^ (f.width - 1)) (wide : 0 < f.width) : withSign f neg c < 2 ^ f.width := by
  obtain ⟨n, width⟩ := Nat.exists_eq_add_one.mpr wide
  rw [withSign]
  rw [width, Nat.add_sub_cancel] at fits ⊢
  split <;> omega

theorem magBits_withSign {f : Fmt} {neg : Bool} {c : Nat} (fits : c < 2 ^ (f.width - 1)) : magBits f (withSign f neg c) = c := by
  rw [magBits, withSign]
  split
  · rw [Nat.add_mod_left, Nat.mod_eq_of_lt fits]
  · rw [Nat.mod_eq_of_lt fits]

theorem overflow_le (f : Fmt) (r : Mode) (neg : Bool) : overflow f r neg ≤ f.maxFinite + 1 := by
  unfold overflow
  split
  · omega
  · cases r <;> cases neg <;> simp

/-- A number rounded to a format is a sign with a finite magnitude or an infinity. -/
theorem roundTo_magnitude (f : Fmt) (r : Mode) (neg : Bool) (m : Nat) (e : Int) : ∃ c ≤ f.maxFinite + 1, roundTo f r neg m e = withSign f neg c := by
  rw [roundTo]
  split
  · exact ⟨0, Nat.zero_le _, rfl⟩
  · refine ⟨_, ?_, rfl⟩
    split
    · exact overflow_le f r neg
    · omega

theorem codeOf_magnitude (f : Fmt) (r : Mode) {x : Machine.Num} (number : x ≠ .nan) :
    ∃ neg, ∃ c ≤ f.maxFinite + 1, codeOf f r x = withSign f neg c := by
  cases x with
  | nan => exact absurd rfl number
  | inf neg =>
    refine ⟨neg, _, ?_, rfl⟩
    split <;> omega
  | fin neg m e => exact ⟨neg, roundTo_magnitude f r neg m e⟩

/-! ## Special results (R88, R89, R150) -/

@[simp] theorem toF32_nan (r : Mode) : toF32 r .nan = 0x7FC00000 := rfl

theorem f32_of_isNaN {x : Word} (nan : isNaN x = true) : f32 x = .nan := by
  have code : isNan fp32 x.toNat = true := (nan32_eq x).trans nan
  rw [f32, valueOf]
  exact if_pos code

/-- Only NaN is rounded to a NaN. -/
theorem isNaN_toF32 {r : Mode} {x : Machine.Num} (nan : isNaN (toF32 r x) = true) : toF32 r x = 0x7FC00000 := by
  by_cases number : x = .nan
  · rw [number, toF32_nan]
  · obtain ⟨neg, c, bound, code⟩ := codeOf_magnitude fp32 r number
    have fits : c < 2 ^ (fp32.width - 1) := lt_of_le_of_lt bound (by decide)
    have value : (toF32 r x).toNat = withSign fp32 neg c := by
      rw [toF32, code]
      exact BitVec.toNat_ofNat .. |>.trans (Nat.mod_eq_of_lt (withSign_lt fits (by decide)))
    have above : fp32.maxFinite + 1 < c := by
      rw [← nan32_eq, nan32, value] at nan
      have finite := of_decide_eq_true nan
      rwa [magBits_withSign fits] at finite
    omega

@[simp] theorem addNum_nan_left (r : Mode) (x : Machine.Num) : addNum r .nan x = .nan := rfl
@[simp] theorem addNum_nan_right (r : Mode) (x : Machine.Num) : addNum r x .nan = .nan := by cases x <;> rfl
@[simp] theorem mulNum_nan_left (x : Machine.Num) : mulNum .nan x = .nan := rfl
@[simp] theorem mulNum_nan_right (x : Machine.Num) : mulNum x .nan = .nan := by cases x <;> rfl

/-- R88, R89 and R150. -/
theorem floatSpecialResults : FloatSpecialResults := by
  intro m a b c
  refine ⟨fun nan => ?_, fun nan => ?_, isNaN_toF32, isNaN_toF32, by cases m <;> decide, by cases m <;> decide, ?_, by cases m <;> decide,
    by cases m <;> decide⟩
  · rcases nan with nan | nan <;> simp [fadd, fsub, fmul, ffma, f32_of_isNaN nan, negNum]
  · simp [ffma, f32_of_isNaN nan]
  · have product : mulNum (f32 0) (f32 0xFF800000) = .nan := by decide
    rw [ffma, product, addNum_nan_left, toF32_nan]

/-- Settles O6: the order of R151 is that of `orderKey` (`orderKey_lt_iff`), the sign operations act on bit 31 alone, and rounding gives a NaN for
NaN alone (`isNaN_toF32`). -/
theorem floatArithmeticAndSpecials : Obligations.FloatArithmeticAndSpecials := ⟨floatArithmetic, floatSpecialResults⟩

end Sys2Proof.Proofs.FloatingPoint
end

section
/-! Roots, approximations and conversions (R90 to R93, R153, R154, R157, R158). -/
namespace Sys2Proof.Proofs.FloatingPoint
open Sys2Proof Sys2Proof.Machine Sys2Proof.Claims Sys2Proof.Proofs.MachineState Sys2Proof.Proofs.IntegerAndLanes

/-! ## Long-latency functions (R153) -/

/-- A long-latency instruction of one source delivers its function of each enabled lane. -/
theorem issue_longOp (f : Word → Word) {d a : Fin 128} {k : Fin 16} {s : State} (h : CanIssue s) (within : Within [.v a.val, .v d.val] s)
    (some_ : laneSet s ≠ 0) : issue (Machine.longSig d a k) (longOp f d a k) s =
      .next (delivered k.val [.v d.val] [.v d (laneSet s) (Lanes.ofFn fun l => f (s.w.rdV a l))] (laneSet s) false s (past true s)) := by
  refine issue_past (Machine.longSig d a k) _ s h within rfl rfl (absurd · Bool.false_ne_true) (absurd · Bool.false_ne_true) rfl _ ?_
    ((deliveredAs_frame ..).2.trans (stores_of_canIssue (s := s) h)) (deliveredAs_frame ..).1
  exact (if_neg some_).trans (deliver_noFault (Machine.longSig d a k) ⟨false, false, 0⟩ _ s (past true s) h rfl rfl rfl rfl)

/-- Each row of R154 is the long-latency instruction of its function. -/
theorem rootTable_rows (r : Fin 4) : ∀ e ∈ rootTable r, ∀ d a k s, exec (e.1 d a k) s = issue (Machine.longSig d a k) (longOp e.2 d a k) s := by
  simp only [rootTable, List.forall_mem_cons, List.not_mem_nil, false_imp_iff, implies_true, and_true]
  and_intros <;> exact fun _ _ _ _ => rfl

/-! ## The value of a word by its magnitude (R74 to R76) -/

theorem isNaN_iff (x : Word) : isNaN x = true ↔ 0x7F800000 < x.toNat % 2 ^ 31 := by
  rw [← nan32_eq]
  exact decide_eq_true_iff

/-- A word is a NaN, an infinity or a finite number, with the sign of bit 31; only a zero has the mantissa 0. -/
theorem f32_cases (x : Word) :
    (0x7F800000 < x.toNat % 2 ^ 31 ∧ f32 x = .nan) ∨
    (x.toNat % 2 ^ 31 = 0x7F800000 ∧ f32 x = .inf x.msb) ∨
    (x.toNat % 2 ^ 31 < 0x7F800000 ∧ ∃ m e, f32 x = .fin x.msb m e ∧ (m = 0 → x.toNat % 2 ^ 31 = 0)) := by
  have sign : signBit fp32 x.toNat = x.msb := (testBit_toNat x 31).trans (BitVec.msb_eq_getLsbD_last x).symm
  have nan : isNan fp32 x.toNat = decide (0x7F800000 < x.toNat % 2 ^ 31) := rfl
  have magnitude : magBits fp32 x.toNat = x.toNat % 2 ^ 31 := rfl
  rw [f32, valueOf, nan, sign, magnitude]
  generalize x.toNat % 2 ^ 31 = mag
  rcases Nat.lt_trichotomy mag 0x7F800000 with finite | rfl | above
  · refine .inr (.inr ⟨finite, ?_⟩)
    have number : ¬ 0x7F800000 < mag ∧ ¬ 0x7F7FFFFF < mag := by omega
    simp only [number.1, decide_false, Bool.false_eq_true, if_false, show fp32.maxFinite = 0x7F7FFFFF from rfl, number.2,
      show fp32.mant = 23 from rfl]
    split
    · exact ⟨_, _, rfl, by omega⟩
    · exact ⟨_, _, rfl, by omega⟩
  · exact .inr (.inl ⟨rfl, rfl⟩)
  · exact .inl ⟨above, if_pos (decide_eq_true above)⟩

theorem f32_negative {x : Word} (negative : 0x80000000 < x) (number : isNaN x = false) :
    f32 x = .inf true ∨ ∃ m e, m ≠ 0 ∧ f32 x = .fin true m e := by
  have above : 2 ^ 31 < x.toNat := negative
  have sign : x.msb = true := BitVec.msb_eq_true_iff_two_mul_ge.mpr (by omega)
  rcases f32_cases x with ⟨large, -⟩ | ⟨-, infinite⟩ | ⟨-, m, e, finite, zero⟩
  · exact absurd ((isNaN_iff x).mpr large) (Bool.eq_false_iff.mp number)
  · exact .inl (sign ▸ infinite)
  · exact .inr ⟨m, e, fun none => by have := zero none; omega, sign ▸ finite⟩

/-! ## Special inputs of the functions (R154) -/

section nan
variable {x : Word} (nan : f32 x = .nan) (y : Word → Word)
include nan

theorem frcpWith_nan : frcpWith y x = 0x7FC00000 := by rw [frcpWith, nan]; rfl
theorem frsqWith_nan : frsqWith y x = 0x7FC00000 := by rw [frsqWith, nan]; rfl
theorem fexp2With_nan : fexp2With y x = 0x7FC00000 := by rw [fexp2With, nan]; rfl
theorem flog2With_nan : flog2With y x = 0x7FC00000 := by rw [flog2With, nan]; rfl
theorem trigWith_nan (cos : Bool) : trigWith cos y x = 0x7FC00000 := by rw [trigWith, nan]; rfl
theorem fsqrtOp_nan (r : Mode) : fsqrtOp r x = 0x7FC00000 := by rw [fsqrtOp, nan]; rfl

end nan

theorem f32_zero : f32 0 = .fin false 0 (-149) := by decide
theorem f32_negZero : f32 0x80000000 = .fin true 0 (-149) := by decide
theorem f32_inf : f32 0x7F800000 = .inf false := by decide
theorem f32_negInf : f32 0xFF800000 = .inf true := by decide
theorem f32_one : f32 0x3F800000 = .fin false (2 ^ 23) (-23) := by decide

section constants
variable (y : Word → Word)

theorem frcpWith_constants : frcpWith y 0 = 0x7F800000 ∧ frcpWith y 0x80000000 = 0xFF800000 ∧ frcpWith y 0x7F800000 = 0 ∧
    frcpWith y 0xFF800000 = 0x80000000 := by
  simp only [frcpWith, f32_zero, f32_negZero, f32_inf, f32_negInf, if_true, Bool.false_eq_true, if_false, and_self]

theorem frsqWith_constants : frsqWith y 0 = 0x7F800000 ∧ frsqWith y 0x80000000 = 0xFF800000 ∧ frsqWith y 0x7F800000 = 0 := by
  simp only [frsqWith, f32_zero, f32_negZero, f32_inf, if_true, Bool.false_eq_true, if_false, and_self]

theorem fsqrtOp_constants (r : Mode) : fsqrtOp r 0x80000000 = 0x80000000 ∧ fsqrtOp r 0x7F800000 = 0x7F800000 := by
  simp only [fsqrtOp, f32_negZero, f32_inf, if_true, Bool.false_eq_true, if_false, and_self]

theorem fexp2With_constants : fexp2With y 0 = 0x3F800000 ∧ fexp2With y 0x80000000 = 0x3F800000 ∧ fexp2With y 0x7F800000 = 0x7F800000 ∧
    fexp2With y 0xFF800000 = 0 := by
  simp only [fexp2With, f32_zero, f32_negZero, f32_inf, f32_negInf, if_true, Bool.false_eq_true, if_false, and_self]

theorem flog2With_constants : flog2With y 0 = 0xFF800000 ∧ flog2With y 0x80000000 = 0xFF800000 ∧ flog2With y 0x7F800000 = 0x7F800000 ∧
    flog2With y 0x3F800000 = 0 := by
  refine ⟨?_, ?_, ?_, ?_⟩
  case refine_4 =>
    rw [flog2With, f32_one]
    exact (if_neg (by decide)).trans ((if_neg Bool.false_ne_true).trans ((if_pos (by decide)).trans (by decide)))
  all_goals simp only [flog2With, f32_zero, f32_negZero, f32_inf, if_true, Bool.false_eq_true, if_false]

end constants

section negative
variable {x : Word} (negative : f32 x = .inf true ∨ ∃ m e, m ≠ 0 ∧ f32 x = .fin true m e) (y : Word → Word)
include negative

theorem frsqWith_negative : frsqWith y x = 0x7FC00000 := by
  rcases negative with value | ⟨m, e, some_, value⟩ <;> rw [frsqWith, value]
  · rfl
  · exact (if_neg some_).trans (if_pos rfl)

theorem flog2With_negative : flog2With y x = 0x7FC00000 := by
  rcases negative with value | ⟨m, e, some_, value⟩ <;> rw [flog2With, value]
  · rfl
  · exact (if_neg some_).trans (if_pos rfl)

theorem fsqrtOp_negative (r : Mode) : fsqrtOp r x = 0x7FC00000 := by
  rcases negative with value | ⟨m, e, some_, value⟩ <;> rw [fsqrtOp, value]
  · rfl
  · exact (if_neg some_).trans (if_pos rfl)

end negative

theorem trigWith_small {x : Word} (small : x.toNat % 2 ^ 31 ≤ 0x39800000) (cos : Bool) (y : Word → Word) :
    trigWith cos y x = if cos then 0x3F800000 else x := by
  rcases f32_cases x with ⟨large, -⟩ | ⟨large, -⟩ | ⟨-, m, e, value, -⟩
  · omega
  · omega
  · rw [trigWith, value]
    exact if_pos small

theorem trigWith_inf {x : Word} (infinite : x.toNat % 2 ^ 31 = 0x7F800000) (cos : Bool) (y : Word → Word) : trigWith cos y x = 0x7FC00000 := by
  rcases f32_cases x with ⟨large, -⟩ | ⟨-, value⟩ | ⟨finite, -⟩
  · omega
  · rw [trigWith, value]
    rfl
  · omega

/-- R153 and R154. -/
theorem rootsAndApproximations : RootsAndApproximations := by
  refine ⟨fun r e he d a k s h within some_ => ?_, fun r e he x nan => ?_, frcpWith_constants _, frsqWith_constants _, fsqrtOp_constants,
    fun x negative number => ?_, fexp2With_constants _, flog2With_constants _, fun x small => ?_, fun x infinite => ?_⟩
  · rw [rootTable_rows r e he d a k s]
    exact issue_longOp e.2 h within some_
  · have value := f32_of_isNaN nan
    revert e
    simp only [rootTable, List.forall_mem_cons, List.not_mem_nil, false_imp_iff, implies_true, and_true]
    exact ⟨frcpWith_nan value _, frsqWith_nan value _, fsqrtOp_nan value _, fexp2With_nan value _, flog2With_nan value _,
      trigWith_nan value _ false, trigWith_nan value _ true⟩
  · have value := f32_negative negative number
    exact ⟨frsqWith_negative value _, fsqrtOp_negative value, flog2With_negative value _⟩
  · have magnitude : x.toNat % 2 ^ 31 ≤ 0x39800000 := (toNat_magnitude x).symm.trans_le small
    exact ⟨trigWith_small magnitude false _, trigWith_small magnitude true _⟩
  · have magnitude : x.toNat % 2 ^ 31 = 0x7F800000 := (toNat_magnitude x).symm.trans (congrArg BitVec.toNat infinite)
    exact ⟨trigWith_inf magnitude false _, trigWith_inf magnitude true _⟩

end Sys2Proof.Proofs.FloatingPoint
end

section
/-! Conversions (R90 to R93, R156 to R158): each element fits its width, and the elements of a register stand beside each other. -/
namespace Sys2Proof.Proofs.FloatingPoint
open Sys2Proof Sys2Proof.Machine Sys2Proof.Claims Sys2Proof.Proofs.MachineState Sys2Proof.Proofs.IntegerAndLanes

/-! ## A code fits its width (R74, R90 to R93) -/

/-- The codes of a format's infinities and NaNs lie below its sign bit. -/
structure SoundFormat (f : Fmt) : Prop where
  wide : 0 < f.width
  infinity : f.maxFinite + 1 < 2 ^ (f.width - 1)
  nan : f.nan < 2 ^ (f.width - 1)
  payload : f.hasInf = true → f.maxFinite + 1 + 2 ^ f.mant ≤ 2 ^ (f.width - 1)
  mantissa : f.mant ≠ 0 ∧ f.mant ≤ 23

theorem fmtOf_sound (c : Nat) : SoundFormat (fmtOf c) := by
  unfold fmtOf
  split <;> constructor <;> decide

theorem roundTo_lt {f : Fmt} (sound : SoundFormat f) (r : Mode) (neg : Bool) (m : Nat) (e : Int) : roundTo f r neg m e < 2 ^ f.width := by
  obtain ⟨c, bound, code⟩ := roundTo_magnitude f r neg m e
  rw [code]
  exact withSign_lt (bound.trans_lt sound.infinity) sound.wide

theorem codeOf_lt {f : Fmt} (sound : SoundFormat f) (r : Mode) (x : Machine.Num) : codeOf f r x < 2 ^ f.width := by
  by_cases number : x = .nan
  · rw [number]
    exact sound.nan.trans_le (Nat.pow_le_pow_right (by decide) (Nat.sub_le _ _))
  · obtain ⟨neg, c, bound, code⟩ := codeOf_magnitude f r number
    rw [code]
    exact withSign_lt (bound.trans_lt sound.infinity) sound.wide

theorem widen_lt {f : Fmt} (sound : SoundFormat f) (x : Nat) : widen f x < 2 ^ 32 := by
  unfold widen
  split
  · refine withSign_lt (f := fp32) ?_ (by decide)
    split
    · have payload : x % 2 ^ f.mant * 2 ^ (23 - f.mant) < 2 ^ f.mant * 2 ^ (23 - f.mant) :=
        Nat.mul_lt_mul_of_pos_right (Nat.mod_lt _ (Nat.two_pow_pos _)) (Nat.two_pow_pos _)
      rw [← Nat.pow_add, Nat.add_sub_cancel' sound.mantissa.2] at payload
      show _ < 2 ^ 31
      omega
    · decide
  · exact codeOf_lt (fmtOf_sound 0) .nearest _

theorem narrow_lt {f : Fmt} (sound : SoundFormat f) (r : Mode) (x : Nat) : narrow f r x < 2 ^ f.width := by
  unfold narrow
  split
  · refine withSign_lt ?_ sound.wide
    split
    case isTrue infinite =>
      have room := sound.payload infinite
      have one : 1 < 2 ^ f.mant := Nat.one_lt_two_pow sound.mantissa.1
      have payload : x % 2 ^ 23 / 2 ^ (23 - f.mant) < 2 ^ f.mant := by
        rw [Nat.div_lt_iff_lt_mul (Nat.two_pow_pos _), ← Nat.pow_add, Nat.add_sub_cancel' sound.mantissa.2]
        exact Nat.mod_lt _ (by decide)
      split <;> omega
    case isFalse => exact sound.nan
  · exact codeOf_lt sound r _

theorem toInt_lt {n : Nat} (some_ : 0 < n) (r : Mode) (x : Nat) : toInt n r x < 2 ^ n := by
  obtain ⟨k, rfl⟩ := Nat.exists_eq_add_one.mpr some_
  have half : 0 < 2 ^ k := Nat.two_pow_pos k
  unfold toInt
  rw [Nat.add_sub_cancel]
  split
  · omega
  · split <;> omega
  · simp only []
    split_ifs
    case neg => exact Nat.mod_lt _ (Nat.two_pow_pos _)
    all_goals omega

theorem ofInt_lt (n : Nat) (r : Mode) (x : Nat) : ofInt n r x < 2 ^ 32 := by
  unfold ofInt
  split
  · exact roundTo_lt (fmtOf_sound 0) ..
  · exact roundTo_lt (fmtOf_sound 0) ..

/-- The width of a format by its code is the width of its codes. -/
theorem width_fmtOf : ∀ {c : Nat}, c ≠ 5 → (fmtOf c).width = fmtWidth c
  | 0, _ | 1, _ | 2, _ | 3, _ | 4, _ => rfl
  | 5, word => absurd rfl word
  | _ + 6, _ => rfl

theorem convert_lt (x y : Nat) (r : Mode) {c : Nat} (source : c < 2 ^ fmtWidth x) : convert x y r c < 2 ^ fmtWidth y := by
  unfold convert
  simp only []
  split
  case isTrue word =>
    subst word
    split
    case isTrue same => exact same ▸ source
    case isFalse =>
      split_ifs
      · exact ofInt_lt ..
      · exact ofInt_lt ..
      · exact widen_lt (fmtOf_sound x) c
  case isFalse =>
    split
    case isTrue word =>
      subst word
      exact toInt_lt (n := 32) (by decide) ..
    case isFalse other =>
      split
      case isTrue octet =>
        subst octet
        exact toInt_lt (n := 8) (by decide) ..
      case isFalse => exact width_fmtOf other ▸ narrow_lt (fmtOf_sound y) ..

/-! ## Fields beside each other -/

/-- Fields of one width, the first lowest. -/
theorem foldl_fields {w : Nat} {f : Nat → Nat} (fits : ∀ j, f j < 2 ^ w) (m : Nat) :
    (List.range m).foldl (fun z j => z + f j * 2 ^ (w * j)) 0 < 2 ^ (w * m) ∧
      ∀ j < m, bitsOf ((List.range m).foldl (fun z j => z + f j * 2 ^ (w * j)) 0) (w * j) w = f j := by
  induction m with
  | zero => simp
  | succ m ih =>
    obtain ⟨bound, fields⟩ := ih
    rw [List.range_succ, List.foldl_append, List.foldl_cons, List.foldl_nil]
    generalize (List.range m).foldl (fun z j => z + f j * 2 ^ (w * j)) 0 = z at bound fields ⊢
    refine ⟨?_, fun j hj => ?_⟩
    · calc z + f m * 2 ^ (w * m) < 2 ^ (w * m) + f m * 2 ^ (w * m) := by omega
        _ = (f m + 1) * 2 ^ (w * m) := by ring
        _ ≤ 2 ^ w * 2 ^ (w * m) := Nat.mul_le_mul_right _ (fits m)
        _ = 2 ^ (w * (m + 1)) := by ring
    · rcases Nat.lt_succ_iff_lt_or_eq.mp hj with lower | rfl
      · obtain ⟨k, rfl⟩ := Nat.exists_eq_add_of_lt lower
        have split_ : f (j + k + 1) * 2 ^ (w * (j + k + 1)) = 2 ^ (w * j) * (2 ^ w * (f (j + k + 1) * 2 ^ (w * k))) := by ring
        rw [← fields j lower, bitsOf, bitsOf, split_, Nat.add_mul_div_left _ _ (Nat.two_pow_pos _), Nat.add_mul_mod_self_left]
      · rw [bitsOf, Nat.add_mul_div_right _ _ (Nat.two_pow_pos _), Nat.div_eq_of_lt bound, Nat.zero_add, Nat.mod_eq_of_lt (fits _)]

/-! ## Registers from a first one -/

section span
variable (d : Fin 128) (m : Mask) (f : Nat → Fin 32 → Word)

/-- Writes of registers change the lane registers alone. -/
theorem foldl_wrV_frame (is : List Nat) (w : Wave) : is.foldl (fun w i => w.wrV (above d i) m (f i)) w =
    { w with v := (is.foldl (fun w i => w.wrV (above d i) m (f i)) w).v } := by
  induction is generalizing w with
  | nil => rfl
  | cons i is ih => exact (ih (w.wrV (above d i) m (f i))).trans rfl

theorem foldl_wrV_none (is : List Nat) (w : Wave) : is.foldl (fun w i => w.wrV (above d i) 0#32 (f i)) w = w := by
  induction is with
  | nil => rfl
  | cons i is ih => rw [List.foldl_cons, Wave.wrV_zero, ih]

/-- A register after the writes of a span that does not pass v127. -/
theorem rdV_foldl_wrV {n : Nat} (fits : d.val + n ≤ 128) (w : Wave) (c : Fin 128) (l : Fin 32) :
    ((List.range n).foldl (fun w i => w.wrV (above d i) m (f i)) w).rdV c l =
      if (d.val ≤ c.val ∧ c.val < d.val + n) ∧ bit m l = true then f (c.val - d.val) l else w.rdV c l := by
  induction n with
  | zero => simp
  | succ n ih =>
    have place_ : (above d n).val = d.val + n := Nat.mod_eq_of_lt (by omega)
    rw [List.range_succ, List.foldl_append, List.foldl_cons, List.foldl_nil, Wave.rdV_wrV, ih (by omega)]
    have last : c = above d n ↔ c.val = d.val + n := by rw [Fin.ext_iff, place_]
    simp only [last]
    by_cases lane : bit m l = true
    · simp only [lane, and_true]
      rcases Nat.lt_trichotomy c.val (d.val + n) with lower | same | higher
      · rw [if_neg lower.ne]
        exact if_congr (by omega) rfl rfl
      · rw [if_pos same, if_pos (by omega), same, Nat.add_sub_cancel_left]
      · rw [if_neg higher.ne', if_neg (by omega), if_neg (by omega)]
    · rw [if_neg fun h => lane h.2, if_neg fun h => lane h.2, if_neg fun h => lane h.2]

end span

/-! ## Elements (R157, R158) -/

theorem fmtWidth_cases (c : Nat) : fmtWidth c = 8 ∨ fmtWidth c = 16 ∨ fmtWidth c = 32 := by
  unfold fmtWidth
  split <;> simp

theorem cvtCount_comm (x y : Nat) : cvtCount x y = cvtCount y x := by rw [cvtCount, Nat.min_comm, cvtCount]

/-- A register holds a whole number of elements, and so do the registers of an operand. -/
theorem fields_mul_width (y : Nat) : 32 / fmtWidth y * fmtWidth y = 32 := by
  rcases fmtWidth_cases y with wy | wy | wy <;> rw [wy]

theorem fields_dvd_count (x y : Nat) : 32 / fmtWidth y ∣ cvtCount x y := by
  unfold cvtCount
  rcases fmtWidth_cases x with wx | wx | wx <;> rcases fmtWidth_cases y with wy | wy | wy <;> rw [wx, wy] <;> decide

/-- An operand takes one, two or four registers. -/
theorem registers_cases (x y : Nat) :
    cvtCount x y * fmtWidth y / 32 = 1 ∨ cvtCount x y * fmtWidth y / 32 = 2 ∨ cvtCount x y * fmtWidth y / 32 = 4 := by
  unfold cvtCount
  rcases fmtWidth_cases x with wx | wx | wx <;> rcases fmtWidth_cases y with wy | wy | wy <;> rw [wx, wy] <;> decide

/-- An aligned operand does not pass v127. -/
theorem span_fits {x y : Nat} {d : Fin 128} (aligned : d.val % (cvtCount x y * fmtWidth y / 32) = 0) :
    d.val + cvtCount x y * fmtWidth y / 32 ≤ 128 := by
  rcases registers_cases x y with n | n | n <;> rw [n] at aligned ⊢ <;> omega

/-- The register of an element and its place there. -/
theorem element_register (y k : Nat) : k * fmtWidth y / 32 = k / (32 / fmtWidth y) := by
  have positive : 0 < fmtWidth y := by rcases fmtWidth_cases y with wy | wy | wy <;> omega
  conv_lhs => rw [← fields_mul_width y]
  exact Nat.mul_div_mul_right _ _ positive

theorem element_offset (y k : Nat) : k * fmtWidth y % 32 = fmtWidth y * (k % (32 / fmtWidth y)) := by
  conv_lhs => rw [← fields_mul_width y]
  rw [Nat.mul_mod_mul_right, Nat.mul_comm]

theorem element_register_lt {x y k : Nat} (hk : k < cvtCount x y) : k * fmtWidth y / 32 < cvtCount x y * fmtWidth y / 32 := by
  rw [element_register, element_register]
  exact Nat.div_lt_div_of_lt_of_dvd (fields_dvd_count x y) hk

theorem element_lt (w : Wave) (a : Fin 128) (n k : Nat) (l : Fin 32) : element w a n k l < 2 ^ n := Nat.mod_lt _ (Nat.two_pow_pos n)

/-- Register i of a conversion in a lane (R158). -/
def convertedWord (w : Wave) (a : Fin 128) (y x : Nat) (r : Mode) (i : Nat) (l : Fin 32) : Word :=
  BitVec.ofNat 32 ((List.range (32 / fmtWidth y)).foldl (fun z j =>
    let k := i * (32 / fmtWidth y) + j
    if k < cvtCount x y then z + convert x y r (element w a (fmtWidth x) k l) * 2 ^ (fmtWidth y * j) else z) 0)

/-- Field j of register i of a conversion in a lane: a converted element, and 0 above the last. -/
def convertedField (w : Wave) (a : Fin 128) (y x : Nat) (r : Mode) (i : Nat) (l : Fin 32) (j : Nat) : Nat :=
  if i * (32 / fmtWidth y) + j < cvtCount x y then convert x y r (element w a (fmtWidth x) (i * (32 / fmtWidth y) + j) l) else 0

theorem convertedWord_eq (w : Wave) (a : Fin 128) (y x : Nat) (r : Mode) (i : Nat) (l : Fin 32) : convertedWord w a y x r i l =
    BitVec.ofNat 32 ((List.range (32 / fmtWidth y)).foldl (fun z j => z + convertedField w a y x r i l j * 2 ^ (fmtWidth y * j)) 0) := by
  unfold convertedWord convertedField
  congr 2
  funext z j
  simp only [ite_mul, Nat.zero_mul]
  split <;> rfl

theorem convertedField_lt (w : Wave) (a : Fin 128) (y x : Nat) (r : Mode) (i : Nat) (l : Fin 32) (j : Nat) :
    convertedField w a y x r i l j < 2 ^ fmtWidth y := by
  unfold convertedField
  split
  · exact convert_lt x y r (element_lt ..)
  · exact Nat.two_pow_pos _

/-- The registers of a conversion. -/
def convertedWave (d a : Fin 128) (y x : Nat) (r : Mode) (en : Mask) (s w : Wave) : Wave :=
  (List.range (cvtCount x y * fmtWidth y / 32)).foldl (fun w i => w.wrV (above d i) en (convertedWord s a y x r i)) w

/-- Field j of a converted register is its converted element. -/
theorem bitsOf_convertedWord (w : Wave) (a : Fin 128) (y x : Nat) (r : Mode) {i j : Nat} (l : Fin 32) (hj : j < 32 / fmtWidth y)
    (hk : i * (32 / fmtWidth y) + j < cvtCount x y) :
    bitsOf (convertedWord w a y x r i l).toNat (fmtWidth y * j) (fmtWidth y) =
      convert x y r (element w a (fmtWidth x) (i * (32 / fmtWidth y) + j) l) := by
  obtain ⟨bound, fields⟩ := foldl_fields (convertedField_lt w a y x r i l) (32 / fmtWidth y)
  rw [Nat.mul_comm, fields_mul_width] at bound
  rw [convertedWord_eq, BitVec.toNat_ofNat, Nat.mod_eq_of_lt bound, fields j hj]
  exact if_pos hk

/-- A conversion of a run that is ready. -/
theorem issue_cvt {d a : Fin 128} {y x : Nat} {r : Mode} {s : State} (h : CanIssue s)
    (within : Within (vSpan a (cvtCount x y * fmtWidth x / 32) ++ vSpan d (cvtCount x y * fmtWidth y / 32)) s) :
    issue (cvtSig d a y x) (cvtBody d a y x r) s = .next ((past true s).modW (convertedWave d a y x r (laneSet s) s.w)) :=
  issue_lane h within (fun none w => none ▸ foldl_wrV_none d _ _ w) rfl

/-- Elements and untouched registers of a conversion (R158). -/
theorem element_convertedWave {d a : Fin 128} {y x : Nat} {r : Mode} {en : Mask} {s w : Wave}
    (aligned : d.val % (cvtCount x y * fmtWidth y / 32) = 0) {l : Fin 32} (on : bit en l = true) {k : Nat} (hk : k < cvtCount x y) :
    element (convertedWave d a y x r en s w) d (fmtWidth y) k l = convert x y r (element s a (fmtWidth x) k l) := by
  have fits := span_fits aligned
  have register := element_register_lt hk
  have index : (above d (k * fmtWidth y / 32)).val = d.val + k * fmtWidth y / 32 := Nat.mod_eq_of_lt (by omega)
  have place_ : k / (32 / fmtWidth y) * (32 / fmtWidth y) + k % (32 / fmtWidth y) = k := Nat.div_add_mod' ..
  have inside : k % (32 / fmtWidth y) < 32 / fmtWidth y :=
    Nat.mod_lt _ (Nat.pos_of_ne_zero fun none => by have := fields_mul_width y; rw [none] at this; omega)
  have field := bitsOf_convertedWord s a y x r (i := k / (32 / fmtWidth y)) l inside (by rwa [place_])
  rw [element, convertedWave, rdV_foldl_wrV d en _ fits, index, if_pos ⟨by omega, on⟩, Nat.add_sub_cancel_left, element_register, element_offset,
    field, place_]

theorem rdV_convertedWave {d a : Fin 128} {y x : Nat} {r : Mode} {en : Mask} {s w : Wave}
    (aligned : d.val % (cvtCount x y * fmtWidth y / 32) = 0) {l : Fin 32} {c : Fin 128}
    (apart : bit en l = false ∨ c.val < d.val ∨ d.val + cvtCount x y * fmtWidth y / 32 ≤ c.val) :
    (convertedWave d a y x r en s w).rdV c l = w.rdV c l := by
  rw [convertedWave, rdV_foldl_wrV d en _ (span_fits aligned), if_neg]
  rintro ⟨span, on⟩
  rcases apart with off | before | behind
  · exact Bool.false_ne_true (off.symm.trans on)
  · omega
  · omega

/-- A well-formed conversion is its form, and its destination is aligned (R156, R157). -/
theorem exec_cvt : ∀ e ∈ [(Instr.cvtf : Fin 128 → Fin 128 → Fin 8 → Fin 8 → Fin 4 → Instr), Instr.cvti], ∀ d a y x r s,
    exec (e d a y x r) s = issue (cvtSig d a y.val x.val) (cvtBody d a y.val x.val (modeOf r)) s ∧
    ((e d a y x r).check = none → d.val % (cvtCount x.val y.val * fmtWidth y.val / 32) = 0) := by
  have checked {p : Prop} [Decidable p] {x y : Nat} {d a : Fin 128} {e e' : Reject}
      (ok : limit p e (limit (cvtAligned x y a.val d.val) e' none) = none) : d.val % (cvtCount x y * fmtWidth y / 32) = 0 := by
    have aligned : cvtAligned x y a.val d.val = true := by
      by_contra odd_
      simp only [limit, odd_, if_false] at ok
      split at ok <;> cases ok
    exact beq_iff_eq.mp (Bool.and_eq_true_iff.mp aligned).2
  simp only [List.forall_mem_cons, List.not_mem_nil, false_imp_iff, implies_true, and_true]
  exact ⟨fun _ _ _ _ _ _ => ⟨rfl, checked⟩, fun _ _ _ _ _ _ => ⟨rfl, checked⟩⟩

/-- R157 and R158. -/
theorem conversions : Claims.Conversions := by
  intro e he d a y x r s h ok
  rw [cvtCount_comm]
  intro n nd within
  obtain ⟨form, aligned⟩ := exec_cvt e he d a y x r s
  refine ⟨_, form.trans (issue_cvt h within), ?_, fun l on k hk => element_convertedWave (aligned ok) on hk, fun l c apart =>
    rdV_convertedWave (aligned ok) apart⟩
  exact WaveControl.modW_congr (foldl_wrV_frame ..)

/-- Settles O7: a special input decides each function before its approximation is asked (`f32_cases`), and the elements of a conversion fit their
fields (`convert_lt`, `foldl_fields`), so that reading a field gives its element back. -/
theorem rootsAndConversions : Obligations.RootsAndConversions := ⟨rootsAndApproximations, conversions⟩

end Sys2Proof.Proofs.FloatingPoint
end

section
/-! Shared-exponent blocks and checksums (R159 to R164). -/
namespace Sys2Proof.Proofs.FloatingPoint
open Sys2Proof Sys2Proof.Machine Sys2Proof.Claims Sys2Proof.Proofs.MachineState Sys2Proof.Proofs.IntegerAndLanes

/-! ## Shared-exponent blocks (R159, R160) -/

theorem take_laneList {n : Nat} (hn : n ≤ 32) : laneList.take n = (List.range n).map (Fin.ofNat 32) := by
  have table : ∀ n : Fin 33, laneList.take n.val = (List.range n.val).map (Fin.ofNat 32) := by decide
  exact table ⟨n, by omega⟩

theorem drop_laneList : laneList.drop 16 = (List.range 16).map fun i => Fin.ofNat 32 (16 + i) := by decide

@[simp] theorem past_other (k : Bool) (s : State) (a : Fin 128) (l : Fin 32) : (past k s).w.other a l = s.w.other a l := rfl

/-- The stream of sbpack: the block of the lower lanes below that of the upper lanes. -/
theorem packed_eq (k : Nat) (w : Wave) (a : Fin 128) : packed k w a =
    sbEncode k ((laneList.map fun l => (w.other a l).toNat).take 16) +
      sbEncode k ((laneList.map fun l => (w.other a l).toNat).drop 16) * 2 ^ (8 * sbBytes k) := by
  rw [← List.map_take, ← List.map_drop, take_laneList (by decide), drop_laneList, List.map_map, List.map_map, Nat.mul_comm (sbEncode k _)]
  rfl

/-- A word of a number. -/
theorem ofNat_bitsOf (x lo : Nat) : BitVec.ofNat 32 (bitsOf x lo 32) = BitVec.ofNat 32 (x / 2 ^ lo) := by
  rw [bitsOf]
  exact BitVec.eq_of_toNat_eq (by simp)

theorem sbpackBody_past {k : Nat} {d a : Fin 128} {s : State} (settled : Settled (.v a.val) (fun _ => True) s) :
    sbpackBody k d a (execOf true s) (past true s) = (past true s).modW fun w => w.wrV d (laneSet s) fun l =>
      if 4 * l.val < 2 * sbBytes k then BitVec.ofNat 32 (packed k s.w a / 2 ^ (32 * l.val)) else 0 := by
  rw [sbpackBody, vReg, whenClear_settled settled fun _ _ => trivial]
  simp only [past_other, ← packed_eq, ofNat_bitsOf]
  rfl

/-- Digits of a base folded from the last are their sum, the first lowest. -/
theorem foldr_digits {digit sum : Nat → Nat} {b : Nat} (none : sum 0 = 0) (more : ∀ n, sum (n + 1) = sum n + digit n * b ^ n) (n z : Nat) :
    (List.range n).foldr (fun i z => digit i + z * b) z = sum n + z * b ^ n := by
  induction n generalizing z with
  | zero => simp [none]
  | succ n ih =>
    rw [List.range_succ, List.foldr_append, ih, more, List.foldr_cons, List.foldr_nil]
    ring

/-- The stream of sbunp: the words of the lowest lanes, the first lowest. -/
theorem streamOf_eq (w : Wave) (a : Fin 128) {n : Nat} (hn : n ≤ 32) :
    (laneList.take n).foldr (fun l z => (w.other a l).toNat + z * 2 ^ 32) 0 = streamOf w a n := by
  have more (n : Nat) : streamOf w a (n + 1) = streamOf w a n + (w.other a (Fin.ofNat 32 n)).toNat * (2 ^ 32) ^ n := by
    rw [streamOf, Nat.pow_mul]
    rfl
  rw [take_laneList hn, List.foldr_map, foldr_digits rfl more, Nat.zero_mul, Nat.add_zero]

theorem sbunpBody_past {k : Nat} (short : (2 * sbBytes k + 3) / 4 ≤ 32) {d a : Fin 128} {s : State}
    (settled : Settled (.v a.val) (fun j => 4 * j.val < 2 * sbBytes k) s) :
    sbunpBody k d a (execOf true s) (past true s) = (past true s).modW fun w => w.wrV d (laneSet s) fun l =>
      toF32 .nearest (sbValue k (streamOf s.w a ((2 * sbBytes k + 3) / 4) / 2 ^ (8 * sbBytes k * (l.val / 16)) % 2 ^ (8 * sbBytes k)) (l.val % 16)) := by
  have lanes (l : Fin 32) (low : bit (lanesBelow ((2 * sbBytes k + 3) / 4)) l = true) : 4 * l.val < 2 * sbBytes k := by
    have below : l.val < (2 * sbBytes k + 3) / 4 := by simpa [lanesBelow] using low
    omega
  simp only [sbunpBody]
  rw [vReg, whenClear_settled settled lanes]
  simp only [past_other, streamOf_eq s.w a short, bitsOf]
  rfl

/-- Each form of R159 and R160 by its magnitude bits; the stream of two blocks stands in fewer lanes than a wave has. -/
theorem sbpack_rows : ∀ e ∈ [((.sbpackSb3, 2) : (Fin 128 → Fin 128 → Instr) × Nat), (.sbpackSb5, 4), (.sbpackSb8, 7)], ∀ d a s,
    exec (e.1 d a) s = issue (lane2 d a) (sbpackBody e.2 d a) s := by
  simp only [List.forall_mem_cons, List.not_mem_nil, false_imp_iff, implies_true, and_true]
  and_intros <;> exact fun _ _ _ => rfl

theorem sbunp_rows : ∀ e ∈ [((.sbunpSb3, 2) : (Fin 128 → Fin 128 → Instr) × Nat), (.sbunpSb5, 4), (.sbunpSb8, 7)],
    (2 * sbBytes e.2 + 3) / 4 ≤ 32 ∧ ∀ d a s, exec (e.1 d a) s = issue (lane2 d a) (sbunpBody e.2 d a) s := by
  simp only [List.forall_mem_cons, List.not_mem_nil, false_imp_iff, implies_true, and_true]
  exact ⟨⟨by decide, fun _ _ _ => rfl⟩, ⟨by decide, fun _ _ _ => rfl⟩, by decide, fun _ _ _ => rfl⟩

/-- R159 and R160. -/
theorem sharedExponentBlocks : SharedExponentBlocks := by
  refine ⟨fun e he d a s h within settled => ?_, fun e he d a s h within settled => ?_⟩
  · rw [sbpack_rows e he d a s]
    exact issue_wrV h within (sbpackBody_past settled)
  · obtain ⟨short, form⟩ := sbunp_rows e he
    rw [form d a s]
    exact issue_wrV h within (sbunpBody_past short settled)

/-! ## Checksums (R161, R163, R164) -/

theorem rdH_eq (h : Fin 4) (w : Wave) : w.rdH h.val = w.h[h] := dif_pos h.isLt
theorem wrH_eq (h : Fin 4) (x : DWord) (w : Wave) : w.wrH h.val x = { w with h := w.h.set h.val x } := dif_pos h.isLt

/-- A pair is its high word above its low word (R13). -/
theorem pairOf_eq_append (lo hi : Word) : pairOf lo hi = hi ++ lo := by
  apply BitVec.eq_of_getLsbD_eq
  intro i inside
  rw [pairOf]
  simp only [BitVec.getLsbD_or, BitVec.getLsbD_shiftLeft, BitVec.getLsbD_setWidth, BitVec.getLsbD_append]
  by_cases low : i < 32
  · simp [low, inside]
  · simp [low, inside, BitVec.getLsbD_of_ge lo i (by omega), show i - 32 < 64 by omega]

theorem loWord_eq (x : DWord) : loWord x = x.extractLsb' 0 32 := BitVec.setWidth_eq_extractLsb' (by decide)

theorem hiWord_eq (x : DWord) : hiWord x = x.extractLsb' 32 32 := by
  apply BitVec.eq_of_getLsbD_eq
  intro i inside
  simp [hiWord, inside]

/-- One word folded into a checksum register (R161). -/
theorem foldWord_eq (x : DWord) (w : Word) :
    foldWord x w = ((x.extractLsb' 32 32).rotateLeft 1 ^^^ w) ++ (x.extractLsb' 0 32 + w) := by
  rw [foldWord, pairOf_eq_append, loWord_eq, hiWord_eq]

/-- ck.acc folds the words of each enabled lane into the register that stands. -/
theorem issue_ckAcc (c : Fin 4) {reads : List Reg} (words : Wave → Fin 32 → List Word) {s : State} (h : CanIssue s) (within : Within reads s)
    (some_ : laneSet s ≠ 0) :
    issue { reads := reads } (ckAccBody (c.castLE (by decide)) words) s = .next ((past true s).modW fun w =>
      { w with h := w.h.set c.val ((lanesOf (laneSet s)).foldl (fun x l => (words (past true s).w l).foldl foldWord x) s.w.h[c]) }) := by
  refine issue_lane (writes := []) h (within_append within (within_nil s)) (absurd · some_) (WaveControl.modW_congr ?_)
  simp only [Fin.val_castLE, wrH_eq, rdH_eq, List.foldl_flatMap]
  rfl

/-- The difference that ck.chk finds. -/
def ckDifference (a b : Fin 4) (w : Wave) : DWord := w.h[a] ^^^ w.h[b]

/-- ck.chk of equal parts passes; another parks its run behind it with the difference (R164). -/
theorem ckChkBody_past (m : Nat) (b a : Fin 4) (s : State) : ckChkBody m b.val a.val (execOf false s) (past false s) =
    if ckDifference a b s.w &&& chkMask m = 0 then past false s else park s.iss.run (fun l =>
      { cause := 0x30, addr := ckDifference a b s.w, pc := s.iss.pc.setWidth 64, entry := ((past false s).w.pc[l]).setWidth 64,
        guard := s.w.guard[l], guardAt := s.w.guard[l], enabled := true, passed := true }) (past false s) := by
  have difference : (past false s).w.rdH a.val ^^^ (past false s).w.rdH b.val = ckDifference a b s.w := by
    rw [rdH_eq, rdH_eq]
    rfl
  simp only [ckChkBody, difference, WaveControl.entryWord_ready]
  rfl

theorem exec_ckChk {m : Fin 3} {b a : Fin 4} {s : State} (h : CanIssue s) :
    exec (.ckChk (m.castLE (by decide)) b (a.castLE (by decide))) s =
      .next (ckChkBody m.val b.val a.val (execOf false s) (past false s)) := by
  refine issue_group { perLane := false } _ s h rfl (within_nil s) rfl rfl (absurd · Bool.false_ne_true) (absurd · Bool.false_ne_true) rfl _ rfl ?_ ?_ <;>
    rw [ckChkBody_past] <;> split
  · exact stores_of_canIssue (s := s) h
  · exact (park_stores ..).trans (stores_of_canIssue (s := s) h)
  · rfl
  · exact park_mem ..

/-- Both outcomes of ck.chk by the part that its mode compares (R163, R164). -/
theorem ckChk_cases {m : Fin 3} {b a : Fin 4} {s : State} (h : CanIssue s) {part : DWord} (compared : chkMask m.val = part) :
    (ckDifference a b s.w &&& part = 0 → exec (.ckChk (m.castLE (by decide)) b (a.castLE (by decide))) s = .next (past false s)) ∧
    (ckDifference a b s.w &&& part ≠ 0 → s.iss.run &&& s.w.handlerLanes = 0 →
      exec (.ckChk (m.castLE (by decide)) b (a.castLE (by decide))) s = .next (park s.iss.run (fun l =>
        { cause := 0x30, addr := ckDifference a b s.w, pc := s.iss.pc.setWidth 64, entry := ((past false s).w.pc[l]).setWidth 64,
          guard := s.w.guard[l], guardAt := s.w.guard[l], enabled := true, passed := true }) (past false s))) := by
  rw [exec_ckChk h, ckChkBody_past, compared]
  exact ⟨fun same => congrArg _ (if_pos same), fun differs _ => congrArg _ (if_neg differs)⟩

/-- R161, R163 and R164. -/
theorem checksums : Checksums := by
  refine ⟨?_, ?_⟩
  · intro c a s h some_ fold en
    have folds : foldWord = fold := funext₂ foldWord_eq
    rw [← folds]
    exact ⟨fun within => issue_ckAcc c (fun w l => [w.rdV a l]) h within some_,
      fun within => issue_ckAcc c (fun w l => [w.rdV a l, w.rdV (odd a) l]) h within some_⟩
  · intro m b a s h
    match m with
    | 0 => exact ckChk_cases h rfl
    | 1 => exact ckChk_cases h rfl
    | 2 => exact ckChk_cases h rfl

/-- Settles O8: the words of the lanes are the digits of the stream (`streamOf_eq`, `packed_eq`), the fold of R161 is `foldWord`, and a checksum
that differs parks its run behind the instruction (`ckChkBody_past`). -/
theorem blocksAndChecksums : Obligations.BlocksAndChecksums := ⟨sharedExponentBlocks, checksums⟩

end Sys2Proof.Proofs.FloatingPoint
end

section
/-! Lane accesses (R168 to R173): each granule is looked up once, every lane is checked before any access is made, and what the home slices and the caches
do beside the bytes is confined to lines and owners (R347 to R358). -/
namespace Sys2Proof.Proofs.MemoryAccess
open Sys2Proof Sys2Proof.Machine Sys2Proof.Claims Sys2Proof.Proofs.MachineState

/-! ## A state but for its lines -/

/-- L2 holds lines of device memory alone. -/
def DeviceL2 (s : State) : Prop := ∀ e ∈ s.l2, e.line < 2 ^ 40

/-- A state t that is s but for the lines of L1 and L2 and the owners of words. Unlike `Quiet` it asks nothing of the words that the L1 holds, which may
have dirty bytes. -/
structure SameButLines (s t : State) : Prop where
  same : t = { s with cores := t.cores, owners := t.owners, l2 := t.l2 }
  cores : ∀ c, ∃ l, t.core c = { s.core c with l1 := l }
  low : DeviceL2 s → DeviceL2 t

namespace SameButLines
variable {s t u : State}

theorem refl (s : State) : SameButLines s s := ⟨rfl, fun _ => ⟨_, rfl⟩, id⟩

theorem trans (h : SameButLines s t) (k : SameButLines t u) : SameButLines s u where
  same := k.same.trans (congrArg (fun v : State => { v with cores := u.cores, owners := u.owners, l2 := u.l2 }) h.same)
  cores c := by
    obtain ⟨l, e⟩ := h.cores c
    obtain ⟨l', e'⟩ := k.cores c
    exact ⟨l', e'.trans (congrArg (fun x : Core => { x with l1 := l' }) e)⟩
  low := k.low ∘ h.low

theorem foldl {α : Type} (f : State → α → State) (xs : List α) (step : ∀ x ∈ xs, ∀ t, SameButLines s t → SameButLines t (f t x))
    (h : SameButLines s t) : SameButLines s (xs.foldl f t) := by
  induction xs generalizing t with
  | nil => exact h
  | cons x xs ih => exact ih (fun y hy => step y (List.mem_cons_of_mem _ hy)) (h.trans (step x List.mem_cons_self t h))

theorem grp (h : SameButLines s t) : t.grp = s.grp := (congrArg State.grp h.same :)
theorem iss (h : SameButLines s t) : t.iss = s.iss := (congrArg State.iss h.same :)
theorem mem (h : SameButLines s t) : t.mem = s.mem := (congrArg State.mem h.same :)
theorem stores (h : SameButLines s t) : t.stores = s.stores := (congrArg State.stores h.same :)
theorem provs (h : SameButLines s t) : t.provs = s.provs := (congrArg State.provs h.same :)
theorem tlb (h : SameButLines s t) : t.tlb = s.tlb := (congrArg State.tlb h.same :)
theorem ctxs (h : SameButLines s t) : t.ctxs = s.ctxs := (congrArg State.ctxs h.same :)
theorem remotes (h : SameButLines s t) : t.remotes = s.remotes := (congrArg State.remotes h.same :)
theorem byte (h : SameButLines s t) (a : Nat) : t.byte a = s.byte a := by rw [State.byte, State.byte, h.mem, h.stores]
theorem bytes (h : SameButLines s t) (a n : Nat) : t.bytes a n = s.bytes a n := by simp only [bytes_eq_map, h.byte]
theorem num (h : SameButLines s t) (a n : Nat) : t.num a n = s.num a n := congrArg leNat (h.bytes a n)

theorem misses (h : SameButLines s t) (c : Nat) : (t.core c).misses = (s.core c).misses := by
  obtain ⟨l, e⟩ := h.cores c
  exact (congrArg Core.misses e :)

theorem sameCores (h : SameButLines s t) : SameCores t.cores s := by
  intro c
  obtain ⟨l, e⟩ := h.cores c
  exact ⟨l, (s.core c).misses, e⟩

/-! What changes lines and owners alone. -/

theorem setOwners (s : State) (os : List (Nat × Nat)) : SameButLines s { s with owners := os } := ⟨rfl, fun _ => ⟨_, rfl⟩, id⟩

theorem setL2 (s : State) (ls : List L2Line) (low : ∀ e ∈ ls, e.line < 2 ^ 40) : SameButLines s { s with l2 := ls } :=
  ⟨rfl, fun _ => ⟨_, rfl⟩, fun _ => low⟩

theorem modCore (s : State) (c : Nat) (f : Core → Core) (hf : ∃ l, f (s.core c) = { s.core c with l1 := l }) : SameButLines s (s.modCore c f) := by
  refine ⟨rfl, fun j => ?_, id⟩
  by_cases e : j = c
  · subst e
    exact hf.imp fun l hl => (look_put_same ..).trans hl
  · exact ⟨_, look_put_ne _ _ _ _ _ e⟩

theorem revoke (a : Nat) (s : State) : SameButLines s (Machine.revoke a s) := by
  unfold Machine.revoke
  split
  · exact (modCore s _ _ ⟨_, rfl⟩).trans (setOwners _ _)
  · exact refl s

theorem revokeLine (line : Nat) (s : State) : SameButLines s (Machine.revokeLine line s) :=
  foldl _ _ (fun w _ t _ => revoke w t) (refl s)

theorem register (g : Agent) (a : Nat) (s : State) : SameButLines s (Machine.register g a s) := by
  have claimed (c : Nat) : SameButLines s (claim c a s) := by
    unfold claim
    split
    · exact refl s
    · exact (revoke a s).trans (setOwners _ _)
  unfold Machine.register
  cases g with
  | wave u c =>
    dsimp only
    split
    · exact claimed c
    · exact revoke a s
  | _ => exact revoke a s

theorem replaceWay (v : L2Line) (s : State) (low : v.line < 2 ^ 40) : SameButLines s (Machine.replaceWay v s) := by
  unfold Machine.replaceWay
  rw [if_pos (regionOf_line low)]
  split
  · exact refl s
  · exact revokeLine v.line s

theorem useWay (new : L2Line) (s : State) (device : DeviceL2 s) (low : new.line < 2 ^ 40) : SameButLines s (Machine.useWay new s) := by
  have add (ls : List L2Line) (sub : ∀ e ∈ ls, e ∈ s.l2) (e : L2Line) (he : e.line < 2 ^ 40) : ∀ x ∈ ls ++ [e], x.line < 2 ^ 40 := fun x hx =>
    (List.mem_append.mp hx).elim (fun hx => device x (sub x hx)) fun hx => List.mem_singleton.mp hx ▸ he
  unfold Machine.useWay
  split
  next e t found =>
    obtain ⟨-, mem, sub, -⟩ := pull_some found
    refine setL2 s _ (add t sub _ ?_)
    split
    · exact low
    · exact device e mem
  next =>
    split
    · exact setL2 s _ (add _ (fun _ => id) new low)
    · split
      next v t found =>
        obtain ⟨-, mem, sub, -⟩ := pull_some found
        exact (replaceWay v s (device v mem)).trans (setL2 _ _ (add t sub new low))
      next => exact refl s

theorem useL2All (lines : List Nat) (dirty : Bool) (s : State) (device : DeviceL2 s) (low : ∀ l ∈ lines, l < 2 ^ 40) :
    SameButLines s (Machine.useL2All lines dirty s) := by
  refine foldl _ _ (fun l hl t ht => ?_) (refl s)
  unfold useL2
  rw [if_pos (regionOf_line (low l hl))]
  exact useWay _ t (ht.low device) (low l hl)

theorem putWord (core a : Nat) (x : L1Word) (s : State) : SameButLines s (Machine.putWord core a x s) := by
  unfold Machine.putWord
  exact modCore s core _ ⟨_, rfl⟩

theorem mapWord (core a : Nat) (f : L1Word → L1Word) (s : State) : SameButLines s (s.modCore core fun c => c.mapWord a f) := modCore s core _ ⟨_, rfl⟩

/-- The core's own copy of what it stored. -/
theorem updateCopy (core a : Nat) (bs : List Byte) (owned : Bool) (s : State) : SameButLines s (Machine.updateCopy core a bs owned s) := by
  refine foldl _ _ (fun w _ t _ => ?_) (refl s)
  split
  · split
    · exact putWord core w _ t
    · exact refl t
  · exact refl t

end SameButLines

/-! ## Home slices with nothing between an access and memory but provisional cells -/

/-- Nothing but provisional cells stands between an access and device memory, and no line has a sharer. -/
structure Calm (s : State) : Prop where
  still : Undisturbed { s with provs := [] }
  regions : s.regions = []
  device : DeviceL2 s

theorem calm_of_atRest {s : State} (rest : AtRest s) : Calm s := by
  obtain ⟨-, bands, aliases, poison, regions, fanOuts, -, -, -, -, -, -, -, -, -, low, -, served⟩ := rest
  exact ⟨⟨bands, aliases, rfl, poison, fanOuts, served⟩, regions, low⟩

/-- An issue does not disturb it. -/
theorem Calm.past {s : State} (c : Calm s) (perLane : Bool) : Calm (past perLane s) :=
  ⟨⟨c.still.bands, c.still.aliases, rfl, c.still.poison, c.still.fanOuts, c.still.served⟩, c.regions, c.device⟩

/-- Other lines, owners, cells, stores and notes do not disturb it. -/
theorem Calm.update {s t : State} (c : Calm s) {provs : List Prov} {stores : List Host.Cell} {cl : List (Nat × Option Byte)} {rl : List (Nat × Word)}
    (h : SameButLines { s with provs := provs, stores := stores, codeLog := cl, roLog := rl } t) : Calm t where
  still := by
    obtain ⟨bands, aliases, -, poison, fanOuts, served⟩ := c.still
    exact ⟨(congrArg State.bands h.same :).trans bands, (congrArg State.aliases h.same :).trans aliases, rfl,
      (congrArg State.poison h.same :).trans poison, (congrArg State.fanOuts h.same :).trans fanOuts, by
        have isais : t.isais = s.isais := (congrArg State.isais h.same :)
        unfold Served at served ⊢
        exact isais ▸ served⟩
  regions := (congrArg State.regions h.same :).trans c.regions
  device := h.low c.device

theorem SameButLines.calm {s t : State} (h : SameButLines s t) (c : Calm s) : Calm t := c.update (stores := s.stores) (provs := s.provs) h

section calm
variable {s : State} (c : Calm s)
include c

theorem Calm.marked (w : Nat) : s.marked w = false := c.still.marked w

theorem Calm.roundLine (l : Nat) : Machine.roundLine l s = s := roundLine_none l s (by rw [c.still.bands, List.find?_nil])

theorem Calm.settleAliasesFor (a n l : Nat) : Machine.settleAliasesFor a n l s = s := settleAliasesFor_none a n l s c.still.aliases

theorem Calm.endFans (lines : List Nat) : Machine.endFans lines s = s :=
  congrArg (fun t : State => { t with provs := s.provs }) (c.still.endFans lines)

theorem Calm.clearPoison (p : Nat → Bool) : { s with poison := s.poison.filter p } = s :=
  congrArg (fun t : State => { t with provs := s.provs }) (c.still.clearPoison p)

/-- A read of device memory by an agent that observes no cell finds its bytes. -/
theorem Calm.homeFetch (g : Agent) (a n : Nat) (low : a + n ≤ 2 ^ 48) (blind : ∀ ws t, t.provs = s.provs → observe g ws t = t) :
    ∃ t, Machine.homeFetch g a n s = (t, s.bytes a n, false) ∧ SameButLines s t := by
  have rounded (ls : List Nat) : ls.foldl (fun s l => Machine.roundLine l s) s = s := List.foldl_fixed' (fun l => c.roundLine l) _
  have aliases : s.aliases = [] := c.still.aliases
  have sources : ((List.range n).map fun i => a + i).map (sourceOf s) = (List.range n).map fun i => a + i := by
    refine (List.map_congr_left fun b _ => ?_).trans (List.map_id _)
    rw [sourceOf, coverOf, aliases, List.find?_nil]
    rfl
  have used := SameButLines.useL2All ((((((List.range n).map fun i => a + i).map wordOf).dedup).map fun b => lineOf b).dedup) false s c.device (fun l hl => by
    rw [List.mem_dedup, List.mem_map] at hl
    obtain ⟨w, hw, rfl⟩ := hl
    rw [List.mem_dedup, List.map_map, List.mem_map] at hw
    obtain ⟨i, hi, rfl⟩ := hw
    have := List.mem_range.mp hi
    refine lineOf_low ?_
    simp only [Function.comp_apply, wordOf]
    omega)
  refine ⟨_, ?_, used⟩
  unfold Machine.homeFetch
  simp only [rounded, aliases, List.filter_nil, if_true, sources, blind _ _ used.provs]
  refine Prod.ext rfl (Prod.ext ?_ ?_)
  · exact (List.map_congr_left fun b _ => used.byte b).trans (List.map_map.trans (bytes_eq_map s a n).symm)
  · exact List.any_eq_false.mpr fun b _ => by rw [(used.calm c).marked]; exact Bool.false_ne_true

/-- The same with what the read counts, which is nothing without aliases (R369). -/
theorem Calm.homeRead (g : Agent) (a n : Nat) (low : a + n ≤ 2 ^ 48) (blind : ∀ ws t, t.provs = s.provs → observe g ws t = t) :
    ∃ t, Machine.homeRead g a n s = (t, s.bytes a n, false) ∧ SameButLines s t := by
  obtain ⟨t, fetched, same⟩ := c.homeFetch g a n low blind
  have counted (as : List Nat) : countReads g as t = t := by
    unfold countReads
    cases g <;> simp [show t.aliases = [] from (same.calm c).still.aliases]
  refine ⟨t, ?_, same⟩
  rw [Machine.homeRead, fetched]
  dsimp only
  rw [counted]

end calm

/-- Agents that observe no cell, and a state that has none (R184). -/
theorem observe_quiet (ws : List Nat) (t : State) : observe .quiet ws t = t := by
  have none : t.provs.map (fun c => if ws.contains c.addr && false then { c with obs := true } else c) = t.provs := by simp
  simp only [observe, none]

theorem observe_noCells (g : Agent) (ws : List Nat) {t : State} (h : t.provs = []) : observe g ws t = t := by
  have none (f : Prov → Prov) : t.provs.map f = t.provs := by rw [h]; rfl
  simp only [observe, none]

end Sys2Proof.Proofs.MemoryAccess
end

section
/-! Planning and delivery of lane accesses (R168, R169, R385). -/
namespace Sys2Proof.Proofs.MemoryAccess
open Sys2Proof Sys2Proof.Machine Sys2Proof.Claims Sys2Proof.Proofs.MachineState

/-- At rest no lease is recalled, and no epilogue entry is left. -/
theorem recalled_of_atRest {s : State} (rest : AtRest s) : s.recalled = [] := by
  obtain ⟨-, -, -, -, -, -, -, -, recalled, -⟩ := rest
  exact recalled

theorem epilogues_of_atRest {s : State} (rest : AtRest s) : s.grp.epilogues = [] := by
  obtain ⟨-, -, -, -, -, -, -, -, -, -, epilogues, -⟩ := rest
  exact epilogues

/-! ## The pages of the lanes -/

/-- The granule of a lane's address (R385). -/
abbrev granule (addr : Fin 32 → DWord) (l : Fin 32) : Nat := (addr l).toNat / 2 ^ 19

section lookPages
variable {n : Need} {addr : Fin 32 → DWord}

/-- Lanes whose address faults look no page up. -/
theorem lookPages_address (ls : List (Fin 32)) (ps : List (Nat × Look)) (s : State) (h : ∀ l ∈ ls, (addressFault n (addr l)).isSome = true) :
    lookPages n addr ls ps s = (s, ps) := by
  induction ls with
  | nil => rfl
  | cons l ls ih =>
    rw [lookPages, h l List.mem_cons_self, Bool.true_or, if_pos rfl]
    exact ih fun j hj => h j (List.mem_cons_of_mem _ hj)

/-- What the look-ups of lanes leave and find: a property of states that each look-up keeps, and one of each granule with what is found for it. -/
theorem lookPages_all (I : State → Prop) (L : Nat → Look → Prop) (ls : List (Fin 32)) (address : ∀ l ∈ ls, addressFault n (addr l) = none)
    (step : ∀ l ∈ ls, ∀ t, I t → ∃ t' p, lookPage (.core t.coreNo) t.ctxNo n.access (addr l).toNat t = (t', p) ∧ I t' ∧ L (granule addr l) p)
    (ps : List (Nat × Look)) (s : State) (hs : I s) (hp : ∀ e ∈ ps, L e.1 e.2) :
    ∃ t qs, lookPages n addr ls ps s = (t, qs) ∧ I t ∧ (∀ e ∈ qs, L e.1 e.2) ∧ (∀ e ∈ ps, e ∈ qs) ∧
      ∀ l ∈ ls, ∃ e ∈ qs, e.1 = granule addr l := by
  induction ls generalizing ps s with
  | nil => exact ⟨s, ps, rfl, hs, hp, fun _ => id, nofun⟩
  | cons l ls ih =>
    have rest := ih (fun j hj => address j (List.mem_cons_of_mem _ hj)) fun j hj => step j (List.mem_cons_of_mem _ hj)
    have none : (addressFault n (addr l)).isSome = false := by rw [address l List.mem_cons_self]; rfl
    rw [lookPages, none, Bool.false_or]
    by_cases known : (ps.any fun p => p.1 == granule addr l) = true
    · obtain ⟨t, qs, looked, ht, hq, sub, all⟩ := rest ps s hs hp
      obtain ⟨e, he, same⟩ := List.any_eq_true.mp known
      exact ⟨t, qs, (if_pos known).trans looked, ht, hq, sub, List.forall_mem_cons.mpr ⟨⟨e, sub e he, beq_iff_eq.mp same⟩, all⟩⟩
    · obtain ⟨s', p, found, hs', hl⟩ := step l List.mem_cons_self s hs
      obtain ⟨t, qs, looked, ht, hq, sub, all⟩ := rest (ps ++ [(granule addr l, p)]) s' hs' fun e he =>
        (List.mem_append.mp he).elim (hp e) fun he => List.mem_singleton.mp he ▸ hl
      refine ⟨t, qs, (if_neg known).trans ?_, ht, hq, fun e he => sub e (List.mem_append_left _ he), List.forall_mem_cons.mpr
        ⟨⟨_, sub _ (List.mem_append_right _ (List.mem_singleton_self _)), rfl⟩, all⟩⟩
      rw [found]
      exact looked

/-- The entry of a number that a table holds. -/
theorem look_of_mem {α : Type} {L : Nat → α → Prop} {ps : List (Nat × α)} {k : Nat} (d : α) (all : ∀ e ∈ ps, L e.1 e.2) (some_ : ∃ e ∈ ps, e.1 = k) :
    L k (look ps k d) := by
  induction ps with
  | nil => obtain ⟨e, he, -⟩ := some_; cases he
  | cons e ps ih =>
    obtain ⟨j, a⟩ := e
    rw [look]
    split
    next same => exact same ▸ all _ List.mem_cons_self
    next other =>
      refine ih (fun e he => all e (List.mem_cons_of_mem _ he)) ?_
      obtain ⟨f, hf, eq⟩ := some_
      rcases List.mem_cons.mp hf with rfl | hf
      · exact absurd eq other
      · exact ⟨f, hf, eq⟩

end lookPages

section checkLanes
variable {n : Need} {addr : Fin 32 → DWord} {ps : List (Nat × Look)} {s : State}

/-- Lanes whose checks all let them through. -/
theorem checkLanes_go {pa : Fin 32 → Nat} (ls : List (Fin 32)) (h : ∀ l ∈ ls, addressFault n (addr l) = none ∧
    checkPage n (addr l) (look ps (granule addr l) .wait) s = (s, .go (pa l) false)) :
    checkLanes n addr ps ls s = (s, ⟨ls.map fun l => (l, addr l, pa l, false), [], [], false⟩) := by
  induction ls with
  | nil => rfl
  | cons l ls ih =>
    obtain ⟨address, page⟩ := h l List.mem_cons_self
    simp only [checkLanes, address, page, ih fun j hj => h j (List.mem_cons_of_mem _ hj), List.map_cons]

/-- Lanes whose addresses all fault, and lanes whose pages all fault. -/
theorem checkLanes_address {cause : Fin 32 → Nat} (ls : List (Fin 32)) (h : ∀ l ∈ ls, addressFault n (addr l) = some (cause l)) :
    checkLanes n addr ps ls s = (s, ⟨[], ls.map fun l => ⟨l, cause l, addr l⟩, [], false⟩) := by
  induction ls with
  | nil => rfl
  | cons l ls ih =>
    simp only [checkLanes, h l List.mem_cons_self, ih fun j hj => h j (List.mem_cons_of_mem _ hj), List.map_cons, Option.toList_none, List.nil_append]

theorem checkLanes_page {cause : Fin 32 → Nat} (ls : List (Fin 32)) (h : ∀ l ∈ ls, addressFault n (addr l) = none ∧
    ∃ page, checkPage n (addr l) (look ps (granule addr l) .wait) s = (s, .fault (cause l) page)) :
    ∃ pages, checkLanes n addr ps ls s = (s, ⟨[], ls.map fun l => ⟨l, cause l, addr l⟩, pages, false⟩) := by
  induction ls with
  | nil => exact ⟨[], rfl⟩
  | cons l ls ih =>
    obtain ⟨address, page, checked⟩ := h l List.mem_cons_self
    obtain ⟨pages, rest⟩ := ih fun j hj => h j (List.mem_cons_of_mem _ hj)
    exact ⟨page.toList ++ pages, by simp only [checkLanes, address, checked, rest, List.map_cons]⟩

end checkLanes

/-- Lanes whose addresses all fault are planned without a look-up. -/
theorem planLanes_address {n : Need} {addr : Fin 32 → DWord} {cause : Fin 32 → Nat} (ls : List (Fin 32)) (s : State)
    (h : ∀ l ∈ ls, addressFault n (addr l) = some (cause l)) :
    planLanes n addr ls s = (s, ⟨[], ls.map fun l => ⟨l, cause l, addr l⟩, [], false⟩) := by
  rw [planLanes, lookPages_address ls [] s fun l hl => by rw [h l hl]; rfl]
  exact checkLanes_address ls h

/-- A canonical, aligned address. -/
theorem addressFault_none {n : Need} {va : DWord} (canonical : va.toNat < 2 ^ 56) (aligned : va.toNat % n.size = 0) : addressFault n va = none := by
  rw [addressFault, if_neg (not_le.mpr canonical), if_neg (not_not.mpr aligned)]

/-- An address above 56 bits or misaligned (R168, R405). -/
theorem addressFault_some {n : Need} {va : DWord} (h : 2 ^ 56 ≤ va.toNat ∨ va.toNat % n.size ≠ 0) :
    addressFault n va = some (if 2 ^ 56 ≤ va.toNat then 0x10 else 0x11) := by
  rw [addressFault]
  split
  · rfl
  · exact if_pos (h.resolve_left ‹_›)

/-! ## Cached pages -/

/-- A translation that the core's own TLB holds is found there, and no other TLB takes it. -/
theorem lookPage_cached {s : State} {va : Nat} {e : TlbEntry} (recalled : s.recalled = []) (found : cached s va = some e) (a : Access) :
    lookPage (.core s.coreNo) s.ctxNo a va s = (s, .entry e) := by
  have first : tlbAt s (.core s.coreNo) s.ctxNo va = some e := found
  have lease : e.recalled s = false := by
    unfold TlbEntry.recalled recalledAt
    rw [recalled]
    cases e.lease <;> rfl
  simp only [lookPage, TlbUnit.path, tlbFind, first, lease, Bool.false_eq_true, if_false]
  rfl

/-- Two searches of a list agree where each finds an item that the other would take. -/
theorem find?_agree {α : Type} {p q : α → Bool} {l : List α} {x y : α} (hx : l.find? p = some x) (hy : l.find? q = some y) (qx : q x = true)
    (py : p y = true) : x = y := by
  induction l with
  | nil => cases hx
  | cons a l ih =>
    rw [List.find?_cons] at hx hy
    cases pa : p a <;> cases qa : q a <;> rw [pa] at hx <;> rw [qa] at hy
    case true.true => exact (Option.some.inj hx).symm.trans (Option.some.inj hy)
    case true.false => rw [← Option.some.inj hx, qa] at qx; cases qx
    case false.true => rw [← Option.some.inj hy, pa] at py; cases py
    case false.false => exact ih hx hy

/-- Addresses of one granule have the same translation (R382, R385). -/
theorem cached_granule {s : State} {va vb : Nat} {e f : TlbEntry} (he : cached s va = some e) (hf : cached s vb = some f)
    (we : e.page % 2 ^ 19 = 0 ∧ e.size % 2 ^ 19 = 0) (wf : f.page % 2 ^ 19 = 0 ∧ f.size % 2 ^ 19 = 0) (same : va / 2 ^ 19 = vb / 2 ^ 19) : e = f := by
  obtain ⟨pe, ze⟩ := we
  obtain ⟨pf, zf⟩ := wf
  have ke := List.find?_some he
  have kf := List.find?_some hf
  simp only [Bool.and_eq_true, decide_eq_true_eq] at ke kf
  obtain ⟨⟨unit, lo⟩, hi⟩ := ke
  obtain ⟨⟨unit', lo'⟩, hi'⟩ := kf
  refine find?_agree he hf ?_ ?_ <;> simp only [Bool.and_eq_true, decide_eq_true_eq]
  · exact ⟨⟨unit, by omega⟩, by omega⟩
  · exact ⟨⟨unit', by omega⟩, by omega⟩

theorem mapped_entry {store : Bool} {z : Nat} {va : DWord} {pa : Nat} {s : State} (map : Mapped store z va pa s) :
    ∃ e, cached s va.toNat = some e ∧ e.page % 2 ^ 19 = 0 ∧ e.size % 2 ^ 19 = 0 := by
  obtain ⟨-, -, -, -, entry⟩ := map
  unfold cached
  cases found : cachedAt (.core s.grp.core) s va.toNat with
  | none => rw [found] at entry; exact entry.elim
  | some e =>
    rw [found] at entry
    obtain ⟨-, page, size, -⟩ := entry
    exact ⟨e, rfl, page, size⟩

/-- The check of an access whose page was found in the TLB. -/
theorem checkPage_mapped (n : Need) (store : Bool) (va : DWord) (pa : Nat) (s : State) (rest : AtRest s) (map : Mapped store n.size va pa s)
    (writes : n.access = .store → store = true) (data : n.access ≠ .fetch) {e : TlbEntry} (found : cached s va.toNat = some e) :
    checkPage n va (.entry e) s = (s, .go pa false) := by
  have whole := checkAccess_mapped n store va pa s rest map writes data
  obtain ⟨canonical, aligned, -⟩ := map
  rw [checkAccess, addressFault_none canonical aligned] at whole
  dsimp only at whole
  rwa [lookPage_cached (recalled_of_atRest rest) found] at whole

/-- What the look-up for a granule finds where the core's TLB translates its addresses. -/
def FoundFor (ls : List (Fin 32)) (addr : Fin 32 → DWord) (s : State) (g : Nat) (p : Look) : Prop :=
  ∃ e, p = .entry e ∧ ∀ l ∈ ls, granule addr l = g → cached s (addr l).toNat = some e

/-- Lanes that all name mapped places are planned as ready, and nothing changes. -/
theorem planLanes_mapped (n : Need) (store : Bool) (addr : Fin 32 → DWord) (pa : Fin 32 → Nat) (ls : List (Fin 32)) (s : State) (rest : AtRest s)
    (map : ∀ l ∈ ls, Mapped store n.size (addr l) (pa l) s) (writes : n.access = .store → store = true) (data : n.access ≠ .fetch) :
    planLanes n addr ls s = (s, ⟨ls.map fun l => (l, addr l, pa l, false), [], [], false⟩) := by
  have address (l : Fin 32) (hl : l ∈ ls) : addressFault n (addr l) = none := by
    obtain ⟨canonical, aligned, -⟩ := map l hl
    exact addressFault_none canonical aligned
  obtain ⟨t, qs, looked, same, found, -, all⟩ := lookPages_all (n := n) (· = s) (FoundFor ls addr s) ls address (fun l hl t ht => by
    obtain ⟨e, he, whole⟩ := mapped_entry (map l hl)
    rw [ht]
    refine ⟨s, .entry e, lookPage_cached (recalled_of_atRest rest) he _, rfl, e, rfl, fun j hj same => ?_⟩
    obtain ⟨f, hf, whole'⟩ := mapped_entry (map j hj)
    rwa [cached_granule he hf whole whole' same.symm]) [] s rfl nofun
  rw [planLanes, looked, same]
  refine checkLanes_go _ fun l hl => ⟨address l hl, ?_⟩
  obtain ⟨e, entry, held⟩ := look_of_mem (L := FoundFor ls addr s) Look.wait found (all l hl)
  rw [entry]
  exact checkPage_mapped n store _ _ s rest (map l hl) writes data (held l hl rfl)

/-! ## The accesses and their results -/

/-- What the plan of a wave with no stores of its own that wait comes to: its accesses take place, then results and faults are delivered. -/
theorem laneAccess_planned (g : Sig) (n : Need) (addr : Fin 32 → DWord) (pre : Pre) (act : Ready4 → State → State × List RegWrite × List Poisoned)
    {s t u v : State} {p : Plan} {ws : List RegWrite} (h : CanIssue s) (rest : AtRest s) (go : p.wait = false)
    (plan : planLanes n addr (lanesOf (laneSet s)) (past true s) = (t, p)) (same : t.grp = (past true s).grp)
    (before : pre p.go t = (u, some [])) (rows : u.grp.epilogues = []) (acts : act p.go u = (v, ws, [])) :
    laneAccess g n addr pre act (execOf true s) (past true s) =
      deliver (g.over 1 n.size ((lanesOf (laneSet s)).map fun l => (l, (addr l).toNat))) (execOf true s) ws p.faults (oweRecords p.pages v) := by
  obtain ⟨-, -, -, -, -, -, -, -, -, nt, epilogues, -, -, -, -, -, own, -⟩ := rest
  have mode : (past true s).w.mode ≠ .ahead := by rw [show (past true s).w.mode = .normal from h.1]; decide
  have lanes : lanesOf (execOf true s).en = lanesOf (laneSet s) := rfl
  have wave : t.w = (past true s).w := congrArg Group.wave same
  have free : heldBehind (g.over 1 n.size ((lanesOf (laneSet s)).map fun l => (l, (addr l).toNat))) t = false :=
    heldBehind_lanes _ n.size (laneSet s) (fun l => (addr l).toNat) s _ h own rfl (laneSet_run s) (congrArg Wave.pending wave :)
  have queue : t.w.nt = [] := (congrArg Wave.nt wave).trans nt
  have none : t.grp.epilogues = [] := (congrArg Group.epilogues same).trans epilogues
  have stores : heldStores false t = (t, false) := by simp [heldStores, ownRowWords, none, blockedAt, waitLines]
  have far : (fun e : Fin 32 × DWord × Nat × Bool => !([] : List LaneFault).any fun f => f.lane == e.1) = fun _ => true := rfl
  have overlap : overlapsNt t p n.size = false := by simp [overlapsNt, queue]
  simp only [laneAccess, if_neg mode, lanes, plan, free, go, overlap, Bool.or_false, Bool.false_eq_true, if_false, stores, before,
    drainOwnRows_none u rows, far, List.filter_true, acts, poisonFaults, List.append_nil]

/-- Faults on no page owe no record, and none is owed in a context without a fault queue (R388). -/
theorem oweRecords_nil (s : State) : oweRecords [] s = s := by
  unfold oweRecords
  split
  · rfl
  · have none : ({ s.w with batch := s.w.batch ++ [] ++ [], aheadDue := s.w.aheadDue || false } : Wave) = s.w := by
      rw [List.append_nil, List.append_nil, Bool.or_false]
    exact congrArg (fun w => s.modW fun _ => w) none

theorem oweRecords_noQueue (ps : List PageFault) {s : State} (h : (s.ctx s.grp.task.ctx).fqbase = 0) : oweRecords ps s = s := if_pos (.inl h)

/-- A lane access of mapped places that nothing holds back. -/
theorem laneAccess_mapped (g : Sig) (n : Need) (store : Bool) (addr : Fin 32 → DWord) (pa : Fin 32 → Nat) (pre : Pre)
    (act : Ready4 → State → State × List RegWrite × List Poisoned) {s u v : State} {ws : List RegWrite} (h : CanIssue s) (rest : AtRest s)
    (map : ∀ l, bit (laneSet s) l = true → Mapped store n.size (addr l) (pa l) s) (writes : n.access = .store → store = true) (data : n.access ≠ .fetch)
    (before : pre ((lanesOf (laneSet s)).map fun l => (l, addr l, pa l, false)) (past true s) = (u, some [])) (rows : u.grp.epilogues = [])
    (acts : act ((lanesOf (laneSet s)).map fun l => (l, addr l, pa l, false)) u = (v, ws, [])) (same : v.iss = s.iss) :
    laneAccess g n addr pre act (execOf true s) (past true s) =
      deliveredAs ⟨decide (g.kind = .memory), decide (g.kind = .store), 1⟩ g.lookahead g.writes ws (laneSet s) g.ordered s v := by
  have plan := planLanes_mapped n store addr pa (lanesOf (laneSet s)) (past true s) rest (fun l hl => map l ((mem_lanesOf _ _).mp hl)) writes data
  rw [laneAccess_planned g n addr pre act h rest rfl plan rfl before rows acts, oweRecords_nil]
  exact deliver_noFault _ _ ws s v h same (by simp [Sig.over]) rfl rfl

/-- The instruction once its effect has taken place in the enabled lanes, its stores laid into memory. -/
theorem issue_lanes_stores (g : Sig) (body : Exec → State → State) {s t : State} (h : CanIssue s) (lane : g.perLane = true) (some_ : laneSet s ≠ 0)
    (hw : Within (g.reads ++ g.writes) s) (hf : g.fence = false) (hc : g.waitsFor = []) (hp : g.privileged = false) (hh : g.handlerOnly = false)
    (hn : g.notInHandler = false) (ht : body (execOf true s) (past true s) = t) :
    issue g body s = .next { t with mem := s.mem.lay t.stores, stores := [] } := by
  have clear : clearOf g.waitsFor (~~~0#32) s = true := by simp [clearOf, hc]
  rw [issue_ready g body s h hw (by simp [hf]) clear (by simp [hp]) (by simp [hh]) (by simp [hn])]
  have acts : (if enabled g.perLane s = 0 then past g.perLane s else body (execOf g.perLane s) (past g.perLane s)) = t := by
    rw [lane, enabled_true, if_neg some_, ht]
  simp only [next, finish, acts]

end Sys2Proof.Proofs.MemoryAccess
end

section
/-! Memory faults of lanes (R168, R169, R405, R407): where every enabled lane faults, nothing is loaded or stored and the lanes park with RESTART 1. -/
namespace Sys2Proof.Proofs.MemoryAccess
open Sys2Proof Sys2Proof.Machine Sys2Proof.Claims Sys2Proof.Proofs.MachineState

/-! ## Parking with RESTART 1 -/

/-- The record of a lane of an instruction that it will replay (R407). -/
def replayRecord (s : State) (cause : Fin 32 → Word) (addr : Fin 32 → DWord) (l : Fin 32) : TrapRecord :=
  { cause := 0x1000 ||| cause l, addr := addr l, pc := at_ s, entry := ((past true s).w.pc[l]).setWidth 64, guard := (past true s).w.guard[l],
    guardAt := s.w.guard[l], enabled := true, passed := true }

/-- A lane among those of a mask. -/
theorem find_lane (m : Mask) (l : Fin 32) : (lanesOf m).find? (fun j => j == l) = if bit m l then some l else none := by
  have paired := congrArg (Option.map Prod.fst) (find_lanes m (fun _ => ()) l)
  have unpaired : (Prod.fst ∘ fun l : Fin 32 => (l, ())) = id := rfl
  rw [List.find?_map, Option.map_map, unpaired, Option.map_id] at paired
  refine Eq.trans paired ?_
  cases bit m l <;> rfl

/-- The fault of a lane of a mask whose lanes each have one of their own. -/
theorem faultOf_each (m : Mask) (cause : Fin 32 → Nat) (addr : Fin 32 → DWord) (l : Fin 32) :
    faultOf ((lanesOf m).map fun l => ⟨l, cause l, addr l⟩) l = if bit m l then some ⟨l, cause l, addr l⟩ else none := by
  rw [faultOf, List.find?_map]
  refine Eq.trans (congrArg (Option.map _) (find_lane m l)) ?_
  cases bit m l <;> rfl

theorem faultLanes_each (m : Mask) (cause : Fin 32 → Nat) (addr : Fin 32 → DWord) :
    faultLanes ((lanesOf m).map fun l => ⟨l, cause l, addr l⟩) = m :=
  mask_ext _ _ fun l => by
    rw [faultLanes, bit_maskOf, faultOf_each]
    cases bit m l <;> rfl

/-- The enabled lanes of a run on its first issue that fault, each with its own cause and address, park behind the instruction. -/
theorem parkRestart_each {s t : State} (first : s.iss.replay = none) (h : SameButLines (past true s) t) {code : Fin 32 → Nat} {cause : Fin 32 → Word}
    (causes : ∀ l, causeWord (code l) 0 true = 0x1000 ||| cause l) (addr : Fin 32 → DWord) :
    parkRestart (execOf true s) ((lanesOf (laneSet s)).map fun l => ⟨l, code l, addr l⟩) t = park (laneSet s) (replayRecord s cause addr) t := by
  rw [parkRestart, faultLanes_each]
  refine CodesAndHandlers.parkAt_congr _ _ fun l mem => ?_
  have iss : t.iss = s.iss := h.iss
  have wave : t.w = (past true s).w := congrArg Group.wave h.grp
  have issued : (s.iss.replay.isNone && bit (execOf true s).run l) = true := by
    rw [first]
    exact laneSet_run s l mem
  have enabled : bit (execOf true s).en l = true := mem
  simp only [faultOf_each, mem, if_true, restartRecord, causes, iss, wave, issued, enabled, WaveControl.entryWord_ready]
  rfl

/-- Lines and owners are no part of what parking changes. -/
theorem park_lines (m : Mask) (r : Fin 32 → TrapRecord) (s : State) (cs : List (Nat × Core)) (os : List (Nat × Nat)) (ls : List L2Line) :
    park m r { s with cores := cs, owners := os, l2 := ls } = { park m r s with cores := cs, owners := os, l2 := ls } := by
  show parkAt s.iss.id m r { s with cores := cs, owners := os, l2 := ls } = { parkAt s.iss.id m r s with cores := cs, owners := os, l2 := ls }
  unfold parkAt
  by_cases none : m = 0
  · simp only [none, if_true]
  by_cases midge : s.w.mode = .midge
  · rw [if_neg none, if_neg none, if_pos midge, if_pos midge]
    rfl
  by_cases inside : m &&& s.w.handlerLanes = 0
  · rw [if_neg none, if_neg none, if_neg midge, if_neg midge, if_neg (not_not.mpr inside), if_neg (not_not.mpr inside)]
    rfl
  · rw [if_neg none, if_neg none, if_neg midge, if_neg midge, if_pos inside, if_pos inside]
    rfl

theorem parkAt_cores (n : Nat) (m : Mask) (r : Fin 32 → TrapRecord) (s : State) : (parkAt n m r s).cores = s.cores := by
  have stopped : (stopGroup 3 s).cores = s.cores := rfl
  rcases parkAt_cases n m r s with ⟨-, h⟩ | ⟨-, -, h⟩ | ⟨-, -, -, h⟩ | ⟨-, -, -, h⟩ <;> rw [h]
  · exact State.modW_cores s _
  · exact stopped
  · exact State.modW_cores s _

/-! ## Instructions of which every lane faults -/

/-- An access without ready lanes has nothing to wait for and writes no register. -/
structure Idle (s : State) (pre : Pre) (act : Ready4 → State → State × List RegWrite × List Poisoned) : Prop where
  before : ∀ t, SameButLines (past true s) t → pre [] t = (t, some [])
  acts : ∀ t, SameButLines (past true s) t → ∃ ws, act [] t = (t, ws, []) ∧ applyAll t ws = t

theorem idle_noPre {s : State} {act : Ready4 → State → State × List RegWrite × List Poisoned} (acts : ∀ t, act [] t = (t, [], [])) :
    Idle s noPre act := ⟨fun _ _ => rfl, fun t _ => ⟨[], acts t, rfl⟩⟩

/-- A load without ready lanes requests nothing, and its result has no lane. -/
theorem idle_load (z : Nat) (d : Fin 128) (f : Nat → Word) {s : State} (rest : AtRest s) :
    Idle s (loadPre z) fun gs t => match loadLanes z gs t with
      | (t, xs, bad) => (t, vWrite d f xs, bad) where
  before t h := by
    obtain ⟨-, -, -, -, -, -, -, -, -, -, -, -, -, room, -⟩ := rest
    have core : t.coreNo = s.grp.core := (congrArg Group.core h.grp :)
    have few : ¬ 256 < ((t.core t.coreNo).misses).length := by
      rw [h.misses, core]
      exact not_lt.mpr (room.trans (by decide))
    have goesOn : ¬ (decide (256 < (requestWords [] true (t.core t.coreNo).misses).length) ||
        [].any fun w : Nat × Bool => !(t.core t.coreNo).fits w.1) = true := by
      simpa [requestWords] using few
    simp only [loadPre, List.flatMap_nil, loadMisses, if_neg goesOn]
    rfl
  acts t _ := by
    refine ⟨vWrite d f [], rfl, ?_⟩
    have none : maskFrom ([] : List (Fin 32 × Nat)) = 0 := maskFrom_lanes 0 fun _ => 0
    show t.modW (fun w => w.wrV d (maskFrom ([] : List (Fin 32 × Nat))) fun l => (lanesFrom 0 ([].map fun e : Fin 32 × Nat => (e.1, f e.2)))[l]) = t
    rw [none]
    exact congrArg (t.modW) (funext fun w => Wave.wrV_zero w d _)

/-- A reduction without ready lanes sends nothing to a peer. -/
theorem idle_reduction (form op : Nat) (f : State → Fin 32 → Word) (fx fy : Fin 32 → Word) {s : State} (rest : AtRest s) :
    Idle s (remotePre op fx fy id) fun gs t => match redLanes form (f t) gs t with
      | (t, bad) => (endRemotes t, [], bad) where
  before t _ := by simp [remotePre]
  acts t h := by
    obtain ⟨-, -, -, -, -, -, -, -, -, -, -, requests, -⟩ := rest
    have uid : t.w.uid = s.w.uid := congrArg (·.wave.uid) h.grp
    have ended : endRemotes t = t := endRemotes_none t (by rw [h.remotes, uid]; exact requests)
    exact ⟨[], by simp only [redLanes, ended], rfl⟩

section faults
variable {s t : State} {g : Sig} {n : Need} {pre : Pre} {act : Ready4 → State → State × List RegWrite × List Poisoned} {addr : Fin 32 → DWord}
  {code : Fin 32 → Nat} {cause : Fin 32 → Word} {pages : List PageFault}

/-- A lane access whose lanes all fault parks them, each with its own cause and address (R169). -/
theorem laneAccess_faults (h : CanIssue s) (rest : AtRest s) (idle : Idle s pre act) (lane : g.perLane = true) (now : g.lookahead = 0)
    (lines : SameButLines (past true s) t)
    (plan : planLanes n addr (lanesOf (laneSet s)) (past true s) = (t, ⟨[], (lanesOf (laneSet s)).map fun l => ⟨l, code l, addr l⟩, pages, false⟩))
    (owes : oweRecords pages t = t) (causes : ∀ l, causeWord (code l) 0 true = 0x1000 ||| cause l) :
    laneAccess g n addr pre act (execOf true s) (past true s) = park (laneSet s) (replayRecord s cause addr) t := by
  obtain ⟨ws, acts, idles⟩ := idle.acts t lines
  have rows : t.grp.epilogues = [] := (congrArg Group.epilogues lines.grp).trans (epilogues_of_atRest rest)
  have restarts (fs : List LaneFault) (reach : List (Fin 32 × Nat)) : notRestarted (g.over 1 n.size reach) fs = false := by
    show (!g.perLane && _) = false
    rw [lane]
    rfl
  rw [laneAccess_planned g n addr pre act h rest rfl plan lines.grp (idle.before t lines) rows acts]
  dsimp only
  rw [owes, deliver, if_pos (.inl (show (g.over 1 n.size _).lookahead = 0 from now)), restarts, if_neg Bool.false_ne_true, idles]
  obtain ⟨-, -, first, -⟩ := h
  exact parkRestart_each first lines causes addr

/-- The same at its issue. -/
theorem issue_laneFaults (base : Fin 32) (a : Fin 128) (pres : State → Pre) (acts : State → Ready4 → State → State × List RegWrite × List Poisoned)
    (h : CanIssue s) (rest : AtRest s) (some_ : laneSet s ≠ 0) (within : Within (g.reads ++ g.writes) s)
    (idle : Idle s (pres (past true s)) (acts (past true s)))
    (sig : g.perLane = true ∧ g.lookahead = 0 ∧ g.fence = false ∧ g.waitsFor = [] ∧ g.privileged = false ∧ g.handlerOnly = false ∧ g.notInHandler = false)
    (lines : SameButLines (past true s) t)
    (plan : planLanes n (globalAddr s a base) (lanesOf (laneSet s)) (past true s) =
      (t, ⟨[], (lanesOf (laneSet s)).map fun l => ⟨l, code l, globalAddr s a base l⟩, pages, false⟩))
    (owes : oweRecords pages t = t) (causes : ∀ l, causeWord (code l) 0 true = 0x1000 ||| cause l) :
    issue g (fun x s => laneAccess g n (laneAddr s (baseReg base) a) (pres s) (acts s) x s) s =
      .next (park (laneSet s) (replayRecord s cause (globalAddr s a base)) t) := by
  obtain ⟨lane, now, fence, waits, privileged, handler, outside⟩ := sig
  refine issue_past g _ s h within fence waits (by simp [privileged]) (by simp [handler]) outside _ ?_
    ((park_stores ..).trans (lines.stores.trans (stores_of_canIssue h))) ((park_mem ..).trans lines.mem)
  rw [lane, enabled_true, if_neg some_]
  exact laneAccess_faults h rest idle lane now lines plan owes causes

end faults

/-! ## Addresses that fault (R168) -/

theorem causeWord_address (va : DWord) :
    causeWord (if 2 ^ 56 ≤ va.toNat then 0x10 else 0x11) 0 true = 0x1000 ||| (if 2 ^ 56 ≤ va.toNat then 0x10 else 0x11) := by
  split <;> rfl

section address
variable {s : State} {d a : Fin 128} {b : Fin 32}

theorem within_ld (h : Within (memRegs d a false) s) (k : Fin 16) : Within ((ldSig (vReg d) a b k).reads ++ (ldSig (vReg d) a b k).writes) s := by
  have both := within_memRegs_single h
  have hd : Within (vReg d) s := fun r hr => both r (List.mem_append_left _ hr)
  have ha : Within (vReg a) s := fun r hr => both r (List.mem_append_right _ hr)
  exact within_append (within_append ha (within_sPair _ s)) hd

theorem within_st (h : Within (memRegs d a false) s) : Within ((stSig (vReg d) a b).reads ++ (stSig (vReg d) a b).writes) s :=
  within_append (within_append (within_memRegs_single h) (within_sPair _ s)) (within_nil s)

end address

end Sys2Proof.Proofs.MemoryAccess
end

section
/-! Page faults of lanes (R382, R383, R405), and the obligation on memory faults. -/
namespace Sys2Proof.Proofs.MemoryAccess
open Sys2Proof Sys2Proof.Machine Sys2Proof.Claims Sys2Proof.Proofs.MachineState

/-! ## Walks that find no page -/

/-- No TLB on any path holds a translation of an address that the whole package has none of. -/
theorem tlbFind_uncached {s : State} {va : Nat} (h : Uncached s va) (us : List TlbUnit) : tlbFind s s.ctxNo va us = none := by
  induction us with
  | nil => rfl
  | cons u us ih =>
    have miss : tlbAt s u s.ctxNo va = none := List.find?_eq_none.mpr fun e he => by
      have out := h e he
      simp only [Bool.and_eq_true, beq_iff_eq, decide_eq_true_eq]
      rintro ⟨⟨⟨-, ctx⟩, lo⟩, hi⟩
      have := out ctx
      omega
    rw [tlbFind, miss, ih]
    rfl

/-- The entry of the level 0 table for a canonical address (R382). -/
theorem levelIndex_zero {va : Nat} (canonical : va < 2 ^ 56) : levelIndex 0 va = va / 2 ^ 43 := by
  show bitsOf va 43 13 = _
  unfold bitsOf
  omega

/-- A walk ends at an entry that is not valid. -/
theorem walkFrom_invalid {s t : State} {va fuel level table : Nat} {bs : List Byte} (held : lineHeld s (table + 8 * levelIndex level va) = true)
    (read : homeRead .engine (table + 8 * levelIndex level va) 8 s = (t, bs, false)) (invalid : testBit (leNat bs) 0 = false) :
    walkFrom va (fuel + 1) level table s = (t, .absent) := by
  simp only [walkFrom, held, read, invalid, Bool.not_true, Bool.not_false, Bool.false_eq_true, if_false, if_true]

/-- The look-up of an address whose level 0 entry is not valid: the page is not present (R383). -/
theorem lookPage_absent {s : State} {va : Nat} (c : Calm s) (provs : s.provs = []) (root : (s.ctx s.ctxNo).root.toNat < 2 ^ 47)
    (uncached : Uncached s va) (canonical : va < 2 ^ 56) (invalid : s.num ((s.ctx s.ctxNo).root.toNat + 8 * (va / 2 ^ 43)) 8 % 2 = 0)
    {a : Access} (data : a ≠ .fetch) :
    ∃ t, lookPage (.core s.coreNo) s.ctxNo a va s = (t, .fault 0x14 (absentKind a) false) ∧ SameButLines s t := by
  rw [← levelIndex_zero canonical] at invalid
  have index : levelIndex 0 va < 2 ^ 13 := Nat.mod_lt _ (by decide)
  have low : (s.ctx s.ctxNo).root.toNat + 8 * levelIndex 0 va + 8 ≤ 2 ^ 48 := by omega
  obtain ⟨t, read, same⟩ := c.homeRead .engine _ 8 low fun ws t h => observe_noCells .engine ws (h.trans provs)
  have held : lineHeld s ((s.ctx s.ctxNo).root.toNat + 8 * levelIndex 0 va) = true := by
    rw [lineHeld, regionOf_low (by omega)]
    rfl
  have clear : testBit (leNat (s.bytes ((s.ctx s.ctxNo).root.toNat + 8 * levelIndex 0 va) 8)) 0 = false := by
    rw [State.num] at invalid
    rw [testBit, pow_zero, Nat.div_one, invalid]
    rfl
  have walked : walkCtx s.ctxNo va s = (t, .absent) := walkFrom_invalid held read clear
  refine ⟨t, ?_, same⟩
  simp only [lookPage, tlbFind_uncached uncached, walked, transFault, if_neg data]

/-- An access to a page that a walk found not present, and a store to one that is not writable. -/
theorem checkPage_absent {n : Need} {k : Nat} (va : DWord) (s : State) :
    checkPage n va (.fault 0x14 k false) s = (s, .fault 0x14 (some ⟨va, 0x14, k⟩)) := by
  simp [checkPage, nodeWalk, leafAt]

theorem checkPage_readOnly {n : Need} {e : TlbEntry} (store : n.access = .store) (coherent : n.coherent = false) (w : e.w = false) (va : DWord) (s : State) :
    ∃ page, checkPage n va (.entry e) s = (s, .fault 0x15 page) :=
  ⟨some ⟨va, 0x15, 2⟩, by simp [checkPage, nodeWalk, leafAt, checkLeaf, store, coherent, w]⟩

/-! ## Plans of lanes whose pages all fault -/

section plans
variable {n : Need} {addr : Fin 32 → DWord} {s : State} {ls : List (Fin 32)} (address : ∀ l ∈ ls, (addr l).toNat < 2 ^ 56 ∧ (addr l).toNat % n.size = 0)
include address

theorem planLanes_absent (c : Calm s) (provs : s.provs = []) (root : (s.ctx s.ctxNo).root.toNat < 2 ^ 47) (data : n.access ≠ .fetch)
    (absent : ∀ l ∈ ls, Uncached s (addr l).toNat ∧ s.num ((s.ctx s.ctxNo).root.toNat + 8 * ((addr l).toNat / 2 ^ 43)) 8 % 2 = 0) :
    ∃ t pages, planLanes n addr ls s = (t, ⟨[], ls.map fun l => ⟨l, 0x14, addr l⟩, pages, false⟩) ∧ SameButLines s t := by
  have none (l : Fin 32) (hl : l ∈ ls) : addressFault n (addr l) = none := addressFault_none (address l hl).1 (address l hl).2
  obtain ⟨t, qs, looked, lines, found, -, all⟩ := lookPages_all (SameButLines s) (fun _ p => p = .fault 0x14 (absentKind n.access) false) ls none
    (fun l hl t h => by
      have ctx : t.ctx t.ctxNo = s.ctx s.ctxNo := by rw [State.ctx, State.ctxNo, h.ctxs, h.grp]; rfl
      obtain ⟨uncached, invalid⟩ := absent l hl
      obtain ⟨u, looked, same⟩ := lookPage_absent (s := t) (h.calm c) (h.provs.trans provs) (ctx ▸ root) (by unfold Uncached; rw [h.tlb, h.grp]; exact uncached)
        (address l hl).1 (by rw [ctx, h.num]; exact invalid) data
      exact ⟨u, _, looked, h.trans same, rfl⟩) [] s (.refl s) nofun
  obtain ⟨pages, checked⟩ := checkLanes_page (cause := fun _ => 0x14) (ps := qs) (s := t) ls fun l hl =>
    have page := look_of_mem (L := fun _ p => p = .fault 0x14 (absentKind n.access) false) .wait found (all l hl)
    ⟨none l hl, _, (congrArg (checkPage n (addr l) · t) page).trans (checkPage_absent _ _)⟩
  exact ⟨t, pages, by rw [planLanes, looked]; exact checked, lines⟩

theorem planLanes_readOnly (recalled : s.recalled = []) (store : n.access = .store) (coherent : n.coherent = false)
    (readOnly : ∀ l ∈ ls, ∃ e, cached s (addr l).toNat = some e ∧ e.w = false) :
    ∃ pages, planLanes n addr ls s = (s, ⟨[], ls.map fun l => ⟨l, 0x15, addr l⟩, pages, false⟩) := by
  have none (l : Fin 32) (hl : l ∈ ls) : addressFault n (addr l) = none := addressFault_none (address l hl).1 (address l hl).2
  obtain ⟨t, qs, looked, same, found, -, all⟩ := lookPages_all (· = s) (fun _ p => ∃ e, p = .entry e ∧ e.w = false) ls none (fun l hl t h => by
    obtain ⟨e, held, w⟩ := readOnly l hl
    rw [h]
    exact ⟨s, _, lookPage_cached recalled held _, rfl, e, rfl, w⟩) [] s rfl nofun
  obtain ⟨pages, checked⟩ := checkLanes_page (cause := fun _ => 0x15) (ps := qs) (s := s) ls fun l hl => by
    obtain ⟨e, entry, w⟩ := look_of_mem (L := fun _ p => ∃ e, p = .entry e ∧ e.w = false) .wait found (all l hl)
    rw [entry]
    exact ⟨none l hl, checkPage_readOnly store coherent w _ _⟩
  exact ⟨pages, by rw [planLanes, looked, same]; exact checked⟩

end plans

/-! ## The instructions -/

section instructions
variable {s t : State} {d a : Fin 128} {b : Fin 32} (h : CanIssue s) (rest : AtRest s) (some_ : laneSet s ≠ 0) (within : Within (memRegs d a false) s)
  {code : Fin 32 → Nat} {cause : Fin 32 → Word} {pages : List PageFault}
  (lines : SameButLines (past true s) t) (owes : oweRecords pages t = t) (causes : ∀ l, causeWord (code l) 0 true = 0x1000 ||| cause l)
include h rest some_ within lines owes causes

/-- A load whose lanes all fault. -/
theorem load_faults (z : Nat) (f : Nat → Word) (plan : planLanes { size := z, access := .load } (globalAddr s a b) (lanesOf (laneSet s)) (past true s) =
      (t, ⟨[], (lanesOf (laneSet s)).map fun l => ⟨l, code l, globalAddr s a b l⟩, pages, false⟩)) :
    issue (ldSig (vReg d) a b 0) (ldBody (ldSig (vReg d) a b 0) z (vWrite d f) a b) s =
      .next (park (laneSet s) (replayRecord s cause (globalAddr s a b)) t) :=
  issue_laneFaults b a (fun _ => loadPre z) _ h rest some_ (within_ld within 0) (idle_load z d f rest) ⟨rfl, rfl, rfl, rfl, rfl, rfl, rfl⟩ lines plan owes causes

/-- An instruction of the form of a store whose lanes all fault. -/
theorem store_faults (n : Need) (pres : State → Pre) (acts : State → Ready4 → State → State × List RegWrite × List Poisoned)
    (idle : Idle s (pres (past true s)) (acts (past true s))) (plan : planLanes n (globalAddr s a b) (lanesOf (laneSet s)) (past true s) =
      (t, ⟨[], (lanesOf (laneSet s)).map fun l => ⟨l, code l, globalAddr s a b l⟩, pages, false⟩)) :
    issue (stSig (vReg d) a b) (fun x s => laneAccess (stSig (vReg d) a b) n (laneAddr s (baseReg b) a) (pres s) (acts s) x s) s =
      .next (park (laneSet s) (replayRecord s cause (globalAddr s a b)) t) :=
  issue_laneFaults b a pres acts h rest some_ (within_st within) idle ⟨rfl, rfl, rfl, rfl, rfl, rfl, rfl⟩ lines plan owes causes

/-- A plain store whose lanes all fault. -/
theorem plainStore_faults (z : Nat) (f : State → Fin 32 → List Byte)
    (plan : planLanes { size := z, access := .store, inBuffer := true } (globalAddr s a b) (lanesOf (laneSet s)) (past true s) =
      (t, ⟨[], (lanesOf (laneSet s)).map fun l => ⟨l, code l, globalAddr s a b l⟩, pages, false⟩)) :
    issue (stSig (vReg d) a b) (stBody (stSig (vReg d) a b) z f a b) s = .next (park (laneSet s) (replayRecord s cause (globalAddr s a b)) t) :=
  store_faults h rest some_ within lines owes causes _ (fun _ => storePre) _ ⟨fun _ _ => rfl, fun _ _ => ⟨[], rfl, rfl⟩⟩ plan

end instructions

/-- What an instruction leaves whose lanes parked after look-ups that changed lines alone. -/
theorem reads_of_park {i : Instr} {s t : State} {m : Mask} {r : Fin 32 → TrapRecord} (lines : SameButLines (past true s) t)
    (out : exec i s = .next (park m r t)) : Reads i s (park m r (past true s)) :=
  ⟨t.cores, t.owners, t.l2, (park m r (past true s)).regions, sameCores_of lines.sameCores (parkAt_cores ..),
    out.trans (congrArg Host.Outcome.next ((congrArg (park m r) lines.same).trans (park_lines ..)))⟩

/-- Settles O23: lanes that all fault are planned with their faults and no access (`planLanes_address`, `planLanes_absent`, `planLanes_readOnly`), and
an access without ready lanes does nothing but park them (`laneAccess_faults`). -/
theorem memoryFaults : Obligations.MemoryFaults := by
  unfold Obligations.MemoryFaults
  intro s d a b h rest provs some_ within va parked
  have causes (l : Fin 32) := causeWord_address (va l)
  have absentCause (_ : Fin 32) : causeWord 0x14 0 true = 0x1000 ||| 0x14 := rfl
  have readOnlyCause (_ : Fin 32) : causeWord 0x15 0 true = 0x1000 ||| 0x15 := rfl
  have lines : SameButLines (past true s) (past true s) := .refl _
  have owes : oweRecords [] (past true s) = past true s := oweRecords_nil _
  have bits {p : Fin 32 → Prop} (all : ∀ l, bit (laneSet s) l = true → p l) : ∀ l ∈ lanesOf (laneSet s), p l := fun l hl => all l ((mem_lanesOf _ _).mp hl)
  have plan (n : Need) (bad : ∀ l, bit (laneSet s) l = true → 2 ^ 56 ≤ (va l).toNat ∨ (va l).toNat % n.size ≠ 0) :=
    planLanes_address (n := n) (addr := va) (lanesOf (laneSet s)) (past true s) (bits fun l hl => addressFault_some (bad l hl))
  refine ⟨?_, ?_, fun queue address => ⟨fun root absent => ?_, fun readOnly => ?_⟩⟩
  · simp only [loadTable, List.forall_mem_cons]
    have load (z : Nat) (f : Nat → Word) (bad : ∀ l, bit (laneSet s) l = true → 2 ^ 56 ≤ (va l).toNat ∨ (va l).toNat % z ≠ 0) :=
      load_faults h rest some_ within lines owes causes z f (plan { size := z, access := .load } bad)
    exact ⟨load 1 zeroExt, load 1 signExt8, load 2 zeroExt, load 4 zeroExt, nofun⟩
  · simp only [List.forall_mem_cons]
    have store (z : Nat) (bad : ∀ l, bit (laneSet s) l = true → 2 ^ 56 ≤ (va l).toNat ∨ (va l).toNat % z ≠ 0) :=
      plainStore_faults h rest some_ within lines owes causes z (fun s => vBytes s d z) (plan { size := z, access := .store, inBuffer := true } bad)
    refine ⟨fun _ => store 1, fun _ => store 2, fun _ => store 4, fun _ bad => ?_, fun _ bad => ?_, fun _ bad => ?_, nofun⟩
    · exact store_faults h rest some_ within lines owes causes _ (fun _ => noPre) _ (idle_noPre fun _ => rfl)
        (plan { size := 4, access := .store, inBuffer := true } bad)
    · exact store_faults h rest some_ within lines owes causes _ (fun _ => noPre) _ (idle_noPre fun _ => rfl) (plan (cellNeed .store true) bad)
    · exact store_faults h rest some_ within lines owes causes _ (fun s => remotePre 8 (fun l => s.w.rdV d l) (fun _ => 0) id) _
        (idle_reduction 0 8 (fun s l => s.w.rdV d l) _ _ rest) (plan (cellNeed .store true) bad)
  · have absentPlan (n : Need) (size : n.size = 4) (data : n.access ≠ .fetch) := planLanes_absent (n := n) (addr := va) (ls := lanesOf (laneSet s))
      (s := past true s) (by rw [size]; exact bits address) ((calm_of_atRest rest).past true) provs root data
      (by simp only [num_past]; exact bits absent)
    have queueless (pages : List PageFault) {t : State} (lines : SameButLines (past true s) t) : oweRecords pages t = t :=
      oweRecords_noQueue pages (by rw [State.ctx, lines.ctxs, lines.grp]; exact queue)
    simp only [List.forall_mem_cons]
    refine ⟨?_, ?_, nofun⟩
    · obtain ⟨t, pages, planned, lines⟩ := absentPlan { size := 4, access := .load } rfl nofun
      exact reads_of_park lines (load_faults h rest some_ within lines (queueless pages lines) absentCause 4 zeroExt planned)
    · obtain ⟨t, pages, planned, lines⟩ := absentPlan { size := 4, access := .store, inBuffer := true } rfl nofun
      exact reads_of_park lines (plainStore_faults h rest some_ within lines (queueless pages lines) absentCause 4 (fun s => vBytes s d 4) planned)
  · obtain ⟨pages, planned⟩ := planLanes_readOnly (n := { size := 4, access := .store, inBuffer := true }) (addr := va) (s := past true s) (bits address)
      (recalled_of_atRest rest) rfl rfl (bits readOnly)
    exact plainStore_faults h rest some_ within lines (oweRecords_noQueue pages queue) readOnlyCause 4 (fun s => vBytes s d 4) planned

end Sys2Proof.Proofs.MemoryAccess
end

section
/-! Writes at the home slice beside provisional cells (R183, R289): the cells of the words written settle, and besides the bytes only lines, owners and
what fetches and read-only loads keep change. -/
namespace Sys2Proof.Proofs.MemoryAccess
open Sys2Proof Sys2Proof.Machine Sys2Proof.Claims Sys2Proof.Proofs.MachineState

/-! ## A state with other cells and stores -/

/-- A state t that is s with these cells and this log of stores, but for lines, owners and what instruction fetch and read-only loads keep of the bytes
overwritten (R47, R298). -/
def Stored (provs : List Prov) (stores : List Host.Cell) (s t : State) : Prop :=
  ∃ cl rl, SameButLines { s with provs := provs, stores := stores, codeLog := cl, roLog := rl } t

namespace Stored
variable {provs qs : List Prov} {stores log : List Host.Cell} {s t u : State}

theorem refl (s : State) : Stored s.provs s.stores s s := ⟨s.codeLog, s.roLog, .refl s⟩

theorem lines (h : Stored provs stores s t) (k : SameButLines t u) : Stored provs stores s u := by
  obtain ⟨cl, rl, same⟩ := h
  exact ⟨cl, rl, same.trans k⟩

theorem trans (h : Stored provs stores s t) (k : Stored qs log t u) : Stored qs log s u := by
  obtain ⟨_, _, first⟩ := h
  obtain ⟨cl, rl, second⟩ := k
  have moved : SameButLines { s with provs := qs, stores := log, codeLog := cl, roLog := rl }
      { t with provs := qs, stores := log, codeLog := cl, roLog := rl } :=
    ⟨congrArg (fun v : State => { v with provs := qs, stores := log, codeLog := cl, roLog := rl }) first.same, first.cores, first.low⟩
  exact ⟨cl, rl, moved.trans second⟩

theorem setProvs (h : Stored provs stores s t) (qs : List Prov) : Stored qs stores s { t with provs := qs } := by
  obtain ⟨cl, rl, same⟩ := h
  exact ⟨cl, rl, congrArg (fun v : State => { v with provs := qs }) same.same, same.cores, same.low⟩

theorem poke (h : Stored provs stores s t) (a : Nat) (bs : List Byte) : Stored provs (logBytes stores a bs) s (t.poke a bs) := by
  obtain ⟨cl, rl, same⟩ := h
  exact ⟨cl, rl, congrArg (State.poke · a bs) same.same, same.cores, same.low⟩

theorem calm (h : Stored provs stores s t) (c : Calm s) : Calm t := by
  obtain ⟨cl, rl, same⟩ := h
  exact c.update same

theorem provs_eq (h : Stored provs stores s t) : t.provs = provs := by
  obtain ⟨cl, rl, same⟩ := h
  exact same.provs

theorem stores_eq (h : Stored provs stores s t) : t.stores = stores := by
  obtain ⟨cl, rl, same⟩ := h
  exact same.stores

theorem mem (h : Stored provs stores s t) : t.mem = s.mem := by
  obtain ⟨cl, rl, same⟩ := h
  exact same.mem

theorem grp (h : Stored provs stores s t) : t.grp = s.grp := by
  obtain ⟨cl, rl, same⟩ := h
  exact same.grp

theorem iss (h : Stored provs stores s t) : t.iss = s.iss := by
  obtain ⟨cl, rl, same⟩ := h
  exact same.iss

end Stored

/-! ## Writes at the home slice -/

/-- The words of an aligned word. -/
theorem wordsOf_word {a : Nat} (aligned : a % 4 = 0) : wordsOf a 4 = [a] := by
  have one := wordsOf_aligned 1 aligned Nat.one_pos
  simpa using one

/-- A write of a wave at the home slice: the cells of its words settle (R183), and the bytes stand. -/
theorem homeWrite_stored {s : State} (c : Calm s) (uid core a : Nat) (bs : List Byte) (some_ : bs ≠ []) (low : a + bs.length ≤ 2 ^ 48) :
    Stored (s.provs.filter fun x => !(wordsOf a bs.length).contains x.addr) (logBytes s.stores a bs) s (homeWrite (.wave uid core) a bs s) := by
  obtain ⟨cl, rl, noted⟩ := noted_eq uid core a bs.length (wordsOf a bs.length) s
  have pos : 0 < bs.length := List.length_pos_iff.mpr some_
  have start : Stored s.provs s.stores s { s with codeLog := cl, roLog := rl } := ⟨cl, rl, .refl _⟩
  have calm := start.calm c
  have settled (ls : List Nat) : ls.foldl (fun s l => settleAliasesFor a bs.length l (roundLine l s)) { s with codeLog := cl, roLog := rl } =
      { s with codeLog := cl, roLog := rl } := List.foldl_fixed' (fun l => by rw [calm.roundLine, calm.settleAliasesFor]) _
  have used := start.lines (SameButLines.useL2All (((wordsOf a bs.length).map fun b => lineOf b).dedup) true _ calm.device fun l hl => by
    obtain ⟨w, hw, rfl⟩ := List.mem_map.mp (List.mem_dedup.mp hl)
    exact lineOf_low (wordsOf_low hw pos low))
  have freed := used.setProvs (s.provs.filter fun x => !(wordsOf a bs.length).contains x.addr)
  have cells (t : State) (h : t.provs = s.provs) :
      settleWords (wordsOf a bs.length) t = { t with provs := s.provs.filter fun x => !(wordsOf a bs.length).contains x.addr } := by rw [settleWords, h]
  have fanned (ls : List Nat) {t : State} (q : Calm t) : ls.foldl (fun s l => fanToDie (l * 256) s) t = t :=
    List.foldl_fixed' (fun l => fanToDie_none q.regions _) _
  have registered := freed.lines (SameButLines.foldl (fun s w => register (.wave uid core) w s) (wordsOf a bs.length)
    (fun w _ t _ => .register (.wave uid core) w t) (.refl _))
  have after := registered.calm c
  unfold homeWrite
  rw [if_neg some_]
  dsimp only
  rw [noted, settled, cells _ used.provs_eq, fanned _ (freed.calm c), after.endFans, after.clearPoison,
    refuseWords_none _ _ fun w => served_all (s := State.poke _ a bs) after.still.served w]
  exact registered.poke a bs

/-- The same for an aligned word. -/
theorem homeWrite_word {s : State} (c : Calm s) (uid core a : Nat) (x : Word) (aligned : a % 4 = 0) (low : a + 4 ≤ 2 ^ 48) :
    Stored (s.provs.filter fun k => k.addr != a) (logBytes s.stores a (leBytes 4 x.toNat)) s (homeWrite (.wave uid core) a (leBytes 4 x.toNat) s) := by
  have stored := homeWrite_stored c uid core a (leBytes 4 x.toNat) (List.cons_ne_nil _ _) low
  have words : wordsOf a (leBytes 4 x.toNat).length = [a] := wordsOf_word aligned
  have cells : (fun k : Prov => !(wordsOf a (leBytes 4 x.toNat).length).contains k.addr) = fun k => k.addr != a := by
    funext k
    rw [words]
    simp [bne, beq_eq_decide]
  rwa [cells] at stored

/-- Nothing is sent for a write of device memory. -/
theorem sendWrite_near {a : Nat} (low : a < 2 ^ 48) (uid : Nat) (bs : List Byte) (s : State) : sendWrite uid a bs s = s :=
  if_pos (.inl (regionOf_low low))

/-- The log of the stores of lanes, and memory with it laid in (R170). -/
def laneLog (lanes : List (Fin 32)) (pa : Fin 32 → Nat) (bytes : Fin 32 → List Byte) (log : List Host.Cell) : List Host.Cell :=
  lanes.foldl (fun l i => logBytes l (pa i) (bytes i)) log

theorem lay_laneLog (m : Mem) (lanes : List (Fin 32)) (pa : Fin 32 → Nat) (bytes : Fin 32 → List Byte) (log : List Host.Cell) :
    m.lay (laneLog lanes pa bytes log) = storedBy (m.lay log) lanes pa bytes := by
  induction lanes generalizing log with
  | nil => rfl
  | cons l ls ih => exact (ih _).trans (congrArg (storedBy · ls pa bytes) (lay_logBytes m log (pa l) (bytes l)))

/-- What a state with stores and cells, but for its lines, is once the stores are laid into memory. -/
theorem writes_of_stored {i : Instr} {s v t : State} {provs : List Prov} {stores : List Host.Cell} (h : Stored provs stores v t) (clean : v.stores = [])
    (out : exec i s = .next { t with mem := s.mem.lay t.stores, stores := [] }) : Writes i s { v with mem := s.mem.lay stores, provs := provs } := by
  have log := h.stores_eq
  obtain ⟨cl, rl, same⟩ := h
  refine ⟨t.cores, t.owners, t.l2, cl, rl, same.sameCores, out.trans (congrArg Host.Outcome.next ?_)⟩
  have parts := congrArg (fun u : State => { u with mem := s.mem.lay stores, stores := [] }) same.same
  rw [log]
  exact parts.trans (setMem_noStores { v with cores := t.cores, owners := t.owners, l2 := t.l2, codeLog := cl, roLog := rl, provs := provs } _ clean)

end Sys2Proof.Proofs.MemoryAccess
end

section
/-! Tentative stores (R183 to R187): tst opens a cell for each word, retract restores the words of the wave's unobserved cells, settle frees the wave's cells. -/
namespace Sys2Proof.Proofs.MemoryAccess
open Sys2Proof Sys2Proof.Machine Sys2Proof.Claims Sys2Proof.Proofs.MachineState

/-! ## Words of lanes -/

/-- The ready accesses of lanes at their places. -/
abbrev readyAt (lanes : List (Fin 32)) (va : Fin 32 → DWord) (pa : Fin 32 → Nat) : Ready4 := lanes.map fun l => (l, va l, pa l, false)

/-- Lanes whose words are all different. -/
abbrev Distinct (lanes : List (Fin 32)) (pa : Fin 32 → Nat) : Prop := lanes.Pairwise fun l j => pa l ≠ pa j

theorem distinct_of_apart {pa : Fin 32 → Nat} {s : State} (apart : Apart pa s) : Distinct (lanesOf (laneSet s)) pa := by
  have sorted : (lanesOf (laneSet s)).Pairwise (· < ·) := List.Pairwise.filter _ (by decide)
  exact sorted.imp_of_mem fun {l j} hl hj lt same => absurd (apart l j ((mem_lanesOf _ _).mp hl) ((mem_lanesOf _ _).mp hj) same) lt.ne

/-- Accesses to different words are each the last of their word. -/
theorem foldl_lastPerWord (gs acc : Ready4) (h : (acc ++ gs).Pairwise fun a b => a.2.2.1 ≠ b.2.2.1) :
    gs.foldl (fun l a => (l.filter fun b => b.2.2.1 != a.2.2.1) ++ [a]) acc = acc ++ gs := by
  induction gs generalizing acc with
  | nil => simp
  | cons g gs ih =>
    obtain ⟨-, -, cross⟩ := List.pairwise_append.mp h
    have kept : acc.filter (fun b => b.2.2.1 != g.2.2.1) = acc := List.filter_eq_self.mpr fun b hb => bne_iff_ne.mpr (cross b hb g List.mem_cons_self)
    rw [List.foldl_cons, kept, ih _ (by simpa using h), List.append_assoc, List.singleton_append]

theorem lastPerWord_distinct {lanes : List (Fin 32)} {pa : Fin 32 → Nat} (va : Fin 32 → DWord) (h : Distinct lanes pa) :
    lastPerWord (readyAt lanes va pa) = readyAt lanes va pa :=
  foldl_lastPerWord _ [] (by rw [List.nil_append]; exact List.pairwise_map.mpr h)

/-- The value of a lane in a table by its word. -/
theorem look_distinct {α : Type} {lanes : List (Fin 32)} {pa : Fin 32 → Nat} (h : Distinct lanes pa) (f : Fin 32 → α) (d : α) {l : Fin 32} (hl : l ∈ lanes) :
    look (lanes.map fun l => (pa l, f l)) (pa l) d = f l := by
  induction lanes with
  | nil => cases hl
  | cons j ls ih =>
    obtain ⟨others, rest⟩ := List.pairwise_cons.mp h
    rw [List.map_cons, look]
    rcases List.mem_cons.mp hl with rfl | hl
    · exact if_pos rfl
    · rw [if_neg (others l hl)]
      exact ih rest hl

/-- The value of each lane of a mask, 0 elsewhere. -/
theorem lanesFrom_mask {α : Type} [Zero α] (m : Mask) (f : Fin 32 → α) : lanesFrom 0 ((lanesOf m).map fun l => (l, f l)) = perLane m f := by
  unfold lanesFrom perLane
  congr 1
  funext l
  rw [find_lanes]
  cases bit m l <;> rfl

/-! ## tst (R185) -/

/-- The cell of a word of device memory. -/
theorem cellOf_word {s : State} {a : Nat} (aligned : a % 4 = 0) : cellOf s a = s.provs.find? fun k => k.addr == a := by
  rw [cellOf, wordOf_aligned aligned]

/-- A tentative store of a word that has no cell opens one with the old and the new word. -/
theorem homeTst_stored {s : State} (c : Calm s) (uid core a : Nat) (x : Word) (aligned : a % 4 = 0) (low : a + 4 ≤ 2 ^ 48) (free : ∀ k ∈ s.provs, k.addr ≠ a)
    (room : s.provs.length < 128) :
    Stored (s.provs ++ [⟨a, BitVec.ofNat 32 (s.num a 4), x, uid, false⟩]) (logBytes s.stores a (leBytes 4 x.toNat)) s (homeTst uid core a x s) := by
  obtain ⟨t, read, same⟩ := c.homeRead .quiet a 4 low fun ws t _ => observe_quiet ws t
  have none : cellOf s a = none := by
    rw [cellOf_word aligned]
    exact List.find?_eq_none.mpr fun k hk => by simpa using free k hk
  have few : ¬ Config.cellsPerSlice ≤ (t.provs.filter fun k => sliceOf k.addr == sliceOf a).length := by
    have := List.length_filter_le (fun k : Prov => sliceOf k.addr == sliceOf a) t.provs
    rw [same.provs] at this ⊢
    exact not_le.mpr (this.trans_lt room)
  have written := homeWrite_word (same.calm c) uid core a x aligned low
  have kept : s.provs.filter (fun k => k.addr != a) = s.provs := List.filter_eq_self.mpr fun k hk => bne_iff_ne.mpr (free k hk)
  rw [same.provs, same.stores, kept] at written
  have stored := ((Stored.refl s).lines same).trans written
  have opened := stored.setProvs (s.provs ++ [⟨a, BitVec.ofNat 32 (s.num a 4), x, uid, false⟩])
  rw [homeTst, none]
  dsimp only
  rw [read]
  dsimp only
  rw [if_neg few, stored.provs_eq]
  exact opened

/-- tst of one word at its home slice and in the core's own copy. -/
theorem tstOne_stored {s : State} (c : Calm s) (l : Fin 32) (va : DWord) (a : Nat) (x : Word) (aligned : a % 4 = 0) (low : a + 4 ≤ 2 ^ 48)
    (free : ∀ k ∈ s.provs, k.addr ≠ a) (room : s.provs.length < 128) :
    Stored (s.provs ++ [⟨a, BitVec.ofNat 32 (s.num a 4), x, s.w.uid, false⟩]) (logBytes s.stores a (leBytes 4 x.toNat)) s
      (tstOne (l, va, a, false) x s) := by
  have stored := homeTst_stored c s.w.uid s.coreNo a x aligned low free room
  simp only [tstOne, sendWrite_near (show a < 2 ^ 48 by omega)]
  exact (stored.lines (.updateCopy _ a _ true _)).lines (.mapWord _ a _ _)

/-- Bytes stored in one aligned word leave the number of another. -/
theorem num_otherWord {s t : State} {a b : Nat} {bs : List Byte} (mem : t.mem = s.mem) (log : t.stores = logBytes s.stores a bs) (four : bs.length = 4)
    (ha : a % 4 = 0) (hb : b % 4 = 0) (other : a ≠ b) : t.num b 4 = s.num b 4 := by
  rw [State.num, State.num, bytes_eq_map, bytes_eq_map]
  refine congrArg leNat (List.map_congr_left fun i hi => ?_)
  have lt := List.mem_range.mp hi
  rw [State.byte, State.byte, mem, log]
  exact logRead_logBytes bs s.mem s.stores a (b + i) (by omega)

/-- The words of lanes are aligned words of device memory. -/
abbrev AlignedWords (lanes : List (Fin 32)) (pa : Fin 32 → Nat) : Prop := ∀ l ∈ lanes, pa l % 4 = 0 ∧ pa l + 4 ≤ 2 ^ 48

/-- tst of different words in ascending lane order, with the values of a wave x. -/
theorem foldl_tstOne_stored (x : Fin 32 → Word) (uid : Nat) (va : Fin 32 → DWord) (pa : Fin 32 → Nat) (lanes : List (Fin 32)) {s : State} (wave : s.w.uid = uid)
    (c : Calm s) (words : AlignedWords lanes pa) (apart : Distinct lanes pa) (free : ∀ l ∈ lanes, ∀ k ∈ s.provs, k.addr ≠ pa l)
    (room : s.provs.length + lanes.length ≤ 128) :
    Stored (s.provs ++ lanes.map fun l => ⟨pa l, BitVec.ofNat 32 (s.num (pa l) 4), x l, uid, false⟩)
      (laneLog lanes pa (fun l => leBytes 4 (x l).toNat) s.stores) s ((readyAt lanes va pa).foldl (fun t e => tstOne e (x e.1) t) s) := by
  induction lanes generalizing s with
  | nil =>
    rw [List.map_nil, List.append_nil]
    exact .refl s
  | cons l ls ih =>
    obtain ⟨others, rest⟩ := List.pairwise_cons.mp apart
    obtain ⟨aligned, low⟩ := words l List.mem_cons_self
    rw [List.length_cons] at room
    have first := tstOne_stored c l (va l) (pa l) (x l) aligned low (free l List.mem_cons_self) (by omega)
    have later := ih ((congrArg (·.wave.uid) first.grp).trans wave) (first.calm c) (fun j hj => words j (List.mem_cons_of_mem _ hj)) rest
      (fun j hj k hk => by
        rw [first.provs_eq] at hk
        rcases List.mem_append.mp hk with hk | hk
        · exact free j (List.mem_cons_of_mem _ hj) k hk
        · rw [List.mem_singleton.mp hk]
          exact others j hj)
      (by rw [first.provs_eq, List.length_append, List.length_singleton]; omega)
    have nums : (ls.map fun j => (⟨pa j, BitVec.ofNat 32 ((tstOne (l, va l, pa l, false) (x l) s).num (pa j) 4), x j, uid, false⟩ : Prov)) =
        ls.map fun j => ⟨pa j, BitVec.ofNat 32 (s.num (pa j) 4), x j, uid, false⟩ := List.map_congr_left fun j hj => by
      rw [num_otherWord first.mem first.stores_eq rfl aligned (words j (List.mem_cons_of_mem _ hj)).1 (others j hj)]
    rw [nums, first.provs_eq, first.stores_eq, wave, List.append_assoc] at later
    exact first.trans later

end Sys2Proof.Proofs.MemoryAccess
end

section
/-! retract and settle (R186, R187): the words of the wave's unobserved cells are restored, and the cells it asks for are freed. -/
namespace Sys2Proof.Proofs.MemoryAccess
open Sys2Proof Sys2Proof.Machine Sys2Proof.Claims Sys2Proof.Proofs.MachineState

/-! ## One word -/

/-- What retract of a wave finds at a cell (R186). -/
def retractCode (uid : Nat) : Option Prov → BitVec 2
  | none => 2
  | some c => if c.wave ≠ uid then 2 else if c.obs then 1 else 0

/-- The former value of a word, as its cell holds it. -/
abbrev formerWord (cell : Option Prov) : Word := (cell.map (·.old)).getD 0

/-- The cells of a word. -/
theorem settleWords_one (a : Nat) (s : State) : settleWords [a] s = { s with provs := s.provs.filter fun k => k.addr != a } := by
  have cells : (fun c : Prov => !List.contains [a] c.addr) = fun k => k.addr != a := by
    funext k
    simp [bne, beq_eq_decide]
  rw [settleWords, cells]

/-- What retract of one word leaves and says: cells and stores other than its own word's stay. -/
theorem homeRetract_stored {s : State} (c : Calm s) (uid core a : Nat) (aligned : a % 4 = 0) (low : a + 4 ≤ 2 ^ 48) {cell : Option Prov}
    (found : (s.provs.find? fun k => k.addr == a) = cell) :
    ∃ t, homeRetract uid core a s = (t, (retractCode uid cell).toNat) ∧
      Stored (s.provs.filter fun k => !(a == k.addr && retractCode uid cell != 2))
        (if retractCode uid cell = 0 then logBytes s.stores a (leBytes 4 (formerWord cell).toNat) else s.stores) s t := by
  have untouched : s.provs.filter (fun k => !(a == k.addr && (2 : BitVec 2) != 2)) = s.provs := List.filter_eq_self.mpr fun k _ => by simp
  have freed {code : BitVec 2} (some_ : code ≠ 2) : (fun k : Prov => !(a == k.addr && code != 2)) = fun k => k.addr != a := by
    funext k
    rw [bne_iff_ne.mpr some_, Bool.and_true, bne, beq_eq_decide, beq_eq_decide, decide_eq_decide.mpr eq_comm]
  simp only [homeRetract, c.roundLine, cellOf_word aligned, found]
  cases cell with
  | none =>
    simp only [retractCode, untouched]
    exact ⟨s, rfl, .refl s⟩
  | some k =>
    dsimp only [retractCode]
    by_cases foreign : k.wave ≠ uid
    · simp only [if_pos foreign, untouched]
      exact ⟨s, rfl, .refl s⟩
    · simp only [if_neg foreign]
      by_cases seen : k.obs = true
      · simp only [if_pos seen, freed (show (1 : BitVec 2) ≠ 2 by decide), settleWords_one]
        exact ⟨_, rfl, (Stored.refl s).setProvs _⟩
      · simp only [if_neg seen, freed (show (0 : BitVec 2) ≠ 2 by decide)]
        exact ⟨_, rfl, (homeWrite_word c uid core a k.old aligned low).lines (.mapWord ..)⟩

/-! ## The words of lanes -/

/-- A search for a word that the cells removed are none of. -/
theorem find_otherWord (cells : List Prov) {a b : Nat} (other : a ≠ b) (x : Bool) :
    ((cells.filter fun k => !(a == k.addr && x)).find? fun k => k.addr == b) = cells.find? fun k => k.addr == b := by
  rw [List.find?_filter]
  congr 1
  funext k
  by_cases same : k.addr = b
  · simp [same, other]
  · simp [same]

/-- retract of different words in ascending lane order. -/
theorem retractWords_stored (uid : Nat) (va : Fin 32 → DWord) (pa : Fin 32 → Nat) (cell : Fin 32 → Option Prov) (lanes : List (Fin 32)) {s : State}
    (wave : s.w.uid = uid) (c : Calm s) (words : AlignedWords lanes pa) (apart : Distinct lanes pa)
    (found : ∀ l ∈ lanes, (s.provs.find? fun k => k.addr == pa l) = cell l) :
    ∃ t, retractWords (readyAt lanes va pa) s = (t, lanes.map fun l => (pa l, (retractCode uid (cell l)).toNat)) ∧
      Stored (s.provs.filter fun k => !(lanes.any fun l => pa l == k.addr && retractCode uid (cell l) != 2))
        (laneLog (lanes.filter fun l => retractCode uid (cell l) == 0) pa (fun l => leBytes 4 (formerWord (cell l)).toNat) s.stores) s t := by
  induction lanes generalizing s with
  | nil =>
    have all : s.provs.filter (fun _ => true) = s.provs := List.filter_eq_self.mpr fun _ _ => rfl
    simp only [List.any_nil, Bool.not_false, all]
    exact ⟨s, rfl, .refl s⟩
  | cons l ls ih =>
    obtain ⟨others, rest⟩ := List.pairwise_cons.mp apart
    obtain ⟨aligned, low⟩ := words l List.mem_cons_self
    obtain ⟨t, one, first⟩ := homeRetract_stored c s.w.uid s.coreNo (pa l) aligned low (found l List.mem_cons_self)
    rw [wave] at one first
    obtain ⟨u, retracted, later⟩ := ih ((congrArg (·.wave.uid) first.grp).trans wave) (first.calm c) (fun j hj => words j (List.mem_cons_of_mem _ hj)) rest
      fun j hj => by
        rw [first.provs_eq, find_otherWord _ (others j hj)]
        exact found j (List.mem_cons_of_mem _ hj)
    have near (c : Prop) [Decidable c] : (if c then sendWrite t.w.uid (pa l) (t.bytes (pa l) 4) t else t) = t := by
      rw [sendWrite_near (show pa l < 2 ^ 48 by omega), ite_self]
    refine ⟨u, ?_, ?_⟩
    · simp only [readyAt, List.map_cons, retractWords, c.marked, wave, one, near, Bool.false_eq_true, if_false]
      rw [show retractWords _ t = _ from retracted]
    · rw [first.provs_eq, first.stores_eq, List.filter_filter] at later
      have whole := first.trans later
      have log : laneLog ((l :: ls).filter fun l => retractCode uid (cell l) == 0) pa (fun l => leBytes 4 (formerWord (cell l)).toNat) s.stores =
          laneLog (ls.filter fun l => retractCode uid (cell l) == 0) pa (fun l => leBytes 4 (formerWord (cell l)).toNat)
            (if retractCode uid (cell l) = 0 then logBytes s.stores (pa l) (leBytes 4 (formerWord (cell l)).toNat) else s.stores) := by
        by_cases zero : retractCode uid (cell l) = 0
        · rw [List.filter_cons_of_pos (by simpa using zero), if_pos zero]
          rfl
        · rw [List.filter_cons_of_neg (by simpa using zero), if_neg zero]
      rw [log]
      simpa only [List.any_cons, Bool.not_or, Bool.and_comm] using whole

/-! ## The wave's registers beside cells and stores -/

/-- What changes a state alike with other lines, owners, cells, stores and notes. -/
def Beside (f : State → State) : Prop := ∀ (s : State) cores owners l2 provs stores cl rl,
  f { s with cores := cores, owners := owners, l2 := l2, provs := provs, stores := stores, codeLog := cl, roLog := rl } =
    { f s with cores := cores, owners := owners, l2 := l2, provs := provs, stores := stores, codeLog := cl, roLog := rl }

theorem Stored.under {f : State → State} (alike : Beside f) {provs : List Prov} {stores : List Host.Cell} {s t : State} (h : Stored provs stores s t) :
    Stored provs stores (f s) (f t) := by
  obtain ⟨cl, rl, same⟩ := h
  have own (u : State) : f u = { f u with
      cores := u.cores, owners := u.owners, l2 := u.l2, provs := u.provs, stores := u.stores, codeLog := u.codeLog, roLog := u.roLog } := alike u ..
  have cores (u : State) : (f u).cores = u.cores := (congrArg State.cores (own u) :)
  have l2 (u : State) : (f u).l2 = u.l2 := (congrArg State.l2 (own u) :)
  have owners (u : State) : (f u).owners = u.owners := (congrArg State.owners (own u) :)
  refine ⟨cl, rl, ?_, fun k => ?_, fun device => ?_⟩
  · rw [cores t, l2 t, owners t]
    exact (congrArg f same.same).trans (alike s t.cores t.owners t.l2 provs stores cl rl)
  · have h := same.cores k
    simpa only [State.core, cores] using h
  · have h := same.low
    simp only [DeviceL2, l2] at h device ⊢
    exact h device

theorem beside_applyAll (ws : List RegWrite) : Beside fun s => applyAll s ws := by
  intro s cores owners l2 provs stores cl rl
  induction ws generalizing s with
  | nil => rfl
  | cons w ws ih =>
    have one : RegWrite.apply { s with cores := cores, owners := owners, l2 := l2, provs := provs, stores := stores, codeLog := cl, roLog := rl } w =
        { RegWrite.apply s w with cores := cores, owners := owners, l2 := l2, provs := provs, stores := stores, codeLog := cl, roLog := rl } := by
      cases w with
      | s n x =>
        unfold RegWrite.apply State.wrS
        show (match s.w.own with
          | some r => _
          | none => _) = _
        dsimp only
        cases s.w.own <;> rfl
      | _ => rfl
    exact (congrArg (applyAll · ws) one).trans (ih _)

theorem beside_deliveredAs (acc : Accesses) (k : Nat) (dests : List Reg) (ws : List RegWrite) (en : Mask) (ordered : Bool) (s : State) :
    Beside (deliveredAs acc k dests ws en ordered s) := by
  intro t cores owners l2 provs stores cl rl
  unfold deliveredAs
  split
  · exact beside_applyAll ws t ..
  · rfl

end Sys2Proof.Proofs.MemoryAccess
end

section
/-! The obligation on tentative stores: tst, retract and settle of lanes whose words are mapped. -/
namespace Sys2Proof.Proofs.MemoryAccess
open Sys2Proof Sys2Proof.Machine Sys2Proof.Claims Sys2Proof.Proofs.MachineState

section acts
variable {s : State} {pa : Fin 32 → Nat} (va : Fin 32 → DWord)

/-- The registers that retract of the lanes of a mask writes. -/
def retractWrites (p : Nat) (m : Mask) (code : Fin 32 → BitVec 2) : List RegWrite :=
  [.p p m (maskOf fun l => bit m l && code l == 0), .retcode m (perLane m code)]

/-- The codes of lanes whose words are all different, each lane's own. -/
theorem codes_distinct {m : Mask} (apart : Distinct (lanesOf m) pa) (code : Fin 32 → BitVec 2) :
    (((readyAt (lanesOf m) va pa).filter fun e => ((lanesOf m).map fun l => (pa l, (code l).toNat)).any fun c => c.1 == e.2.2.1).map fun e =>
      (e.1, look ((lanesOf m).map fun l => (pa l, (code l).toNat)) e.2.2.1 2)) = (lanesOf m).map fun l => (l, (code l).toNat) := by
  have all : (readyAt (lanesOf m) va pa).filter (fun e => ((lanesOf m).map fun l => (pa l, (code l).toNat)).any fun c => c.1 == e.2.2.1) =
      readyAt (lanesOf m) va pa := List.filter_eq_self.mpr fun e he => by
    obtain ⟨l, hl, rfl⟩ := List.mem_map.mp he
    exact List.any_eq_true.mpr ⟨_, List.mem_map_of_mem hl, beq_self_eq_true _⟩
  rw [all, List.map_map]
  exact List.map_congr_left fun l hl => congrArg (Prod.mk l) (look_distinct apart (fun l => (code l).toNat) 2 hl)

/-- The lanes of a mask whose code is 0. -/
theorem zeroCodes (m : Mask) (code : Fin 32 → BitVec 2) :
    (maskOf fun l => ((lanesOf m).map fun l => (l, (code l).toNat)).any fun e => e.1 == l && e.2 == 0) = maskOf fun l => bit m l && code l == 0 := by
  refine mask_ext _ _ fun l => ?_
  rw [bit_maskOf, bit_maskOf, Bool.eq_iff_iff]
  simp [BitVec.toNat_eq]

/-- settle of words frees the wave's own cells of them (R187). -/
theorem foldl_homeSettle (lanes : List (Fin 32)) (words : AlignedWords lanes pa) :
    (readyAt lanes va pa).foldl (fun s e => homeSettle s.w.uid e.2.2.1 s) s =
      { s with provs := s.provs.filter fun k => !(k.wave == s.w.uid && lanes.any fun l => pa l == k.addr) } := by
  induction lanes generalizing s with
  | nil =>
    have all : s.provs.filter (fun k => !(k.wave == s.w.uid && false)) = s.provs := List.filter_eq_self.mpr fun _ _ => by rw [Bool.and_false]; rfl
    simp only [List.any_nil, all]
    rfl
  | cons l ls ih =>
    have rest := ih (s := homeSettle s.w.uid (pa l) s) fun j hj => words j (List.mem_cons_of_mem _ hj)
    refine rest.trans (congrArg (fun ps : List Prov => { s with provs := ps }) ?_)
    refine (List.filter_filter ..).trans (congrArg (s.provs.filter ·) (funext fun k => ?_))
    rw [wordOf_aligned (words l List.mem_cons_self).1, List.any_cons, Bool.beq_comm (a := pa l)]
    show (!(k.wave == s.w.uid && _) && (!(k.addr == pa l) || !(k.wave == s.w.uid))) = _
    cases k.wave == s.w.uid <;> cases k.addr == pa l <;> simp

end acts

/-- The words of mapped lanes. -/
theorem alignedWords_of_mapped {s : State} {pa : Fin 32 → Nat} {a : Fin 128} {b : Fin 32} {store : Bool}
    (map : ∀ l, bit (laneSet s) l = true → Mapped store 4 (globalAddr s a b l) (pa l) s) :
    AlignedWords (lanesOf (laneSet s)) pa := fun l hl => mapped_words (n := 1) (by decide) (by decide) (map l ((mem_lanesOf _ _).mp hl))

section instructions
variable {s : State} {pa : Fin 32 → Nat} {v a : Fin 128} {b : Fin 32} (h : CanIssue s) (rest : AtRest s) (some_ : laneSet s ≠ 0)
include h rest some_

/-- tst of lanes whose words are mapped, in a memory without cells. -/
theorem exec_tst (within : Within (memRegs v a false) s) (provs : s.provs = [])
    (map : ∀ l, bit (laneSet s) l = true → Mapped true 4 (globalAddr s a b l) (pa l) s) (apart : Apart pa s) :
    Writes (.tst v a b) s { past true s with
      mem := storedBy s.mem (lanesOf (laneSet s)) pa fun l => leBytes 4 (s.w.rdV v l).toNat
      provs := (lanesOf (laneSet s)).map fun l => ⟨pa l, BitVec.ofNat 32 (s.num (pa l) 4), s.w.rdV v l, s.w.uid, false⟩ } := by
  have clean : (past true s).stores = [] := stores_of_canIssue h
  have none : (past true s).provs = [] := provs
  have few : (lanesOf (laneSet s)).length ≤ 32 := List.length_filter_le _ _
  have distinct := distinct_of_apart apart
  have stored := foldl_tstOne_stored (s.w.rdV v) s.w.uid (globalAddr s a b) pa (lanesOf (laneSet s)) (s := past true s) rfl ((calm_of_atRest rest).past true)
    (alignedWords_of_mapped map) distinct (by rw [none]; exact fun _ _ => nofun)
    (by rw [none, List.length_nil, Nat.zero_add]; exact few.trans (show 32 ≤ 128 by decide))
  rw [none, clean, List.nil_append] at stored
  simp only [num_past] at stored
  have body : tstBody (stSig (vReg v) a b) v a b (execOf true s) (past true s) =
      (readyAt (lanesOf (laneSet s)) (globalAddr s a b) pa).foldl (fun t e => tstOne e (s.w.rdV v e.1) t) (past true s) :=
    laneAccess_mapped (v := (readyAt (lanesOf (laneSet s)) (globalAddr s a b) pa).foldl (fun t e => tstOne e (s.w.rdV v e.1) t) (past true s)) (ws := [])
      (stSig (vReg v) a b) (cellNeed .store true) true (globalAddr s a b) pa noPre _ h rest map (fun _ => rfl) nofun rfl (epilogues_of_atRest rest)
      (Prod.ext (congrArg (fun gs : Ready4 => gs.foldl (fun t e => tstOne e (s.w.rdV v e.1) t) (past true s)) (lastPerWord_distinct _ distinct)) rfl) stored.iss
  have out := issue_lanes_stores (stSig (vReg v) a b) (tstBody (stSig (vReg v) a b) v a b) h rfl some_ (within_st within) rfl rfl rfl rfl rfl body
  have whole := writes_of_stored (i := .tst v a b) (s := s) (v := past true s) stored clean out
  rw [lay_laneLog] at whole
  exact whole

/-- retract of lanes whose words are mapped. -/
theorem exec_retract (addr : Within (vReg a) s) (p : Fin 128) (k : Fin 16) (named : p.val < 7)
    (map : ∀ l, bit (laneSet s) l = true → Mapped true 4 (globalAddr s a b l) (pa l) s) (apart : Apart pa s) (cell : Fin 32 → Option Prov)
    (found : ∀ l, (s.provs.find? fun c => c.addr == pa l) = cell l) :
    Writes (.retract p a b k) s { deliveredAs ⟨false, true, 1⟩ k.val [.p p.val, .retcode]
        (retractWrites p.val (laneSet s) fun l => retractCode s.w.uid (cell l)) (laneSet s) true s (past true s) with
      mem := storedBy s.mem ((lanesOf (laneSet s)).filter fun l => retractCode s.w.uid (cell l) == 0) pa fun l => leBytes 4 (formerWord (cell l)).toNat
      provs := s.provs.filter fun c => !(lanesOf (laneSet s)).any fun l => pa l == c.addr && retractCode s.w.uid (cell l) != 2 } := by
  have calm := (calm_of_atRest rest).past true
  have distinct := distinct_of_apart apart
  have dests : (retractSig p a b k).writes = [.p p.val, .retcode] := congrArg (· ++ [Reg.retcode]) (if_pos named)
  obtain ⟨t, retracted, stored⟩ := retractWords_stored s.w.uid (globalAddr s a b) pa cell (lanesOf (laneSet s)) (s := past true s) rfl calm
    (alignedWords_of_mapped map) distinct fun l _ => found l
  have body : retractBody (retractSig p a b k) p a b (execOf true s) (past true s) = deliveredAs ⟨false, true, 1⟩ k.val [.p p.val, .retcode]
      (retractWrites p.val (laneSet s) fun l => retractCode s.w.uid (cell l)) (laneSet s) true s t := by
    rw [← dests]
    refine laneAccess_mapped (retractSig p a b k) (cellNeed .store true) true (globalAddr s a b) pa noPre _ h rest map (fun _ => rfl) nofun rfl
      (epilogues_of_atRest rest) ?_ stored.iss
    have good : (readyAt (lanesOf (laneSet s)) (globalAddr s a b) pa).filter (fun e => !(past true s).marked (wordOf e.2.2.1)) =
        readyAt (lanesOf (laneSet s)) (globalAddr s a b) pa := List.filter_eq_self.mpr fun e _ => by rw [calm.marked]; rfl
    have bad : (readyAt (lanesOf (laneSet s)) (globalAddr s a b) pa).filter (fun e => (past true s).marked (wordOf e.2.2.1)) = [] :=
      List.filter_eq_nil_iff.mpr fun e _ => by rw [calm.marked]; exact Bool.false_ne_true
    dsimp only
    rw [good, bad, lastPerWord_distinct _ distinct, retracted]
    dsimp only
    rw [codes_distinct _ distinct, maskFrom_lanes, zeroCodes, List.map_map]
    have own : ((fun e : Fin 32 × Nat => (e.1, BitVec.ofNat 2 e.2)) ∘ fun l => (l, (retractCode s.w.uid (cell l)).toNat)) =
        fun l => (l, retractCode s.w.uid (cell l)) := funext fun l => congrArg (Prod.mk l) ((BitVec.ofNat_toNat ..).trans (BitVec.setWidth_eq _))
    rw [own, lanesFrom_mask]
    rfl
  have retcode : Within [.retcode] s := fun r hr => by
    obtain rfl := List.mem_singleton.mp hr
    rfl
  have out := issue_lanes_stores (retractSig p a b k) (retractBody (retractSig p a b k) p a b) h rfl some_
    (within_append (within_append addr (within_sPair _ s)) (within_append (IntegerAndLanes.within_pReg p.val s) retcode)) rfl rfl rfl rfl rfl body
  have clean : (past true s).stores = [] := stores_of_canIssue h
  rw [clean] at stored
  have whole := writes_of_stored (i := .retract p a b k) (s := s) (stored.under (beside_deliveredAs ⟨false, true, 1⟩ k.val _ _ _ true s))
    ((deliveredAs_frame ..).2.trans clean) out
  rw [lay_laneLog] at whole
  exact whole

/-- settle of lanes whose words are mapped. -/
theorem exec_settle (addr : Within (vReg a) s) (map : ∀ l, bit (laneSet s) l = true → Mapped false 4 (globalAddr s a b l) (pa l) s) :
    exec (.settle a b) s = .next { past true s with
      provs := s.provs.filter fun c => !(c.wave == s.w.uid && (lanesOf (laneSet s)).any fun l => pa l == c.addr) } := by
  have body : settleBody { stSig [] a b with ordered := false } a b (execOf true s) (past true s) = { past true s with
      provs := s.provs.filter fun c => !(c.wave == s.w.uid && (lanesOf (laneSet s)).any fun l => pa l == c.addr) } :=
    laneAccess_mapped (ws := []) { stSig [] a b with ordered := false } (cellNeed .load false) false (globalAddr s a b) pa noPre _ h rest map nofun nofun rfl
      (epilogues_of_atRest rest) (Prod.ext (foldl_homeSettle (globalAddr s a b) (s := past true s) _ (alignedWords_of_mapped map)) rfl) rfl
  refine issue_past { stSig [] a b with ordered := false } (settleBody { stSig [] a b with ordered := false } a b) s h
    (within_append (within_append addr (within_sPair _ s)) (within_nil s)) rfl rfl nofun nofun rfl _ ?_ (stores_of_canIssue h) rfl
  rw [show ({ stSig [] a b with ordered := false } : Sig).perLane = true from rfl, enabled_true, if_neg some_]
  exact body

end instructions

/-- Settles O22: tst of different words opens their cells one after another (`foldl_tstOne_stored`), retract of each word looks at its own cell alone
(`retractWords_stored`), and settle frees what it asks for (`foldl_homeSettle`). -/
theorem tentativeStores : Obligations.TentativeStores := by
  unfold Obligations.TentativeStores
  intro s pa v a b k h rest some_ within
  have addr : Within (vReg a) s := fun r hr => within_memRegs_single within r (List.mem_append_right _ hr)
  refine ⟨exec_tst h rest some_ within, fun p named map apart => ?_, exec_settle h rest some_ addr⟩
  exact exec_retract h rest some_ addr p k named map apart (fun l => s.provs.find? fun c => c.addr == pa l) fun _ => rfl

end Sys2Proof.Proofs.MemoryAccess
end

section
/-! Copies into scratch behind what is pending (R179, R288). -/
namespace Sys2Proof.Proofs.MemoryAccess
open Sys2Proof Sys2Proof.Machine Sys2Proof.Claims Sys2Proof.Proofs.MachineState

/-- A store that is pending for lane 1 and reaches memory in lane 0, at the four bytes of address 0. -/
def strayStore : Pending :=
  { id := 0, issue := 0, pc := 0, lanes := 2, enabled := 2, issued := Lanes.all 0, look := 2, dests := [], writes := [], faults := [], ordered := true,
    load := false, reach := [(0, 0, 4)], space := 1, stores := true, restart := true, on := .time }

/-- A wave whose lane 0 issues beside that store. Pair 0 is 0, and pair 2 asks for a copy of four bytes into scratch on tag 0, which the group holds with a
granule of scratch. -/
def copyBesideStray : State := { State.reset with
  iss := Issue.of 1 0x1000 4 none
  grp := { State.reset.grp with
    s := State.reset.grp.s.set 3 4
    tags := 1
    allot := 0x100
    wave := { State.reset.grp.wave with pending := [strayStore] } } }

/-- The store overlaps the copy's source in lane 0 and holds it at issue (R288): the run stays chosen and its PCs stand. -/
theorem cpSc_of_stray : exec (.cpSc 0 2) copyBesideStray = .next (stallBack (execOf false copyBesideStray) (past false copyBesideStray)) :=
  next_of _ _ _ rfl rfl rfl

/-- Refutes O24: its clause on cp.sc does not assume that what is pending reaches memory in its own lanes alone (`FaultsOwn`). The wave of
`copyBesideStray` meets every hypothesis, but its cp.sc waits where the statement has the copy start (R179, R288). -/
theorem not_copiesTagsAndRanges : ¬ Obligations.CopiesTagsAndRanges := by
  unfold Obligations.CopiesTagsAndRanges
  rintro ⟨copies, -⟩
  obtain ⟨start, -⟩ := copies copyBesideStray 0 2 0 ⟨rfl, by decide, rfl, rfl, by decide⟩ rfl
  have started := start rfl nofun (by decide) (by decide) (by decide) (by decide) (by decide) (by decide) (by decide) (by decide) (by decide) (by decide)
  rw [cpSc_of_stray, Host.Outcome.next.injEq] at started
  exact absurd (congrArg (fun s => s.grp.copies.length) started) (by decide)

end Sys2Proof.Proofs.MemoryAccess
end

section
/-! Atomics and reductions of lanes (R195 to R201): what one of them leaves, for one word. -/
namespace Sys2Proof.Proofs.Atomics
open Sys2Proof Sys2Proof.Machine Sys2Proof.Claims Sys2Proof.Proofs.MachineState Sys2Proof.Proofs.MemoryAccess

/-! ## An L1 without dirty bytes -/

/-- The L1 of the group's core holds no dirty byte, and L2 lines of device memory alone. -/
abbrev Undirty (s : State) : Prop := Quiet (fun _ => True) Undirtied s s

theorem undirty_of_quiet {s t : State} (h : Quiet (fun _ => True) Undirtied s t) : Undirty t :=
  ⟨rfl, sameCores_self t, h.low, trivial, by rw [h.grp]; exact h.held⟩

/-- Only the lines and the core decide it. -/
theorem undirty_congr {s t : State} (h : Undirty s) (cores : t.cores = s.cores) (l2 : t.l2 = s.l2) (core : t.grp.core = s.grp.core) : Undirty t :=
  ⟨rfl, sameCores_self t, by rw [l2]; exact h.low, trivial, by rw [State.core, cores, core]; exact h.held⟩

theorem undirty_of_atRest {s : State} (rest : AtRest s) (clean : CleanL1 s) : Undirty s := by
  obtain ⟨-, -, -, -, -, -, -, -, -, -, -, -, -, -, -, low, -⟩ := rest
  exact ⟨rfl, sameCores_self s, low, trivial, fun l hl w hw => (clean l hl w hw).1⟩

/-- A line made the most recently used displaces at most a line with nothing to write back. -/
theorem touchLine_lines {s : State} (clean : Undirty s) (a : Nat) (nc : Bool) : SameButLines s (touchLine s.grp.core a nc s) := by
  unfold touchLine
  dsimp only
  split
  next => exact .modCore s _ _ ⟨_, rfl⟩
  next =>
    split
    · exact .modCore s _ _ ⟨_, rfl⟩
    · split
      next v victim =>
        have mem : v ∈ (s.core s.grp.core).l1 := by
          unfold Core.victim Core.sameSet at victim
          exact List.filter_sublist.subset (List.filter_sublist.subset (List.mem_of_getLast? victim))
        rw [writeBackLine_clean v s (clean.held v mem)]
        exact (SameButLines.modCore s _ _ ⟨_, rfl⟩).trans (.modCore _ _ _ ⟨_, rfl⟩)
      next => exact .refl s

theorem fillWord_lines {s : State} (clean : Undirty s) (a : Nat) (nc : Bool) (x : Word) (prov : Bool) :
    SameButLines s (fillWord s.grp.core a nc x prov s) := (touchLine_lines clean a nc).trans (.putWord ..)

/-! ## A write at the home slice beside cells -/

theorem calm_settleWords {s : State} (c : Calm s) (ws : List Nat) : Calm (settleWords ws s) := Stored.calm ((Stored.refl s).setProvs _) c

/-- A write of a wave at the home slice, without what comes to nothing where nothing but cells stands between an access and memory. -/
theorem homeWrite_calm {s : State} (c : Calm s) (uid core a : Nat) (bs : List Byte) (some_ : bs ≠ []) (low : a + bs.length ≤ 2 ^ 48) :
    ∃ cl rl, homeWrite (.wave uid core) a bs s = ((wordsOf a bs.length).foldl (fun t w => register (.wave uid core) w t) (settleWords (wordsOf a bs.length)
      (useL2All (((wordsOf a bs.length).map fun b => lineOf b).dedup) true { s with codeLog := cl, roLog := rl }))).poke a bs := by
  obtain ⟨cl, rl, noted⟩ := noted_eq uid core a bs.length (wordsOf a bs.length) s
  have start : Stored s.provs s.stores s { s with codeLog := cl, roLog := rl } := ⟨cl, rl, .refl _⟩
  have used := start.lines (SameButLines.useL2All (((wordsOf a bs.length).map fun b => lineOf b).dedup) true _ (start.calm c).device fun l hl => by
    obtain ⟨w, hw, rfl⟩ := List.mem_map.mp (List.mem_dedup.mp hl)
    exact lineOf_low (wordsOf_low hw (List.length_pos_iff.mpr some_) low))
  have freed := calm_settleWords (used.calm c) (wordsOf a bs.length)
  have registered := (SameButLines.foldl (fun t w => register (.wave uid core) w t) (wordsOf a bs.length)
    (fun w _ t _ => .register (.wave uid core) w t) (.refl _)).calm freed
  have settled (ls : List Nat) : ls.foldl (fun t l => settleAliasesFor a bs.length l (roundLine l t)) { s with codeLog := cl, roLog := rl } =
      { s with codeLog := cl, roLog := rl } := List.foldl_fixed' (fun l => by rw [(start.calm c).roundLine, (start.calm c).settleAliasesFor]) _
  have fanned (ls : List Nat) {t : State} (q : Calm t) : ls.foldl (fun t l => fanToDie (l * 256) t) t = t :=
    List.foldl_fixed' (fun l => fanToDie_none q.regions _) _
  refine ⟨cl, rl, ?_⟩
  unfold homeWrite
  rw [if_neg some_]
  dsimp only
  rw [noted, settled, fanned _ freed, registered.endFans, registered.clearPoison,
    refuseWords_none _ _ fun w => served_all (s := State.poke _ a bs) registered.still.served w]

/-- It leaves no dirty byte. -/
theorem homeWrite_undirty {s : State} (c : Calm s) (clean : Undirty s) (uid core a : Nat) (bs : List Byte) (some_ : bs ≠ [])
    (low : a + bs.length ≤ 2 ^ 48) : Undirty (homeWrite (.wave uid core) a bs s) := by
  obtain ⟨cl, rl, written⟩ := homeWrite_calm c uid core a bs some_ low
  have noted : Undirty { s with codeLog := cl, roLog := rl } := undirty_congr clean rfl rfl rfl
  have used := undirty_of_quiet (noted.useL2All undirtied_tame (((wordsOf a bs.length).map fun b => lineOf b).dedup) true fun l hl => by
    obtain ⟨w, hw, rfl⟩ := List.mem_map.mp (List.mem_dedup.mp hl)
    exact lineOf_low (wordsOf_low hw (List.length_pos_iff.mpr some_) low))
  have freed := undirty_congr (t := settleWords (wordsOf a bs.length) _) used rfl rfl rfl
  have registered := undirty_of_quiet (Quiet.foldl (fun t w => register (.wave uid core) w t) (wordsOf a bs.length)
    (fun w _ t q => q.register undirtied_tame (.wave uid core) w) freed)
  rw [written]
  exact registered.poke a bs

/-! ## One atomic -/

/-- A word of device memory. -/
theorem regionOf_word {a : Nat} (low : a + 4 ≤ 2 ^ 48) : regionOf a = 0 := regionOf_low (by omega)

/-- An atomic on a word of device memory: it gives the former value, its cell settles, and the new value stands (R183, R196, R197). -/
theorem atomOne_stored {s : State} (c : Calm s) (clean : Undirty s) (o : AtomOp) (a : Nat) (x y : Word) (aligned : a % 4 = 0) (low : a + 4 ≤ 2 ^ 48) :
    ∃ t, atomOne o a x y s = (t, BitVec.ofNat 32 (s.num a 4), false) ∧ Undirty t ∧ Stored (s.provs.filter fun k => k.addr != a)
      (logBytes s.stores a (leBytes 4 (o.apply (BitVec.ofNat 32 (s.num a 4)) x y).toNat)) s t := by
  have stored := homeWrite_word c s.w.uid s.coreNo a (o.apply (BitVec.ofNat 32 (s.num a 4)) x y) aligned low
  have written := homeWrite_undirty c clean s.w.uid s.coreNo a (leBytes 4 (o.apply (BitVec.ofNat 32 (s.num a 4)) x y).toNat) (List.cons_ne_nil _ _) low
  have filled := undirty_of_quiet (written.fillWord undirtied_tame a false (o.apply (BitVec.ofNat 32 (s.num a 4)) x y) false fun _ _ clean => clean)
  simp only [atomOne, settleAliases, c.roundLine, c.settleAliasesFor, c.marked, regionOf_word low, Bool.false_eq_true, if_false, if_true]
  refine ⟨_, rfl, undirty_of_quiet (filled.mapWord _ a _ fun _ _ clean => clean), ?_⟩
  exact (stored.lines (fillWord_lines written a false _ false)).lines (.mapWord _ a _ _)

/-! ## One reduction -/

/-- A store that bypasses L1 changes its lines alone. -/
theorem dropOwnCopy_lines (core a n : Nat) (s : State) : SameButLines s (dropOwnCopy core a n s) := by
  refine .modCore s core _ ?_
  generalize wordsOf a n = ws
  generalize s.core core = k
  induction ws generalizing k with
  | nil => exact ⟨k.l1, rfl⟩
  | cons w ws ih => exact ih (k.mapWord w _)

/-- A reduction of FP32 adds into its word (R200). -/
theorem redOne_word {s : State} (c : Calm s) (a : Nat) (x : Word) (aligned : a % 4 = 0) (low : a + 4 ≤ 2 ^ 48) :
    ∃ t, redOne 0 a x s = (t, false) ∧ Stored (s.provs.filter fun k => k.addr != a)
      (logBytes s.stores a (leBytes 4 (fadd .nearest (BitVec.ofNat 32 (s.num a 4)) x).toNat)) s t := by
  have stored := homeWrite_word c s.w.uid s.coreNo a (fadd .nearest (BitVec.ofNat 32 (s.num a 4)) x) aligned low
  simp only [redOne, settleAliases, c.roundLine, c.settleAliasesFor, c.marked, Bool.false_eq_true, if_false, if_true]
  exact ⟨_, rfl, stored.lines (dropOwnCopy_lines ..)⟩

theorem num_congr {s t : State} (mem : t.mem = s.mem) (stores : t.stores = s.stores) (a n : Nat) : t.num a n = s.num a n := by
  simp only [State.num, bytes_eq_map, State.byte, mem, stores]

/-- The side band that the first reduction of a line opens: the shadow of its element has taken the sum (R201). -/
abbrev openedBand (form a : Nat) (x : Word) (s : State) : Band :=
  ⟨a / 256, form, [(a, fadd .nearest (BitVec.ofNat 32 (widen (fmtOf form) (s.num a (bandBytes form)))) x)], s.nextUid⟩

/-- What a narrow reduction does at the slice before it comes to the band of its line. -/
def beforeBand (form : Nat) (g : Agent) (a : Nat) (s : State) : State :=
  endFans [lineOf a] (register g a (fanToDie a (settleWords [wordOf a]
    (useL2 (lineOf a) true (settleAliases (lineOf a) (noteWrite g a (bandBytes form) (noteRo [wordOf a] s)))))))

/-- Where no line has a side band, the reduction opens one. -/
theorem homeReduce_noBand {form a : Nat} {g : Agent} {s t : State} (x : Word) (before : beforeBand form g a s = t) (none : t.bands = []) :
    homeReduce form g a x s = { t with bands := [openedBand form a x t], nextUid := t.nextUid + 1 } := by
  unfold homeReduce
  extract_lets line used settled front rounded here room opened elem
  have start : front = t := before
  have kept : rounded = t := by simp only [rounded, start, none, List.find?_nil]
  have free : room = t := by
    simp only [room, here, kept, none, List.filter_nil, List.length_nil]
    exact if_neg (by decide)
  have added : opened = { t with bands := [⟨line, form, [], t.nextUid⟩] } := by
    simp only [opened, kept, free, none, List.find?_nil, List.nil_append]
  have number : opened.num a (bandBytes form) = t.num a (bandBytes form) := num_congr (by rw [added]) (by rw [added]) ..
  simp only [elem, number]
  simp only [added, List.map_cons, List.map_nil, if_true]
  rfl

theorem undisturbed_of_calm {s : State} (c : Calm s) (provs : s.provs = []) : Undisturbed s :=
  ⟨c.still.bands, c.still.aliases, provs, c.still.poison, c.still.fanOuts, c.still.served⟩

/-- Without cells only lines and owners, and what fetches and read-only loads keep, change before that. -/
theorem beforeBand_lines {s : State} (c : Calm s) (provs : s.provs = []) (form uid core a : Nat) (low : a < 2 ^ 48) :
    Stored s.provs s.stores s (beforeBand form (.wave uid core) a s) := by
  obtain ⟨cl, rl, noted⟩ := noted_eq uid core a (bandBytes form) [wordOf a] s
  have start : Stored s.provs s.stores s { s with codeLog := cl, roLog := rl } := ⟨cl, rl, .refl _⟩
  have used := start.lines (SameButLines.useL2All [lineOf a] true _ (start.calm c).device fun l hl => List.mem_singleton.mp hl ▸ lineOf_low low)
  have free := used.provs_eq.trans provs
  have registered := used.lines (.register (.wave uid core) a _)
  have alone := fanToDie_none (used.calm c).regions a
  have cells := (undisturbed_of_calm (used.calm c) free).settleWords [wordOf a]
  rw [beforeBand, noted, settleAliases, (start.calm c).settleAliasesFor]
  change Stored s.provs s.stores s (endFans [lineOf a] (register _ a (fanToDie a (settleWords [wordOf a] (useL2All [lineOf a] true _)))))
  rw [cells, alone, (registered.calm c).endFans]
  exact registered

/-- A narrow reduction leaves memory and opens a side band for the line (R201). -/
theorem redOne_narrow {s : State} (c : Calm s) (provs : s.provs = []) (form a : Nat) (x : Word) (narrow : form ≠ 0) (low : a < 2 ^ 48) :
    ∃ t, redOne form a x s = (t, false) ∧ Stored s.provs s.stores { s with nextUid := s.nextUid + 1, bands := [openedBand form a x s] } t := by
  have before := beforeBand_lines c provs form s.w.uid s.grp.core a low
  generalize reached : beforeBand form (.wave s.w.uid s.grp.core) a s = t at before
  have number : t.num a (bandBytes form) = s.num a (bandBytes form) := num_congr before.mem before.stores_eq ..
  obtain ⟨cl, rl, same⟩ := before
  have uid : t.nextUid = s.nextUid := (congrArg State.nextUid same.same :)
  have none : t.bands = [] := (congrArg State.bands same.same :).trans c.still.bands
  have band : openedBand form a x t = openedBand form a x s := by simp only [openedBand, number, uid]
  have opened : Stored s.provs s.stores { s with nextUid := s.nextUid + 1, bands := [openedBand form a x s] } (homeReduce form s.agent a x s) := by
    rw [State.agent, homeReduce_noBand x reached none, band, uid]
    exact ⟨cl, rl, congrArg (fun u : State => { u with nextUid := s.nextUid + 1, bands := [openedBand form a x s] }) same.same, same.cores, same.low⟩
  simp only [redOne, settleAliases, c.settleAliasesFor, c.marked, if_neg narrow, Bool.false_eq_true, if_false]
  exact ⟨_, rfl, opened.lines (dropOwnCopy_lines ..)⟩

end Sys2Proof.Proofs.Atomics
end

section
/-! Atomics and reductions of an instruction's lanes, one after another in ascending lane order (R197, R200). -/
namespace Sys2Proof.Proofs.Atomics
open Sys2Proof Sys2Proof.Machine Sys2Proof.Claims Sys2Proof.Proofs.MachineState Sys2Proof.Proofs.MemoryAccess

/-! ## Memory with the stores of a step laid into it -/

/-- The bytes of memory with the stores of a step laid into it are those that the step sees. -/
theorem bytes_lay {s : State} (wf : Mem.wf s.mem = true) (a n : Nat) : (s.mem.lay s.stores).bytes a n = s.bytes a n := by
  induction n generalizing a with
  | zero => rfl
  | succ n ih =>
    rw [Mem.bytes, State.bytes, ih, Mem.read_lay _ _ _ wf]
    rfl

/-- The word that an access of a step rewrites, and those after it. -/
theorem rewrite_cons_lay {s : State} (wf : Mem.wf s.mem = true) (op : Word → Word → Word → Word) (a : Nat) (x y : Word)
    (es : List (Nat × Word × Word)) : rewrite op ((a, x, y) :: es) (s.mem.lay s.stores) =
      ((rewrite op es (s.mem.lay (logBytes s.stores a (leBytes 4 (op (BitVec.ofNat 32 (s.num a 4)) x y).toNat)))).1,
        BitVec.ofNat 32 (s.num a 4) :: (rewrite op es (s.mem.lay (logBytes s.stores a (leBytes 4 (op (BitVec.ofNat 32 (s.num a 4)) x y).toNat)))).2) := by
  rw [rewrite, bytes_lay wf, lay_logBytes]
  rfl

theorem rewrite_length (op : Word → Word → Word → Word) (es : List (Nat × Word × Word)) (m : Mem) : (rewrite op es m).2.length = es.length := by
  induction es generalizing m with
  | nil => rfl
  | cons e es ih =>
    obtain ⟨a, x, y⟩ := e
    rw [rewrite, List.length_cons, List.length_cons, ih]

/-! ## The cells of the words -/

/-- The cells but those of the words of lanes. -/
abbrev cellsBut (lanes : List (Fin 32)) (pa : Fin 32 → Nat) (cells : List Prov) : List Prov := cells.filter fun k => !lanes.any fun l => pa l == k.addr

theorem cellsBut_nil (pa : Fin 32 → Nat) (cells : List Prov) : cellsBut [] pa cells = cells := List.filter_eq_self.mpr fun _ _ => rfl

theorem cellsBut_cons (l : Fin 32) (ls : List (Fin 32)) (pa : Fin 32 → Nat) (cells : List Prov) :
    cellsBut ls pa (cells.filter fun k => k.addr != pa l) = cellsBut (l :: ls) pa cells := by
  rw [cellsBut, List.filter_filter]
  congr 1
  funext k
  rw [List.any_cons, Bool.not_or, Bool.and_comm, bne, Bool.beq_comm]

/-! ## The lanes -/

/-- The words of lanes lie in device memory. -/
theorem regionOf_ready {lanes : List (Fin 32)} {pa : Fin 32 → Nat} (words : AlignedWords lanes pa) (va : Fin 32 → DWord) :
    ∀ e ∈ readyAt lanes va pa, regionOf e.2.2.1 = 0 := fun e he => by
  obtain ⟨l, hl, rfl⟩ := List.mem_map.mp he
  exact regionOf_word (words l hl).2

section lanes
variable {s : State} (va : Fin 32 → DWord) (pa : Fin 32 → Nat) (x y : Fin 32 → Word)

/-- The rewrites that lanes ask for: the word of each with its operands. -/
abbrev requests (lanes : List (Fin 32)) : List (Nat × Word × Word) := lanes.map fun l => (pa l, x l, y l)

/-- The atomics of lanes give the former values, settle the cells of their words and leave the new values. -/
theorem atomLanes_stored (o : AtomOp) (lanes : List (Fin 32)) (wf : Mem.wf s.mem = true) (c : Calm s) (clean : Undirty s) (words : AlignedWords lanes pa) :
    ∃ t, atomLanes o x y (readyAt lanes va pa) s =
        (t, (lanes.zip (rewrite o.apply (requests pa x y lanes) (s.mem.lay s.stores)).2).map fun e => (e.1, e.2.toNat), []) ∧
      Stored (cellsBut lanes pa s.provs) t.stores s t ∧
      s.mem.lay t.stores = (rewrite o.apply (requests pa x y lanes) (s.mem.lay s.stores)).1 := by
  induction lanes generalizing s with
  | nil =>
    rw [cellsBut_nil]
    exact ⟨s, rfl, .refl s, rfl⟩
  | cons l ls ih =>
    obtain ⟨aligned, low⟩ := words l List.mem_cons_self
    have near : ¬ 2 ≤ regionOf (pa l) := by rw [regionOf_word low]; decide
    obtain ⟨t, one, kept, first⟩ := atomOne_stored c clean o (pa l) (x l) (y l) aligned low
    obtain ⟨u, later, rest, mem⟩ := ih (first.mem ▸ wf) (first.calm c) kept fun j hj => words j (List.mem_cons_of_mem _ hj)
    rw [first.provs_eq, cellsBut_cons] at rest
    rw [first.mem, first.stores_eq] at later mem
    rw [requests, List.map_cons, rewrite_cons_lay wf]
    refine ⟨u, ?_, first.trans rest, mem⟩
    simp only [readyAt, List.map_cons, atomLanes, if_neg near, one, Bool.false_eq_true, if_false]
    rw [show atomLanes o x y _ t = _ from later]
    rfl

/-- The FP32 reductions of lanes add into their words. -/
theorem redLanes_stored (lanes : List (Fin 32)) (wf : Mem.wf s.mem = true) (c : Calm s) (words : AlignedWords lanes pa) :
    ∃ t, redLanes 0 x (readyAt lanes va pa) s = (t, []) ∧ Stored (cellsBut lanes pa s.provs) t.stores s t ∧
      s.mem.lay t.stores = (rewrite (fun old x _ => fadd .nearest old x) (requests pa x (fun _ => 0) lanes) (s.mem.lay s.stores)).1 := by
  induction lanes generalizing s with
  | nil =>
    rw [cellsBut_nil]
    exact ⟨s, rfl, .refl s, rfl⟩
  | cons l ls ih =>
    obtain ⟨aligned, low⟩ := words l List.mem_cons_self
    have near : ¬ 2 ≤ regionOf (pa l) := by rw [regionOf_word low]; decide
    obtain ⟨t, one, first⟩ := redOne_word c (pa l) (x l) aligned low
    obtain ⟨u, later, rest, mem⟩ := ih (first.mem ▸ wf) (first.calm c) fun j hj => words j (List.mem_cons_of_mem _ hj)
    rw [first.provs_eq, cellsBut_cons] at rest
    rw [first.mem, first.stores_eq] at mem
    rw [requests, List.map_cons, rewrite_cons_lay wf]
    refine ⟨u, ?_, first.trans rest, mem⟩
    simp only [readyAt, List.map_cons, redLanes, if_neg near, one]
    rw [show redLanes 0 x _ t = _ from later]
    rfl

end lanes

/-- The former values in the register of the lanes of a mask. -/
theorem vWrite_former (d : Fin 128) (m : Mask) (olds : List Word) (len : olds.length = (lanesOf m).length) :
    vWrite d zeroExt (((lanesOf m).zip olds).map fun e => (e.1, e.2.toNat)) =
      [.v d m (perLane m fun l => ((((lanesOf m).zip olds).find? fun p => p.1 == l).map (·.2)).getD 0)] := by
  have firsts : ((lanesOf m).zip olds).map Prod.fst = lanesOf m := List.map_fst_zip len.ge
  have member (l : Fin 32) : (((lanesOf m).zip olds).any fun e => e.1 == l) = bit m l := by
    rw [Bool.eq_iff_iff, ← mem_lanesOf]
    conv_rhs => rw [← firsts]
    simp
  have values : (((lanesOf m).zip olds).map fun e => (e.1, e.2.toNat)).map (fun e => (e.1, zeroExt e.2)) = (lanesOf m).zip olds := by
    have back (e : Fin 32 × Word) : (e.1, zeroExt e.2.toNat) = e := Prod.ext rfl ((BitVec.ofNat_toNat ..).trans (BitVec.setWidth_eq _))
    rw [List.map_map]
    exact List.map_id'' back _
  have lanes : maskFrom (((lanesOf m).zip olds).map fun e => (e.1, e.2.toNat)) = m := mask_ext _ _ fun l => by
    rw [maskFrom, bit_maskOf, List.any_map]
    exact member l
  rw [vWrite, lanes, values, lanesFrom, perLane]
  congr 3
  funext l
  cases found : ((lanesOf m).zip olds).find? fun e => e.1 == l with
  | none => simp
  | some e =>
    have enabled : bit m l = true := by
      rw [← member]
      exact List.any_eq_true.mpr ⟨e, List.mem_of_find?_eq_some found, (List.find?_some found :)⟩
    rw [if_pos enabled]
    rfl

end Sys2Proof.Proofs.Atomics
end

section
/-! The instructions: what comes before the accesses of an atomic, its release and its acquire (R198), and the obligation on atomics and reductions. -/
namespace Sys2Proof.Proofs.Atomics
open Sys2Proof Sys2Proof.Machine Sys2Proof.Claims Sys2Proof.Proofs.MachineState Sys2Proof.Proofs.MemoryAccess

/-! ## Before the accesses -/

/-- Accesses to device memory ask no peer. -/
theorem remotePre_near (op : Nat) (fx fy : Fin 32 → Word) (first : State → State) {gs : Ready4} (near : ∀ e ∈ gs, regionOf e.2.2.1 = 0) (s : State) :
    remotePre op fx fy first gs s = (s, some []) := by
  have none : gs.filter (fun e => decide (2 ≤ regionOf e.2.2.1)) = [] := List.filter_eq_nil_iff.mpr fun e he => by rw [near e he]; decide
  rw [remotePre, none]
  rfl

/-- Atomics on device memory whose lines can be allocated go ahead, with a release where no write of the wave is unacknowledged. -/
theorem atomicsPre_near (rel : Bool) (op : Nat) (fx fy : Fin 32 → Word) (first : State → State) {gs : Ready4}
    (near : ∀ e ∈ gs, regionOf e.2.2.1 = 0) {s : State} (fits : ∀ a, (s.core s.coreNo).fits a = true) (rows : s.grp.epilogues = [])
    (remotes : ∀ r ∈ s.remotes, r.wave ≠ s.w.uid) :
    releasePre rel (allocPre (fun e => regionOf e.2.2.1 == 0) (remotePre op fx fy first)) gs s = (s, some []) := by
  have allocates : gs.any (fun e => regionOf e.2.2.1 == 0 && !(s.core s.coreNo).fits e.2.2.1) = false := by simp [fits]
  have acked : unacked s = false := List.any_eq_false.mpr fun r hr => by simp [remotes r hr]
  simp only [releasePre, drainOwnRows_none s rows, acked, allocPre, allocates, remotePre_near op fx fy first near, Bool.false_eq_true, if_false, ite_self]

/-! ## Release and acquire -/

/-- A wave without the cells that a release settles (R187). -/
def releasedBy (rel : Bool) (s : State) : State := { s with provs := s.provs.filter fun c => !(rel && c.wave == s.w.uid) }

/-- A release settles the wave's cells, and does nothing else where the wave has no rows (R198). -/
theorem release_eq (rel : Bool) {s : State} (rows : s.grp.epilogues = []) : (if rel then releaseWave s else s) = releasedBy rel s := by
  cases rel with
  | false =>
    have all : s.provs.filter (fun c => !(false && c.wave == s.w.uid)) = s.provs := List.filter_eq_self.mpr fun _ _ => rfl
    rw [releasedBy, all]
    rfl
  | true =>
    rw [if_pos rfl, releaseWave, drainOwnRows_none s rows]
    rfl

theorem releasedBy_stored (rel : Bool) (s : State) :
    Stored (s.provs.filter fun c => !(rel && c.wave == s.w.uid)) s.stores s (releasedBy rel s) := (Stored.refl s).setProvs _

theorem remotes_of_stored {provs : List Prov} {stores : List Host.Cell} {s t : State} (h : Stored provs stores s t) : t.remotes = s.remotes := by
  obtain ⟨cl, rl, same⟩ := h
  exact same.remotes

theorem acquire_lines (acq : Bool) (s : State) : SameButLines s (if acq then acquireWave s else s) := by
  cases acq with
  | false => exact .refl s
  | true =>
    show SameButLines s (acquireCore s.coreNo s)
    unfold acquireCore
    exact .modCore s _ _ ⟨_, rfl⟩

/-- After an acquire every valid word of a coherent page is owned (R204, R294). -/
theorem acquireCore_owned (core : Nat) (s : State) :
    ∀ l ∈ ((acquireCore core s).core core).l1, l.nc = false → ∀ w ∈ l.words, w.2.valid = true → w.2.owned = true := by
  intro l hl coherent w hw valid
  rw [acquireCore, State.modCore, State.core, look_put_same] at hl
  obtain ⟨k, -, rfl⟩ := List.mem_map.mp hl
  have page : k.nc = false := by
    cases nc : k.nc with
    | false => rfl
    | true => rw [nc, if_pos rfl, nc] at coherent; exact coherent
  rw [page, if_neg Bool.false_ne_true] at hw
  obtain ⟨e, -, rfl⟩ := List.mem_map.mp hw
  by_cases owned : e.2.owned = true
  · rw [if_pos owned]
    exact owned
  · rw [if_neg owned] at valid
    exact absurd valid Bool.false_ne_true

/-! ## Issuing -/

/-- The instruction once its effect has taken place in the enabled lanes, behind what is ordered if it is a fence. -/
theorem issue_lanes_fenced (g : Sig) (body : Exec → State → State) {s t : State} (h : CanIssue s) (lane : g.perLane = true) (some_ : laneSet s ≠ 0)
    (hw : Within (g.reads ++ g.writes) s) (hf : g.fence = true → ∀ p ∈ s.w.pending, p.ordered = false) (hc : g.waitsFor = []) (hp : g.privileged = false)
    (hh : g.handlerOnly = false) (hn : g.notInHandler = false) (ht : body (execOf true s) (past true s) = t) :
    issue g body s = .next { t with mem := s.mem.lay t.stores, stores := [] } := by
  have clear : clearOf g.waitsFor (~~~0#32) s = true := by simp [clearOf, hc]
  have ordered (fence : g.fence = true) : (s.w.pending.all fun p => !p.ordered) = true := List.all_eq_true.mpr fun p hp => by rw [hf fence p hp]; rfl
  rw [issue_ready g body s h hw ordered clear (by simp [hp]) (by simp [hh]) (by simp [hn])]
  have acts : (if enabled g.perLane s = 0 then past g.perLane s else body (execOf g.perLane s) (past g.perLane s)) = t := by
    rw [lane, enabled_true, if_neg some_, ht]
  simp only [next, finish, acts]

theorem beside_cores {f : State → State} (alike : Beside f) (s : State) : (f s).cores = s.cores :=
  (congrArg State.cores (alike s s.cores s.owners s.l2 s.provs s.stores s.codeLog s.roLog) :)

/-- What a state with stores and cells, but for its lines, is once the stores are laid into memory m. -/
theorem laid_of_stored {m : Mem} {v t : State} {provs : List Prov} {stores : List Host.Cell} (h : Stored provs stores v t) (clean : v.stores = []) :
    ∃ cl rl, SameCores t.cores v ∧ ({ t with mem := m, stores := [] } : State) =
      { v with mem := m, provs := provs, cores := t.cores, owners := t.owners, l2 := t.l2, codeLog := cl, roLog := rl } := by
  obtain ⟨cl, rl, same⟩ := h
  refine ⟨cl, rl, same.sameCores, ?_⟩
  have parts := congrArg (fun u : State => { u with mem := m, stores := [] }) same.same
  exact parts.trans (setMem_noStores { v with provs := provs, cores := t.cores, owners := t.owners, l2 := t.l2, codeLog := cl, roLog := rl } m clean)

theorem ordered_bits : ∀ o : Fin 4, releases o = (o.val / 2 == 1) ∧ (acquires o = true ↔ o.val % 2 = 1) := by decide

/-! ## Atomics -/

theorem lanesOf_ne_nil {m : Mask} (some_ : m ≠ 0) : lanesOf m ≠ [] := fun none =>
  some_ (mask_ext m 0 fun l => (IntegerAndLanes.lowest_none (by rw [lowest, none]; rfl) l).trans BitVec.getLsbD_zero.symm)

/-- The value of a lane in a list of lanes with their values. -/
abbrev valueOf (lanes : List (Fin 32)) (xs : List Word) (l : Fin 32) : Word := (((lanes.zip xs).find? fun p => p.1 == l).map (·.2)).getD 0

/-- What an atomic leaves whose lanes rewrite their words r: the former values in its register, the new memory, and the cells that have not settled. -/
def atomicNext (s : State) (pa : Fin 32 → Nat) (d : Fin 128) (o : Fin 4) (k : Fin 16) (r : Mem × List Word) : State :=
  { deliveredAs ⟨false, true, 1⟩ k.val [.v d.val] [.v d (laneSet s) (perLane (laneSet s) (valueOf (lanesOf (laneSet s)) r.2))] (laneSet s) true s
      (past true s) with
    mem := r.1, provs := s.provs.filter fun c => !(o.val / 2 == 1 && c.wave == s.w.uid) && !((lanesOf (laneSet s)).any fun l => pa l == c.addr) }

/-- The cells that neither a release nor the accesses of lanes settle. -/
theorem cellsBut_released (o : Fin 4) (uid : Nat) (lanes : List (Fin 32)) (pa : Fin 32 → Nat) (cells : List Prov) :
    cellsBut lanes pa (cells.filter fun c => !(releases o && c.wave == uid)) =
      cells.filter fun c => !(o.val / 2 == 1 && c.wave == uid) && !(lanes.any fun l => pa l == c.addr) := by
  rw [cellsBut, List.filter_filter]
  congr 1
  funext c
  rw [(ordered_bits o).1, Bool.and_comm]

/-- What an atomic does once its accesses are ready: a release, the lanes' rewrites, an acquire (R198). -/
def atomAct (op : AtomOp) (d : Fin 128) (o : Fin 4) (x y : Fin 32 → Word) (gs : Ready4) (s : State) : State × List RegWrite × List Poisoned :=
  let some_ := gs.any (performs s)
  let s := if releases o && some_ then releaseWave s else s
  let (s, xs, bad) := atomLanes op x y gs s
  let s := if acquires o && some_ then acquireWave s else s
  (endRemotes s, vWrite d zeroExt xs, bad)

theorem atomBody_eq (g : Sig) (op : AtomOp) (d a : Fin 128) (b : Fin 8) (o : Fin 4) (x : Exec) (s : State) :
    atomBody g op d a b o x s = laneAccess g (cellNeed .store true) (laneAddr s (atomBase b) a)
      (releasePre (releases o) (allocPre (fun e => regionOf e.2.2.1 == 0)
        (remotePre op.code (s.w.rdV d) (s.w.rdV (odd d)) fun s => if releases o then releaseWave s else s)))
      (atomAct op d o (s.w.rdV d) (s.w.rdV (odd d))) x s := rfl

/-- The accesses of an atomic to words of device memory. -/
theorem atomAct_stored (op : AtomOp) (d : Fin 128) (o : Fin 4) (x y : Fin 32 → Word) (va : Fin 32 → DWord) (pa : Fin 32 → Nat)
    {m : Mask} (some_ : m ≠ 0) {s : State} (wf : Mem.wf s.mem = true) (clean : s.stores = []) (calm : Calm s) (undirty : Undirty s) (rows : s.grp.epilogues = [])
    (remotes : ∀ r ∈ s.remotes, r.wave ≠ s.w.uid) (words : AlignedWords (lanesOf m) pa) :
    ∃ v, atomAct op d o x y (readyAt (lanesOf m) va pa) s =
        (v, [.v d m (perLane m (valueOf (lanesOf m) (rewrite op.apply (requests pa x y (lanesOf m)) s.mem).2))], []) ∧
      Stored (s.provs.filter fun c => !(o.val / 2 == 1 && c.wave == s.w.uid) && !((lanesOf m).any fun l => pa l == c.addr)) v.stores s v ∧
      s.mem.lay v.stores = (rewrite op.apply (requests pa x y (lanesOf m)) s.mem).1 ∧
      (acquires o = true → ∀ l ∈ (v.core s.grp.core).l1, l.nc = false → ∀ w ∈ l.words, w.2.valid = true → w.2.owned = true) := by
  have released := releasedBy_stored (releases o) s
  obtain ⟨t, atoms, stored, mem⟩ := atomLanes_stored va pa x y op (lanesOf m) (s := releasedBy (releases o) s) wf (released.calm calm)
    (undirty_congr undirty rfl rfl rfl) words
  have laid : (releasedBy (releases o) s).mem.lay (releasedBy (releases o) s).stores = s.mem := congrArg (s.mem.lay ·) clean
  rw [laid] at atoms mem
  have acquired := acquire_lines (acquires o) t
  have whole := (released.trans stored).lines acquired
  rw [released.provs_eq, cellsBut_released, ← acquired.stores] at whole
  have performing : (readyAt (lanesOf m) va pa).any (performs s) = true := by
    obtain ⟨l, hl⟩ : ∃ l, l ∈ lanesOf m := List.exists_mem_of_ne_nil _ (lanesOf_ne_nil some_)
    refine List.any_eq_true.mpr ⟨_, List.mem_map_of_mem hl, ?_⟩
    simp [performs, regionOf_word (words l hl).2, calm.marked]
  have kept : ∀ r ∈ (if acquires o then acquireWave t else t).remotes, r.wave ≠ (if acquires o then acquireWave t else t).w.uid := by
    rw [remotes_of_stored whole, congrArg (·.wave.uid) whole.grp]
    exact remotes
  refine ⟨if acquires o then acquireWave t else t, ?_, whole, by rw [acquired.stores]; exact mem, fun acquires => ?_⟩
  · simp only [atomAct, performing, Bool.and_true, release_eq _ rows, atoms, endRemotes_none _ kept,
      vWrite_former d m _ (rewrite_length .. |>.trans (List.length_map _))]
  · rw [if_pos acquires, ← show t.coreNo = s.grp.core from congrArg Group.core (stored.grp.trans released.grp)]
    exact acquireCore_owned t.coreNo t

section atomics
variable {s : State} {pa : Fin 32 → Nat} {d a : Fin 128} {b : Fin 8} {o : Fin 4} {k : Fin 16} (h : CanIssue s) (rest : AtRest s) (clean : CleanL1 s)
  (some_ : laneSet s ≠ 0) (map : ∀ l, bit (laneSet s) l = true → Mapped true 4 (laneAddr s (atomBase b) a l) (pa l) s)
include h rest clean some_ map

/-- An atomic of lanes whose words are mapped. -/
theorem exec_atomic {j : Instr} (op : AtomOp) (data : List Reg) (ordered : o ≠ 0 → ∀ p ∈ s.w.pending, p.ordered = false)
    (within : Within (data ++ vReg a) s) (dst : Within (vReg d) s) {r : Mem × List Word}
    (rewrites : rewrite op.apply (requests pa (s.w.rdV d) (s.w.rdV (odd d)) (lanesOf (laneSet s))) s.mem = r)
    (means : exec j s = issue (atomSig data (vReg d) a b o k) (atomBody (atomSig data (vReg d) a b o k) op d a b o) s) :
    ∃ cs os ls cl rl, SameCores cs (atomicNext s pa d o k r) ∧
      exec j s = .next { atomicNext s pa d o k r with cores := cs, owners := os, l2 := ls, codeLog := cl, roLog := rl } ∧
      (o.val % 2 = 1 → ∀ l ∈ (look cs s.grp.core Core.blank).l1, l.nc = false → ∀ w ∈ l.words, w.2.valid = true → w.2.owned = true) := by
  have words : AlignedWords (lanesOf (laneSet s)) pa := fun l hl => mapped_words (n := 1) (by decide) (by decide) (map l ((mem_lanesOf _ _).mp hl))
  have rows := epilogues_of_atRest rest
  have calm := (calm_of_atRest rest).past true
  have undirty : Undirty (past true s) := undirty_congr (undirty_of_atRest rest clean) rfl rfl rfl
  obtain ⟨wf, -, -, -, -, -, -, -, -, -, -, remotes, -, -, free, -⟩ := id rest
  obtain ⟨v, acts, stored, mem, acquired⟩ := atomAct_stored op d o (s.w.rdV d) (s.w.rdV (odd d)) (laneAddr s (atomBase b) a) pa some_ (s := past true s) wf
    (stores_of_canIssue h) calm undirty rows remotes words
  rw [past_mem, rewrites] at acts mem
  have body : atomBody (atomSig data (vReg d) a b o k) op d a b o (execOf true s) (past true s) = deliveredAs ⟨false, true, 1⟩ k.val [.v d.val]
      [.v d (laneSet s) (perLane (laneSet s) (valueOf (lanesOf (laneSet s)) r.2))] (laneSet s) true s v :=
    (atomBody_eq ..).trans (laneAccess_mapped (atomSig data (vReg d) a b o k) (cellNeed .store true) true (laneAddr s (atomBase b) a) pa _ _ h rest map
      (fun _ => rfl) nofun (atomicsPre_near (releases o) op.code _ _ _ (regionOf_ready words _) (fits_of_freeWays free) rows remotes) rows acts
      stored.iss)
  have out := issue_lanes_fenced (atomSig data (vReg d) a b o k) (atomBody (atomSig data (vReg d) a b o k) op d a b o) h rfl some_
    (within_append (within_append within (within_sPair _ s)) dst) (fun fence => ordered (by simpa [atomSig] using fence)) rfl rfl rfl rfl body
  have alike := beside_deliveredAs ⟨false, true, 1⟩ k.val [.v d.val] [.v d (laneSet s) (perLane (laneSet s) (valueOf (lanesOf (laneSet s)) r.2))] (laneSet s)
    true s
  obtain ⟨cl, rl, cores, laid⟩ := laid_of_stored (m := r.1) (stored.under alike) ((deliveredAs_frame ..).2.trans (stores_of_canIssue h))
  rw [(deliveredAs_frame ..).2, mem, laid] at out
  exact ⟨_, _, _, cl, rl, cores, means.trans out, fun odd => (beside_cores alike v).symm ▸ acquired ((ordered_bits o).2.mpr odd)⟩

end atomics

/-- The operations of R196 with their new values. -/
theorem atomTable_eq : atomTable = [(.atomAdd, false, AtomOp.add.apply), (.atomMin, false, AtomOp.min.apply), (.atomMax, false, AtomOp.max.apply),
    (.atomAnd, false, AtomOp.and.apply), (.atomOr, false, AtomOp.or.apply), (.atomXor, false, AtomOp.xor.apply), (.atomXchg, false, AtomOp.xchg.apply),
    (.atomCas, true, AtomOp.cas.apply)] := by
  have signed (x y : Word) : (x.sle y = true) = (x.toInt ≤ y.toInt) := propext BitVec.sle_iff_toInt_le
  simp only [atomTable, signed]
  rfl

/-- O21's half on atomics. -/
theorem laneAtomics : LaneAtomics := by
  intro s pa d a b o k h rest clean some_ ordered map
  rw [atomTable_eq]
  have single (op : AtomOp) {j : Instr} (within : Within (memRegs d a false) s)
      (means : exec j s = issue (atomSig (vReg d) (vReg d) a b o k) (atomBody (atomSig (vReg d) (vReg d) a b o k) op d a b o) s) :=
    exec_atomic h rest clean some_ map op (vReg d) ordered (within_memRegs_single within)
      (fun r hr => within_memRegs_single within r (List.mem_append_left _ hr)) rfl means
  simp only [List.forall_mem_cons]
  refine ⟨fun w => single .add w rfl, fun w => single .min w rfl, fun w => single .max w rfl, fun w => single .and w rfl, fun w => single .or w rfl,
    fun w => single .xor w rfl, fun w => single .xchg w rfl, fun w => ?_, nofun⟩
  have pair := within_memRegs_pair w
  have low : Within (vReg d) s := fun r hr => pair r (List.mem_append_left _ (List.mem_cons.mpr (.inl (List.mem_singleton.mp hr))))
  exact exec_atomic h rest clean some_ map .cas (vPair d) ordered pair low rfl rfl

/-! ## Reductions -/

theorem lanesOf_twoPow : ∀ l : Fin 32, lanesOf (BitVec.twoPow 32 l.val) = [l] := by decide

section reductions
variable {s : State} {pa : Fin 32 → Nat} {v a : Fin 128} {b : Fin 32} (h : CanIssue s) (rest : AtRest s)
include h rest

/-- The effect of a reduction whose elements are mapped is that of its lanes. -/
theorem redBody_mapped {form z : Nat} (map : ∀ l, bit (laneSet s) l = true → Mapped true z (globalAddr s a b l) (pa l) s) {t : State}
    (grp : t.grp = (past true s).grp) (iss : t.iss = s.iss) (remotes : t.remotes = s.remotes)
    (acts : redLanes form (s.w.rdV v) (readyAt (lanesOf (laneSet s)) (globalAddr s a b) pa) (past true s) = (t, [])) :
    redBody (stSig (vReg v) a b) form z v a b (execOf true s) (past true s) = t := by
  have near : ∀ e ∈ readyAt (lanesOf (laneSet s)) (globalAddr s a b) pa, regionOf e.2.2.1 = 0 := fun e he => by
    obtain ⟨l, hl, rfl⟩ := List.mem_map.mp he
    obtain ⟨-, -, -, low, -⟩ := map l ((mem_lanesOf _ _).mp hl)
    exact regionOf_low low
  obtain ⟨-, -, -, -, -, -, -, -, -, -, -, requests, -⟩ := id rest
  have ended : endRemotes t = t := endRemotes_none t (by
    rw [remotes, congrArg (·.wave.uid) grp]
    exact requests)
  have result := congrArg (fun r : State × List Poisoned => (endRemotes r.1, ([] : List RegWrite), r.2)) acts
  rw [ended] at result
  exact laneAccess_mapped (ws := []) (stSig (vReg v) a b) { cellNeed .store true with size := z } true (globalAddr s a b) pa _ _ h rest map (fun _ => rfl)
    nofun (remotePre_near (8 + form) (s.w.rdV v) (fun _ => 0) id near (past true s)) (epilogues_of_atRest rest) result iss

variable (provs : s.provs = []) (within : Within (memRegs v a false) s)
include provs within

/-- A reduction of FP32 adds into the words of its lanes (R200). -/
theorem exec_redF32 (map : ∀ l, bit (laneSet s) l = true → Mapped true 4 (globalAddr s a b l) (pa l) s) :
    Writes (.redF32 v a b) s { past true s with
      mem := (rewrite (fun old x _ => fadd .nearest old x) (requests pa (s.w.rdV v) (fun _ => 0) (lanesOf (laneSet s))) s.mem).1 } := by
  have clean := stores_of_canIssue h
  by_cases none : laneSet s = 0
  · have out := issue_past (stSig (vReg v) a b) (redBody (stSig (vReg v) a b) 0 4 v a b) s h (within_st within) rfl rfl nofun nofun rfl (past true s)
      (if_pos none) clean rfl
    rw [none]
    exact ⟨s.cores, s.owners, s.l2, s.codeLog, s.roLog, sameCores_self s, out⟩
  · obtain ⟨wf, -⟩ := id rest
    obtain ⟨t, acts, stored, mem⟩ := redLanes_stored (globalAddr s a b) pa (s.w.rdV v) (lanesOf (laneSet s)) (s := past true s) wf
      ((calm_of_atRest rest).past true) (alignedWords_of_mapped map)
    have cells : cellsBut (lanesOf (laneSet s)) pa (past true s).provs = (past true s).provs := by
      rw [show (past true s).provs = [] from provs]
      rfl
    have laid : (past true s).mem.lay (past true s).stores = s.mem := congrArg (s.mem.lay ·) clean
    have body := redBody_mapped h rest map stored.grp stored.iss (remotes_of_stored stored :) acts
    have out := issue_lanes_stores (stSig (vReg v) a b) (redBody (stSig (vReg v) a b) 0 4 v a b) h rfl none (within_st within) rfl rfl rfl rfl rfl body
    rw [cells] at stored
    rw [laid] at mem
    rw [← mem]
    exact writes_of_stored (i := .redF32 v a b) stored clean out

/-- A narrow reduction of one lane leaves memory and opens the side band of its line (R201). -/
theorem exec_narrow {j : Instr} {form : Nat} (narrow : form ≠ 0) {l : Fin 32} (one : laneSet s = BitVec.twoPow 32 l.val)
    (map : Mapped true (bandBytes form) (globalAddr s a b l) (pa l) s)
    (means : exec j s = issue (stSig (vReg v) a b) (redBody (stSig (vReg v) a b) form (bandBytes form) v a b) s) :
    Writes j s { past true s with nextUid := s.nextUid + 1, bands := [openedBand form (pa l) (s.w.rdV v l) s] } := by
  have lanes : lanesOf (laneSet s) = [l] := by rw [one, lanesOf_twoPow]
  have maps : ∀ i, bit (laneSet s) i = true → Mapped true (bandBytes form) (globalAddr s a b i) (pa i) s := fun i hi => by
    have member := (mem_lanesOf _ _).mpr hi
    rw [lanes] at member
    exact List.mem_singleton.mp member ▸ map
  obtain ⟨-, -, -, low, -⟩ := id map
  have near : ¬ 2 ≤ regionOf (pa l) := by rw [regionOf_low low]; decide
  obtain ⟨t, reduced, stored⟩ := redOne_narrow ((calm_of_atRest rest).past true) provs form (pa l) (s.w.rdV v l) narrow low
  have acts : redLanes form (s.w.rdV v) (readyAt (lanesOf (laneSet s)) (globalAddr s a b) pa) (past true s) = (t, []) := by
    simp only [lanes, readyAt, List.map_cons, List.map_nil, redLanes, if_neg near, reduced, Bool.false_eq_true, if_false]
  have body := redBody_mapped h rest maps stored.grp stored.iss (remotes_of_stored stored :) acts
  have some_ : laneSet s ≠ 0 := fun none => by
    rw [none, show lanesOf 0 = [] by decide] at lanes
    exact absurd lanes.symm (List.cons_ne_nil l [])
  have out := issue_past (stSig (vReg v) a b) (redBody (stSig (vReg v) a b) form (bandBytes form) v a b) s h (within_st within) rfl rfl nofun nofun rfl t
    ((if_neg some_).trans body) (stored.stores_eq.trans (stores_of_canIssue h)) stored.mem
  have band : openedBand form (pa l) (s.w.rdV v l) (past true s) = openedBand form (pa l) (s.w.rdV v l) s := by
    simp only [openedBand, num_past]
    rfl
  obtain ⟨cl, rl, same⟩ := stored
  refine ⟨t.cores, t.owners, t.l2, cl, rl, same.sameCores, means.trans (out.trans (congrArg Host.Outcome.next (same.same.trans ?_)))⟩
  rw [band]
  rfl

end reductions

/-- O21's half on reductions. -/
theorem reductions : Reductions := by
  intro s pa v a b h rest provs within
  refine ⟨exec_redF32 h rest provs within, ?_⟩
  simp only [List.forall_mem_cons]
  exact ⟨fun l one map => exec_narrow h rest provs within (form := 2) (by decide) one map rfl,
    fun l one map => exec_narrow h rest provs within (form := 3) (by decide) one map rfl,
    fun l one map => exec_narrow h rest provs within (form := 4) (by decide) one map rfl, nofun⟩

/-- Settles O21: the atomics of lanes rewrite their words one after another (`atomLanes_stored`) between the release and the acquire of their ORD
(`atomAct_stored`), reductions of FP32 do so by sums (`redLanes_stored`), and a narrow one opens a side band (`redOne_narrow`). -/
theorem atomicsAndReductions : Obligations.AtomicsAndReductions := by
  unfold Obligations.AtomicsAndReductions
  exact ⟨laneAtomics, reductions⟩

end Sys2Proof.Proofs.Atomics
end

section
/-! Operand-buffer ranges and the multiply (R210 to R220). -/
namespace Sys2Proof.Proofs.MatrixUnit
open Sys2Proof Sys2Proof.Machine Sys2Proof.Claims Sys2Proof.Proofs.MachineState

/-! ## Records (R22, R210, R211) -/

/-! Each field of a record by the manual's bits. -/
theorem obBase_eq (r : DWord) : obBase r = rBase r := rfl
theorem obLen_eq (r : DWord) : obLen r = rLen r := rfl
theorem obFmt_eq (r : DWord) : obFmt r = rFmt r := rfl
theorem obScale_eq (r : DWord) : obScale r = rScale r := rfl
theorem obBlk_eq (r : DWord) : obBlk r = rBlk r := rfl
theorem bitsOf_eq_fld (r : DWord) (lo n : Nat) : bitsOf r.toNat lo n = fld r lo n := rfl

/-- The line widths of R210. -/
theorem lineWidth_eq (f : Nat) : lineWidth f = lineBytes f := by
  match f with
  | 0 | 1 | 2 | 3 | 4 | 5 | 6 | 7 => rfl
  | f + 8 => simp [lineWidth, lineBytes]

theorem chunkUnits_eq (f : Nat) : chunkUnits f = units f := congrArg (· / 2) (lineWidth_eq f)

theorem lineAt_eq (r : DWord) (c i : Nat) : lineAt r c i = lineStart r c i :=
  congrArg (fun w => (rBase r + c * rBlk r) * 64 + i * w) (lineWidth_eq (rFmt r))

theorem chunksOf_eq_one (f : Nat) : chunksOf f = 1 ↔ f < 2 := by
  unfold chunksOf
  split <;> simp [*]

/-- The checks of obres are those of R211. -/
theorem recordOk_iff (allot r : DWord) : recordOk allot r = true ↔ ValidRecord (16 * obufOf allot) r := by
  unfold recordOk ValidRecord
  simp only [Bool.and_eq_true, Bool.or_eq_true, decide_eq_true_eq, beq_iff_eq, bne_iff_ne]
  simp only [obBase_eq, obLen_eq, obFmt_eq, obScale_eq, obBlk_eq, bitsOf_eq_fld, chunksOf_eq_one, chunkUnits_eq]
  by_cases one : rFmt r < 2
  · simp only [one, if_true, decide_eq_true_eq, true_implies]
    omega
  · simp only [one, if_false, Bool.and_eq_true, decide_eq_true_eq]
    omega

/-! ## Faults of a run (R465) -/

/-- A fault of a whole run parks it at the instruction. -/
theorem faultRun_issued {s : State} (h : CanIssue s) (k : Bool) (code : Nat) :
    faultRun (execOf k s) code (past k s).here (past k s) =
      faultsAt true s.iss.run (causeWord code 0 false) (fun _ => at_ s) (enabled k s) s (past k s) := by
  rw [faultRun, parkAgain, allLanes, ControlAndMasks.faultLanes_lanes _ code fun _ => (past k s).here]
  refine CodesAndHandlers.parkAt_congr _ _ fun l mem => ?_
  have run : bit (execOf k s).run l = true := mem
  have first : (past k s).iss.replay = none := ControlAndMasks.replay_of_canIssue (s := s) h
  simp only [ControlAndMasks.faultOf_lanes _ code fun _ => (past k s).here, run, if_true, againRecord, first, WaveControl.entryWord_ready]
  rfl

/-! ## Instructions of the group set that act on anything but registers -/

section
variable {s : State} {reads : List Reg} {body : Exec → State → State} (h : CanIssue s) (within : Within reads s)
include h within

theorem issue_effect {t : State} (acts : body (execOf false s) (past false s) = t) (stores : t.stores = []) (mem : t.mem = s.mem) :
    issue { reads := reads, perLane := false, kind := .effect } body s = .next t :=
  issue_group _ _ s h rfl (within_append within (within_nil s)) rfl rfl (absurd · Bool.false_ne_true) (absurd · Bool.false_ne_true) rfl t acts
    stores mem

/-- An instruction whose checks fail parks its run at it. -/
theorem issue_effectFault (code : Nat)
    (faults : body (execOf false s) (past false s) = faultRun (execOf false s) code (past false s).here (past false s)) :
    issue { reads := reads, perLane := false, kind := .effect } body s =
      .next (faultsAt true s.iss.run (causeWord code 0 false) (fun _ => at_ s) s.iss.run s (past false s)) :=
  issue_effect h within (faults.trans (faultRun_issued h false code)) ((ControlAndMasks.faultsAt_stores ..).trans (stores_of_canIssue (s := s) h))
    (ControlAndMasks.faultsAt_mem ..)

end

/-! ## Reserving and releasing (R211, R212) -/

section
variable {s : State} (h : CanIssue s) {a : Fin 128} {n : Fin 8}
include h

theorem exec_obres_valid (valid : ValidRecord (16 * obufOf s.grp.allot) (s.rdSS a)) :
    exec (.obres a n) s = .next ((past false s).modG fun g => { g with ob := g.ob.set n (s.rdSS a) }) :=
  issue_effect h (within_sPair a s) (if_pos ((recordOk_iff _ _).mpr valid)) (stores_of_canIssue (s := s) h) rfl

theorem exec_obres_invalid (invalid : ¬ ValidRecord (16 * obufOf s.grp.allot) (s.rdSS a)) :
    exec (.obres a n) s = .next (faultsAt true s.iss.run 0x24 (fun _ => at_ s) s.iss.run s (past false s)) :=
  issue_effectFault h (within_sPair a s) 0x24 (if_neg (mt (recordOk_iff _ _).mp invalid))

theorem exec_obrel (m : BitVec 8) :
    exec (.obrel m) s = .next ((past false s).modG fun g => { g with ob := Vector.ofFn fun i => if m.getLsbD i.val then 0 else g.ob[i] }) :=
  issue_effect h (within_nil s) rfl (stores_of_canIssue (s := s) h) rfl

end

/-! ## Filling (R214, R215) -/

/-- The operand's bytes of each row end within a group's scratch, and its rows start at words. -/
def FillFits (r : DWord) (g : Group) (off pitch : Nat) : Prop :=
  off % 4 = 0 ∧ pitch % 4 = 0 ∧ off + 31 * pitch + chunks (rFmt r) * lineBytes (rFmt r) ≤ scratchOf g.allot * 4096

theorem fillPoison_none (r : DWord) {g : Group} (off pitch : Nat) (clean : g.scratchPoison = []) : fillPoison r g off pitch = none :=
  List.find?_eq_none.mpr fun w _ => by simp [clean]

/-- Lines written one after another in a group's operand buffer. -/
theorem foldl_obuf {α : Type} (f : Mem → α → Mem) (xs : List α) (g : Group) :
    xs.foldl (fun h x => { h with obuf := f h.obuf x }) g = { g with obuf := xs.foldl f g.obuf } :=
  List.foldl_hom (fun m : Mem => { g with obuf := m }) fun _ _ => rfl

/-- With no unit poisoned a fill copies the lines and nothing else. -/
theorem fillRange_eq (r : DWord) (g : Group) (off pitch : Nat) {s : State} (clean : s.grp.obufPoison = []) :
    fillRange r g off pitch s = s.modG fun h => { h with obuf := filled r g.scratch off pitch h.obuf } := by
  have chunk (m : Mem) (c : Nat) := foldl_obuf (fun m i => m.writes (lineStart r c i)
    (g.scratch.bytes (off + i * pitch + c * lineBytes (rFmt r)) (lineBytes (rFmt r)))) (List.range 32) { s.grp with obuf := m }
  unfold fillRange State.modG
  simp only [lineWidth_eq, lineAt_eq, obFmt_eq]
  congr 1
  refine List.foldl_hom (fun m : Mem => { s.grp with obuf := m }) (init := s.grp.obuf) fun m c => ?_
  rw [chunk]
  simp only [clean, List.filter_nil]

theorem fillQueries_fit {r : DWord} {g : Group} {off pitch : Nat} {s : State} (x : Exec) (reserved : rLen r ≠ 0) (clean : s.grp.obufPoison = [])
    (source : g.scratchPoison = []) (fit : FillFits r g off pitch) :
    fillQueries r g off pitch false x s = s.modG fun h => { h with obuf := filled r g.scratch off pitch h.obuf } := by
  obtain ⟨aligned, rows, ends⟩ := fit
  have reaches : ¬ scratchOf g.allot * 4096 < off + 31 * pitch + chunksOf (obFmt r) * lineWidth (obFmt r) := by
    rw [lineWidth_eq]
    exact Nat.not_lt.mpr ends
  have length : obLen r ≠ 0 := reserved
  rw [fillQueries, if_neg length, if_neg reaches, fillPoison_none r off pitch source]
  simp only [aligned, rows, ne_eq, not_true_eq_false, decide_false, Bool.or_self, Bool.false_eq_true, if_false]
  exact fillRange_eq r g off pitch clean

theorem exec_obfill {s : State} (h : CanIssue s) {a b : Fin 128} {n : Fin 8} (reserved : rLen s.grp.ob[n] ≠ 0) (clean : s.grp.obufPoison = [])
    (source : s.grp.scratchPoison = []) (fit : FillFits s.grp.ob[n] s.grp (s.rdS a).toNat (s.rdS b).toNat) :
    exec (.obfill a b n) s = .next ((past false s).modG fun g =>
      { g with obuf := filled s.grp.ob[n] s.grp.scratch (s.rdS a).toNat (s.rdS b).toNat g.obuf }) :=
  issue_effect h (within_append (within_sReg a s) (within_sReg b s)) (fillQueries_fit (s := past false s) _ reserved clean source fit)
    (stores_of_canIssue (s := s) h) rfl

/-- The fields of the source register of obfill.x (R215): offset, core, and no reserved bit. -/
theorem sourceFields {v : Nat} {off : BitVec 18} {c : Fin 12} (value : v = c.val * 2 ^ 24 + off.toNat) :
    bitsOf v 0 18 = off.toNat ∧ bitsOf v 24 4 = c.val ∧ (bitsOf v 18 6 != 0 || bitsOf v 28 4 != 0 || decide (11 < c.val)) = false := by
  have := off.isLt
  have := c.isLt
  have core : ¬ 11 < c.val := by omega
  simp only [bitsOf, core, decide_false, Bool.or_false, Bool.or_eq_false_iff, bne_eq_false_iff_eq]
  omega

section
variable {s : State} (h : CanIssue s) {a b : Fin 128} {n : Fin 8} {off : BitVec 18} {c : Fin 12} (value : (s.rdS a).toNat = c.val * 2 ^ 24 + off.toNat)
  (reserved : rLen s.grp.ob[n] ≠ 0)
include h value reserved

theorem exec_obfillX_some {g : Group} (found : clusterGroup (past false s) c.val = some g) (clean : s.grp.obufPoison = [])
    (source : g.scratchPoison = []) (fit : FillFits s.grp.ob[n] g off.toNat (s.rdS b).toNat) :
    exec (.obfillX a b n) s = .next ((past false s).modG fun h =>
      { h with obuf := filled s.grp.ob[n] g.scratch off.toNat (s.rdS b).toNat h.obuf }) := by
  obtain ⟨offset, core, sound⟩ := sourceFields value
  refine issue_effect h (within_append (within_sReg a s) (within_sReg b s)) ?_ (stores_of_canIssue (s := s) h) rfl
  have register : ((past false s).rdS a).toNat = (s.rdS a).toNat := rfl
  simp only [obfillXBody, register, offset, core, sound, found]
  exact fillQueries_fit (s := past false s) _ reserved clean source fit

theorem exec_obfillX_none (none_ : clusterGroup (past false s) c.val = none) (aligned : off.toNat % 4 = 0) (rows : (s.rdS b).toNat % 4 = 0) :
    exec (.obfillX a b n) s = .next (faultsAt true s.iss.run 0x25 (fun _ => at_ s) s.iss.run s (past false s)) := by
  obtain ⟨offset, core, sound⟩ := sourceFields value
  refine issue_effectFault h (within_append (within_sReg a s) (within_sReg b s)) 0x25 ?_
  have register : ((past false s).rdS a).toNat = (s.rdS a).toNat := rfl
  have pitch : ((past false s).rdS b).toNat % 4 = 0 := rows
  have length : (obLen (past false s).grp.ob[n] == 0) = false := beq_false_of_ne reserved
  simp only [obfillXBody, register, offset, core, sound, none_, length, aligned, pitch, bne_self_eq_false, Bool.or_self, Bool.false_eq_true, if_false]

end

/-- O25's half on ranges: each instruction by the checks that decide what it does. -/
theorem operandBufferRanges : OperandBufferRanges := by
  intro s a b n h
  refine ⟨exec_obres_valid h, exec_obres_invalid h, exec_obrel h, fun clean reserved => ⟨fun source fit => ?_, fun off c value => ⟨?_, ?_⟩⟩⟩
  · exact exec_obfill h reserved clean source fit
  · exact fun g found source fit => exec_obfillX_some h value reserved found clean source fit
  · exact exec_obfillX_none h value reserved

/-! ## Checks of the multiply (R217, R218, R220) -/

theorem pairK_isSome (a b : Nat) : (pairK a b).isSome = true ↔ FormatPair a b := by
  unfold pairK FormatPair
  split_ifs <;> simp <;> omega

/-- The fields of SEL (R218). -/
theorem selFields {sel : Nat} (small : sel < 256) : bitsOf sel 0 3 = sel % 8 ∧ bitsOf sel 3 1 = sel / 8 % 2 ∧ bitsOf sel 4 3 = sel / 16 % 8 ∧
    bitsOf sel 7 1 = sel / 128 % 2 ∧ bitsOf sel 0 4 = sel % 16 ∧ bitsOf sel 4 4 = sel / 16 := by
  simp only [bitsOf]
  omega

theorem rangesOk_iff {ra rb : DWord} {sel : Nat} (small : sel < 256) : rangesOk ra rb sel = true ↔
    rLen ra ≠ 0 ∧ rLen rb ≠ 0 ∧ FormatPair (rFmt ra) (rFmt rb) ∧ (rScale ra = 1 ∨ sel % 16 = 0) ∧ (rScale rb = 1 ∨ sel / 16 = 0) := by
  obtain ⟨-, -, -, -, low, high⟩ := selFields small
  simp only [rangesOk, low, high, Bool.and_eq_true, Bool.or_eq_true, bne_iff_ne, beq_iff_eq, pairK_isSome, and_assoc]
  rfl

/-- Registers that nothing pending has as a destination do not hold an effect (R118, R218). -/
theorem clearOf_settled {rs : List Reg} {s : State} (settled : ∀ r ∈ rs, Settled r (fun _ => True) s) (m : Mask) : clearOf rs m s = true := by
  rw [clearOf, Bool.not_eq_true', List.any_eq_false]
  intro p hp waits
  obtain ⟨touches, dest⟩ := Bool.and_eq_true_iff.mp waits
  obtain ⟨r, dest, named⟩ := List.any_eq_true.mp dest
  have none_ : p.lanes = 0 := mask_ext _ _ fun l => (settled r (List.contains_iff_mem.mp named) p hp dest l trivial).trans (bit_zero l).symm
  simp [Pending.touches, none_] at touches

/-- The scale registers of a multiply that passes its checks lie within the allotment and are pending for no lane. -/
theorem scaleRegs_ready {s : State} {ra rb : DWord} {sel : Nat} (small : sel < 256)
    (ready : ∀ r off, (r, off) = (ra, sel % 8) ∨ (r, off) = (rb, sel / 16 % 8) → rScale r = 1 →
      Within [.v (rScBase r + off)] s ∧ Settled (.v (rScBase r + off)) (fun _ => True) s) :
    ∀ n ∈ scaleRegs ra rb sel, beyond s.grp.allot (.v n) = false ∧ Settled (.v n) (fun _ => True) s := by
  obtain ⟨ofA, -, ofB, -⟩ := selFields small
  have one {r : DWord} {off n : Nat} (of : (r, off) = (ra, sel % 8) ∨ (r, off) = (rb, sel / 16 % 8))
      (mem : n ∈ if obScale r = 1 then [obScBase r + off] else []) : beyond s.grp.allot (.v n) = false ∧ Settled (.v n) (fun _ => True) s := by
    split at mem
    next scaled =>
      obtain rfl := List.mem_singleton.mp mem
      obtain ⟨within, settled⟩ := ready r off of scaled
      exact ⟨within _ (List.mem_singleton.mpr rfl), settled⟩
    next => cases mem
  intro n mem
  rw [scaleRegs, ofA, ofB] at mem
  exact (List.mem_append.mp mem).elim (one (.inl rfl)) (one (.inr rfl))

/-! ## Cells (R96 to R99, R219) -/

/-- An element of a line of bytes held as a number. -/
theorem bitsOf_leNat_bytes (m : Mem) (a n q : Nat) (h : q < n) : bitsOf (leNat (m.bytes a n)) (8 * q) 8 = (m.read (a + q)).toNat := by
  induction n generalizing a q with
  | zero => exact absurd h (Nat.not_lt_zero q)
  | succ n ih =>
    have low := (m.read a).isLt
    rw [Mem.bytes, leNat]
    cases q with
    | zero =>
      simp only [bitsOf, Nat.mul_zero, Nat.add_zero]
      omega
    | succ q =>
      have rest : ((m.read a).toNat + 256 * leNat (m.bytes (a + 1) n)) / 2 ^ (8 * (q + 1)) = leNat (m.bytes (a + 1) n) / 2 ^ (8 * q) := by
        rw [Nat.mul_succ, Nat.add_comm (8 * q), Nat.pow_add, ← Nat.div_div_eq_div_mul]
        congr 1
        omega
      rw [bitsOf, rest, show a + (q + 1) = a + 1 + q by omega]
      exact ih (a + 1) q (Nat.lt_of_succ_lt_succ h)

/-- An INT8 element of a line (R210). -/
theorem elementInt_eq (g : Group) {r : DWord} (int8 : rFmt r = 4) (c i q : Nat) (h : q < 32) :
    elementInt (lineNum g r c i) q = int8At g r i (32 * c + q) := by
  have width : lineWidth (obFmt r) = 32 := by rw [obFmt_eq, int8]; rfl
  have place : (32 * c + q) / 32 = c ∧ (32 * c + q) % 32 = q := by omega
  rw [elementInt, lineNum, width, bitsOf_leNat_bytes _ _ _ _ h, BitVec.ofNat_toNat, BitVec.setWidth_eq, int8At, place.1, place.2, lineAt_eq]

/-- The INT32 sum of R99, chunk after chunk. -/
theorem mmaInt_eq (g : Group) {ra rb : DWord} (first : rFmt ra = 4) (second : rFmt rb = 4) (start : Word) (i j : Fin 32) :
    mmaInt g ra rb start i j = start + BitVec.ofInt 32 ((List.range 64).map fun k => int8At g ra i.val k * int8At g rb j.val k).sum := by
  have chunk (c : Nat) : (List.range 32).foldl (fun z q => z + elementInt (lineNum g ra c i.val) q * elementInt (lineNum g rb c j.val) q) 0 =
      ((List.range 32).map fun q => int8At g ra i.val (32 * c + q) * int8At g rb j.val (32 * c + q)).sum := by
    rw [List.sum_eq_foldl, List.foldl_map]
    refine List.foldl_ext _ _ _ fun z q mem => ?_
    rw [elementInt_eq g first c i.val q (List.mem_range.mp mem), elementInt_eq g second c j.val q (List.mem_range.mp mem)]
  rw [show (64 : Nat) = 32 + 32 from rfl, List.range_add, List.map_append, List.sum_append, BitVec.ofInt_add, ← BitVec.add_assoc, List.map_map]
  show start + BitVec.ofInt 32 _ + BitVec.ofInt 32 _ = _
  rw [chunk 0, chunk 1]
  simp only [Nat.mul_zero, Nat.zero_add, Nat.mul_one]
  rfl

/-- The accumulation of R98 over the chunks. -/
theorem mmaFloat_eq (s : State) (ra rb : DWord) {sel : Nat} (small : sel < 256) (start : Word) (i j : Fin 32) :
    mmaFloat s.w s.grp ra rb sel start i j = accumulate start ((List.range (chunks (rFmt ra))).map (cellProducts s ra rb sel i j)) := by
  obtain ⟨offA, halfA, offB, halfB, -⟩ := selFields small
  simp only [mmaFloat, lineNum, lineAt_eq, lineWidth_eq, offA, halfA, offB, halfB]
  rfl

/-- A cell of a multiply whose formats are a pair. -/
theorem cell_eq (s : State) {ra rb : DWord} {sel : Nat} (small : sel < 256) (pair : FormatPair (rFmt ra) (rFmt rb)) (start : Word) (i j : Fin 32) :
    (if obFmt ra = 4 then mmaInt s.grp ra rb start i j else mmaFloat s.w s.grp ra rb sel start i j) = cellAfter s ra rb sel start i j := by
  by_cases int8 : rFmt ra = 4
  · have second : rFmt rb = 4 := by
      unfold FormatPair at pair
      omega
    rw [obFmt_eq, if_pos int8, mmaInt_eq s.grp int8 second, cellAfter, if_pos int8]
  · rw [obFmt_eq, if_neg int8, mmaFloat_eq s ra rb small, cellAfter, if_neg int8]

/-! ## The multiply (R216 to R220) -/

/-- The rows of a tile behind a multiply: new cells in the enabled rows, beside their side registers. -/
def rowsAfter (s : State) (t : Fin 16) (ra rb : DWord) (sel : Nat) (start : Fin 32 → Fin 32 → Word) : Lanes Row := Lanes.ofFn fun i =>
  if bit (laneSet s) i then { s.w.tiles[t].rows[i] with cells := Lanes.ofFn fun j => cellAfter s ra rb sel (start i j) i j } else s.w.tiles[t].rows[i]

theorem rowPoison_none {g : Group} (clean : g.obufPoison = []) (ra rb : DWord) (i : Fin 32) : rowPoison g ra rb i = none :=
  List.find?_eq_none.mpr fun u _ => by simp [clean]

section
variable {s : State} (t : Fin 16) (a b : Fin 8) (sel : Fin 256) (k : Fin 16) (zero : Bool)

/-- What a multiply writes whose checks pass. -/
theorem mmaBody_ready (can : CanMultiply s s.grp.ob[a] s.grp.ob[b] sel.val) :
    mmaBody (mmaSig t k) zero t a b sel.val (execOf true s) (past true s) = deliver (mmaSig t k) (execOf true s) [.rows t (laneSet s)
      (rowsAfter s t s.grp.ob[a] s.grp.ob[b] sel.val fun i j => if zero then 0 else s.w.tiles[t].rows[i].cells[j])] [] (past true s) := by
  obtain ⟨lenA, lenB, pair, selA, selB, scales, clean⟩ := can
  have ranges : (past true s).grp.ob = s.grp.ob := rfl
  have lanes : (execOf true s).en = laneSet s := rfl
  have ok : rangesOk s.grp.ob[a] s.grp.ob[b] sel.val = true := (rangesOk_iff sel.isLt).mpr ⟨lenA, lenB, pair, selA, selB⟩
  have ready := scaleRegs_ready sel.isLt scales
  have allotted : ((scaleRegs s.grp.ob[a] s.grp.ob[b] sel.val).any fun n => decide (vregsOf (past true s).grp.allot ≤ n)) = false :=
    List.any_eq_false.mpr fun n mem => Bool.eq_false_iff.mp (ready n mem).1
  have clear : clearOf ((scaleRegs s.grp.ob[a] s.grp.ob[b] sel.val).map .v) (~~~0#32) (past true s) = true :=
    clearOf_settled (s := s) (fun r mem => by obtain ⟨n, scale, rfl⟩ := List.mem_map.mp mem; exact (ready n scale).2) _
  have sound (i : Fin 32) : rowPoison (past true s).grp s.grp.ob[a] s.grp.ob[b] i = none := rowPoison_none clean _ _ i
  have good : laneSet s &&& ~~~(maskFrom ([] : List Poisoned)) = laneSet s := by
    rw [show ~~~(maskFrom ([] : List Poisoned)) = BitVec.allOnes 32 by decide, BitVec.and_allOnes]
  have noneBad : (lanesOf (laneSet s)).filterMap (fun _ => (none : Option Poisoned)) = [] := by simp
  simp only [mmaBody, ranges, ok, Bool.not_true, allotted, Bool.false_eq_true, if_false, whenClear, clear, if_true, sound, Option.map_none, lanes, noneBad,
    poisonFaults, good, cell_eq (past true s) sel.isLt pair]
  rfl

variable (h : CanIssue s) (within : Within [.tile t.val] s) (some_ : laneSet s ≠ 0)
include h within some_

/-- A multiply whose checks pass writes the cells of the enabled rows. -/
theorem issue_multiply (can : CanMultiply s s.grp.ob[a] s.grp.ob[b] sel.val) :
    issue (mmaSig t k) (mmaBody (mmaSig t k) zero t a b sel.val) s = .next (delivered k.val [.tile t.val] [.rows t (laneSet s)
      (rowsAfter s t s.grp.ob[a] s.grp.ob[b] sel.val fun i j => if zero then 0 else s.w.tiles[t].rows[i].cells[j])] (laneSet s) false s (past true s)) := by
  have delivery := deliver_noFault (mmaSig t k) ⟨false, false, 0⟩ [.rows t (laneSet s) (rowsAfter s t s.grp.ob[a] s.grp.ob[b] sel.val fun i j =>
    if zero then 0 else s.w.tiles[t].rows[i].cells[j])] s (past true s) h rfl rfl rfl rfl
  refine issue_past _ _ s h (within_append within within) rfl rfl (absurd · Bool.false_ne_true) (absurd · Bool.false_ne_true) rfl _ ?_
    ((deliveredAs_frame ..).2.trans (stores_of_canIssue (s := s) h)) (deliveredAs_frame ..).1
  exact (if_neg some_).trans ((mmaBody_ready t a b sel k zero can).trans delivery)

/-- A multiply whose range checks fail parks its run. -/
theorem issue_multiplyFault (bad : ¬ (rLen s.grp.ob[a] ≠ 0 ∧ rLen s.grp.ob[b] ≠ 0 ∧ FormatPair (rFmt s.grp.ob[a]) (rFmt s.grp.ob[b]) ∧
      (rScale s.grp.ob[a] = 1 ∨ sel.val % 16 = 0) ∧ (rScale s.grp.ob[b] = 1 ∨ sel.val / 16 = 0))) :
    issue (mmaSig t k) (mmaBody (mmaSig t k) zero t a b sel.val) s =
      .next (faultsAt true s.iss.run 0x24 (fun _ => at_ s) (laneSet s) s (past true s)) := by
  have refused : (!rangesOk s.grp.ob[a] s.grp.ob[b] sel.val) = true := by
    rw [Bool.eq_false_iff.mpr (mt (rangesOk_iff sel.isLt).mp bad)]
    rfl
  refine issue_past _ _ s h (within_append within within) rfl rfl (absurd · Bool.false_ne_true) (absurd · Bool.false_ne_true) rfl _ ?_
    ((ControlAndMasks.faultsAt_stores ..).trans (stores_of_canIssue (s := s) h)) (ControlAndMasks.faultsAt_mem ..)
  exact (if_neg some_).trans ((if_pos refused).trans (faultRun_issued h true 0x24))

end

/-- O25's half on the multiply: with and without the old cells as its start. -/
theorem matrixMultiply : MatrixMultiply := by
  intro s t a b sel k h within some_
  refine ⟨fun can => ⟨?_, ?_⟩, fun bad => ⟨?_, ?_⟩⟩
  · exact issue_multiply t a b sel k false h within some_ can
  · exact issue_multiply t a b sel k true h within some_ can
  · exact issue_multiplyFault t a b sel k false h within some_ bad
  · exact issue_multiplyFault t a b sel k true h within some_ bad

/-- Settles O25: the checks of obres are those of R211 (`recordOk_iff`), a fill copies the lines and nothing else (`fillRange_eq`), and the cells of a
multiply are the accumulation of R98 or the INT32 sum of R99 (`cell_eq`). -/
theorem rangesAndMatrices : Obligations.RangesAndMatrices := by
  unfold Obligations.RangesAndMatrices
  exact ⟨operandBufferRanges, matrixMultiply⟩

end Sys2Proof.Proofs.MatrixUnit
end

section
/-! Selections (R255): the k best columns, one after another, are the columns with fewer than k better ones. -/
namespace Sys2Proof.Proofs.MatrixUnit
open Sys2Proof Sys2Proof.Machine Sys2Proof.Claims Sys2Proof.Proofs.MachineState

/-! ## The best of a list of scored columns -/

/-- A scored column: the place of its participant, its number and its score. -/
abbrev Scored := Nat × Nat × Word

/-- Whether a column goes before another: the greater score, and of equal ones the lower column (R255). -/
def outranks (d c : Scored) : Bool := below c.2.2 d.2.2 || (!below d.2.2 c.2.2 && decide (d.2.1 < c.2.1))

theorem outranks_iff (d c : Scored) :
    outranks d c = true ↔ orderKey c.2.2 < orderKey d.2.2 ∨ orderKey c.2.2 = orderKey d.2.2 ∧ d.2.1 < c.2.1 := by
  have apart : below d.2.2 c.2.2 = false ↔ ¬ orderKey d.2.2 < orderKey c.2.2 := by rw [FloatingPoint.orderKey_lt_iff, Bool.not_eq_true]
  rw [outranks, Bool.or_eq_true, Bool.and_eq_true, Bool.not_eq_true', decide_eq_true_eq, ← FloatingPoint.orderKey_lt_iff, apart]
  omega

/-- The better of the columns seen so far and the next one. -/
def leader (b : Option Scored) (c : Scored) : Option Scored :=
  match b with
  | none => some c
  | some d => if orderKey d.2.2 < orderKey c.2.2 then some c else some d

theorem bestColumns_none {k : Nat} {cs : List Scored} (led : cs.foldl leader none = none) : bestColumns (k + 1) cs = [] := by
  show (match cs.foldl leader none with | none => [] | some c => _) = _
  rw [led]

theorem bestColumns_some {k : Nat} {cs : List Scored} {c : Scored} (led : cs.foldl leader none = some c) :
    bestColumns (k + 1) cs = (c.1, c.2.1) :: bestColumns k (cs.filter fun d => !(d.1 == c.1 && d.2.1 == c.2.1)) := by
  show (match cs.foldl leader none with
    | none => []
    | some c => (c.1, c.2.1) :: bestColumns k (cs.filter fun d => !(d.1 == c.1 && d.2.1 == c.2.1))) = _
  rw [led]

/-- Columns in ascending order. -/
abbrev Ascending (cs : List Scored) : Prop := cs.Pairwise fun c d => c.2.1 < d.2.1

/-- The leader of a list outranks every other column of it. -/
theorem foldl_leader (cs : List Scored) (d : Scored) (sorted : Ascending (d :: cs)) :
    ∃ e ∈ d :: cs, cs.foldl leader (some d) = some e ∧ ∀ x ∈ d :: cs, x ≠ e → outranks e x = true := by
  induction cs generalizing d with
  | nil => exact ⟨d, List.mem_singleton.mpr rfl, rfl, fun x mem apart => absurd (List.mem_singleton.mp mem) apart⟩
  | cons c t ih =>
    obtain ⟨above, rest⟩ := List.pairwise_cons.mp sorted
    rw [List.foldl_cons, leader]
    split
    case isTrue better =>
      obtain ⟨e, mem, led, best⟩ := ih c rest
      refine ⟨e, List.mem_cons_of_mem d mem, led, fun x member apart => ?_⟩
      rcases List.mem_cons.mp member with rfl | member
      · by_cases same : c = e
        · exact (outranks_iff _ _).mpr (.inl (same ▸ better))
        · have first := (outranks_iff _ _).mp (best c (List.mem_cons_self ..) same)
          exact (outranks_iff _ _).mpr (by omega)
      · exact best x member apart
    case isFalse notBetter =>
      have kept : Ascending (d :: t) :=
        List.pairwise_cons.mpr ⟨fun x mem => above x (List.mem_cons_of_mem c mem), (List.pairwise_cons.mp rest).2⟩
      obtain ⟨e, mem, led, best⟩ := ih d kept
      refine ⟨e, by simp only [List.mem_cons] at mem ⊢; tauto, led, fun x member apart => ?_⟩
      have behind : outranks e c = true := by
        have lower := above c (List.mem_cons_self ..)
        by_cases same : d = e
        · subst same
          exact (outranks_iff _ _).mpr (by omega)
        · have first := (outranks_iff _ _).mp (best d (List.mem_cons_self ..) same)
          have later := above e (List.mem_cons_of_mem c ((List.mem_cons.mp mem).resolve_left (Ne.symm same)))
          exact (outranks_iff _ _).mpr (by omega)
      rcases List.mem_cons.mp member with rfl | member
      · exact best _ (List.mem_cons_self ..) apart
      rcases List.mem_cons.mp member with rfl | member
      · exact behind
      · exact best x (List.mem_cons_of_mem d member) apart

/-- No column outranks one that outranks it, nor itself. -/
theorem not_outranks {e x : Scored} (best : x ≠ e → outranks e x = true) : outranks x e ≠ true := by
  intro better
  have second := (outranks_iff _ _).mp better
  by_cases same : x = e
  · rw [same] at second
    omega
  · have first := (outranks_iff _ _).mp (best same)
    omega

/-! ## The k best -/

theorem Ascending.columns_nodup {cs : List Scored} (sorted : Ascending cs) : (cs.map fun c => c.2.1).Nodup :=
  (List.pairwise_map.mpr sorted).imp fun lt => lt.ne

theorem Ascending.nodup {cs : List Scored} (sorted : Ascending cs) : cs.Nodup := sorted.columns_nodup.of_map

/-- Of one participant's columns only the one chosen has its place and number. -/
theorem filter_chosen {place : Nat} {cs : List Scored} (sorted : Ascending cs) (own : ∀ c ∈ cs, c.1 = place) {e : Scored} (mem : e ∈ cs) :
    cs.filter (fun x => !(x.1 == e.1 && x.2.1 == e.2.1)) = cs.erase e := by
  rw [sorted.nodup.erase_eq_filter]
  refine List.filter_congr fun x member => ?_
  have same : (x.2.1 == e.2.1) = (x == e) := by
    rw [Bool.eq_iff_iff, beq_iff_eq, beq_iff_eq]
    exact ⟨List.inj_on_of_nodup_map sorted.columns_nodup member mem, congrArg fun c : Scored => c.2.1⟩
  rw [own x member, own e mem, beq_self_eq_true, Bool.true_and, same]
  rfl

/-- The columns of one participant, chosen one after another, are those with fewer than k columns before them. -/
theorem mem_bestColumns (place k : Nat) (cs : List Scored) (sorted : Ascending cs) (own : ∀ c ∈ cs, c.1 = place) (j : Nat) :
    (place, j) ∈ bestColumns k cs ↔ ∃ c ∈ cs, c.2.1 = j ∧ cs.countP (outranks · c) < k := by
  induction k generalizing cs with
  | zero => simp [bestColumns]
  | succ k ih =>
    cases cs with
    | nil => simp [bestColumns_none (cs := []) rfl]
    | cons d t =>
      obtain ⟨e, mem, led, best⟩ := foldl_leader t d sorted
      have led : (d :: t).foldl leader none = some e := led
      rw [bestColumns_some led, filter_chosen sorted own mem]
      generalize d :: t = cs at *
      have first : cs.countP (outranks · e) = 0 := List.countP_eq_zero.mpr fun x member => not_outranks (best x member)
      have count (c : Scored) (left : c ∈ cs.erase e) : cs.countP (outranks · c) = (cs.erase e).countP (outranks · c) + 1 := by
        obtain ⟨apart, member⟩ := sorted.nodup.mem_erase_iff.mp left
        rw [(List.perm_cons_erase mem).countP_eq, List.countP_cons_of_pos (p := (outranks · c)) (best c member apart)]
      rw [List.mem_cons, ih (cs.erase e) (sorted.sublist List.erase_sublist) fun c left => own c (List.mem_of_mem_erase left)]
      constructor
      · rintro (same | ⟨c, left, column, few⟩)
        · exact ⟨e, mem, (Prod.mk.inj same).2.symm, first ▸ k.succ_pos⟩
        · exact ⟨c, List.mem_of_mem_erase left, column, (count c left).trans_lt (Nat.succ_lt_succ few)⟩
      · rintro ⟨c, member, column, few⟩
        by_cases same : c = e
        · exact .inl (by rw [← column, same, own e mem])
        · have left := sorted.nodup.mem_erase_iff.mpr ⟨same, member⟩
          exact .inr ⟨c, left, column, Nat.lt_of_succ_lt_succ ((count c left).symm.trans_lt few)⟩

/-- The columns that a selection over one tile chooses are those of R255. -/
theorem columnMask_bestColumns (place : Nat) (t : Tile) (rows : Mask) (k : Nat) :
    columnMask place (bestColumns k (selectable place t rows)) = bestMask t rows k := by
  have sorted : Ascending (selectable place t rows) :=
    .filter _ (List.pairwise_map.mpr (show laneList.Pairwise fun i j => i.val < j.val by decide))
  have own : ∀ c ∈ selectable place t rows, c.1 = place := fun c mem => by
    obtain ⟨j, -, rfl⟩ := List.mem_map.mp (List.mem_of_mem_filter mem)
    rfl
  have count (j : Fin 32) : (selectable place t rows).countP (outranks · (place, j.val, columnScore t rows j)) = laneList.countP fun i =>
      (!isNaN (columnScore t rows i) && columnScore t rows i != 0xFF800000) && (below (columnScore t rows j) (columnScore t rows i) ||
        (!below (columnScore t rows i) (columnScore t rows j) && decide (i < j))) := by
    simp only [selectable, List.countP_filter, List.countP_map, IntegerAndLanes.nan32_eq]
    exact List.countP_congr fun i _ => by simp only [Function.comp_apply, outranks, Fin.lt_def, Bool.and_comm]
  refine mask_ext _ _ fun j => ?_
  rw [columnMask, bestMask, bit_maskOf, bit_maskOf, Bool.eq_iff_iff, List.contains_iff_mem, mem_bestColumns place k _ sorted own,
    Bool.and_eq_true, decide_eq_true_eq]
  constructor
  · rintro ⟨c, mem, column, few⟩
    obtain ⟨listed, sound⟩ := List.mem_filter.mp mem
    obtain ⟨i, -, rfl⟩ := List.mem_map.mp listed
    obtain rfl : i = j := Fin.ext column
    rw [IntegerAndLanes.nan32_eq] at sound
    exact ⟨sound, (count i).symm.trans_lt few⟩
  · rintro ⟨sound, few⟩
    have scored : (!nan32 (columnScore t rows j) && columnScore t rows j != 0xFF800000) = true := by rw [IntegerAndLanes.nan32_eq]; exact sound
    have member : (place, j.val, columnScore t rows j) ∈ selectable place t rows :=
      List.mem_filter.mpr ⟨List.mem_map.mpr ⟨j, mem_laneList j, rfl⟩, scored⟩
    exact ⟨_, member, rfl, (count j).trans_lt few⟩

end Sys2Proof.Proofs.MatrixUnit
end

section
/-! Merges and selections of a group that is alone (R227 to R230, R255). -/
namespace Sys2Proof.Proofs.MatrixUnit
open Sys2Proof Sys2Proof.Machine Sys2Proof.Claims Sys2Proof.Proofs.MachineState

/-! ## The only arrival -/

/-- The instruction's arrival, at a merge or (MODE 3) at a selection. -/
def arrivalOf (tile mode root dest : Nat) (one : Bool) (s : State) : MergeArrival :=
  ⟨s.grp.task.launch, if mode == 3 then s.grp.picks else s.grp.merges, s.grp.core % 12, s.grp.uid, s.w.uid, tile, mode, one, root, s.iss.run, dest⟩

/-- The instruction while it waits for the other arrivals. -/
def waitingAt (look : Nat) (dests : List Reg) (a : MergeArrival) (s : State) : Pending where
  id := s.nextUid
  issue := s.iss.id
  pc := at_ s
  lanes := s.iss.run
  enabled := s.iss.run
  issued := Lanes.all 0
  look := look
  dests := dests
  writes := []
  faults := []
  ordered := false
  load := false
  reach := []
  space := 0
  stores := false
  restart := true
  on := .merge a.launch a.pick a.n

/-- A group that counts the merge or selection it has joined. -/
def countArrival (mode : Nat) (g : Group) : Group := if mode == 3 then { g with picks := g.picks + 1 } else { g with merges := g.merges + 1 }

theorem countArrival_merge {mode : Nat} (merge : (mode == 3) = false) : countArrival mode = fun g => { g with merges := g.merges + 1 } :=
  funext fun _ => if_neg (by rw [merge]; exact Bool.false_ne_true)

theorem countArrival_pick {mode : Nat} (pick : (mode == 3) = true) : countArrival mode = fun g => { g with picks := g.picks + 1 } :=
  funext fun _ => if_pos pick

/-- The state with the arrival joined. -/
def joinedBy (look : Nat) (dests : List Reg) (a : MergeArrival) (s : State) : State :=
  { ((s.modW fun w => { w with pending := w.pending ++ [waitingAt look dests a s] }).fresh).modG (countArrival a.mode) with
    merges := s.merges ++ [a] }

/-- Whether the arrival names another core as the one root (R230). -/
abbrev Refused (a : MergeArrival) : Prop := a.mode ≠ 3 ∧ a.one = true ∧ a.core ≠ a.root

/-- What the only arrival receives: the mask of its own best columns, or its own rows merged with no other's. -/
def soleWrites (t : Tile) (a : MergeArrival) : List RegWrite :=
  if a.mode = 3 then [.s (Fin.ofNat 128 a.dest) (bestMask t a.rows a.root)]
  else [.rows (Fin.ofNat 16 a.tile) (~~~0) (Lanes.ofFn fun l =>
    if a.mode = 0 then mergeRow a.mode [t.rows[l]] else { t.rows[l] with cells := (mergeRow a.mode [t.rows[l]]).cells })]

/-- The state once the last pending instruction of the wave has been answered and no arrival waits. -/
def answeredBy (ps : List Pending) (q : Pending) (u : State) : State := { u.modW fun w => { w with pending := ps ++ [q] } with merges := [] }

theorem flatMap_own (n : Nat) (small : n < 12) (a : MergeArrival) : ((List.range 12).flatMap fun c => if n == c then [a] else []) = [a] := by
  interval_cases n <;> rfl

/-- A state whose only arrival is of its issuing wave, whose last pending instruction waits for it; what else is pending for it does not wait for
arrivals, no other wave bears its identity, and no group saved bears its group's. -/
structure SoleArrival (u : State) (a : MergeArrival) (ps : List Pending) (p : Pending) : Prop where
  merges  : u.merges = [a]
  core    : a.core < 12
  live    : u.grp.live = true
  group   : a.group = u.grp.uid
  wave    : a.wave = u.w.uid
  pending : u.w.pending = ps ++ [p]
  timed   : ∀ q ∈ ps, q.on = .time
  waits   : p.on = .merge a.launch a.pick a.n
  waves   : ∀ w ∈ u.grp.waves, w.uid ≠ u.w.uid
  rest    : ∀ g ∈ u.rest, ∀ w ∈ g.all, w.uid ≠ u.w.uid
  saved   : ∀ v ∈ u.die0.saved ++ u.die1.saved, v.group.uid ≠ u.grp.uid

/-- A pending instruction once the merge that it waits for completes. -/
def answer (a : MergeArrival) (ws : List RegWrite) (bad : Bool) (p : Pending) : Pending :=
  if p.on = .merge a.launch a.pick a.n then
    if bad then { p with on := .time, restart := false, faults := allLanes p.lanes 0x26 p.pc } else { p with on := .time, writes := ws }
  else p

theorem answer_accepted (ws : List RegWrite) (look : Nat) (dests : List Reg) (a : MergeArrival) (s : State) :
    answer a ws false (waitingAt look dests a s) = { waitingAt look dests a s with on := .time, writes := ws } := if_pos rfl

theorem answer_refused (ws : List RegWrite) (look : Nat) (dests : List Reg) (a : MergeArrival) (s : State) :
    answer a ws true (waitingAt look dests a s) =
      { waitingAt look dests a s with on := .time, restart := false, faults := allLanes s.iss.run 0x26 (at_ s) } := if_pos rfl

theorem answer_waiting (ws : List RegWrite) (bad : Bool) (look : Nat) (dests : List Reg) (a : MergeArrival) (s : State) :
    (answer a ws bad (waitingAt look dests a s)).id = s.nextUid ∧ (answer a ws bad (waitingAt look dests a s)).on = .time := by
  cases bad
  · rw [answer_accepted]
    exact ⟨rfl, rfl⟩
  · rw [answer_refused]
    exact ⟨rfl, rfl⟩

/-- A wave once the merge of one arrival completes. -/
def answerWave (a : MergeArrival) (result : MergeArrival → List RegWrite) (bad : Bool) (w : Wave) : Wave :=
  match [a].find? fun b => b.wave == w.uid with
  | some b => { w with pending := w.pending.map (answer b (result b) bad) }
  | none => w

theorem answerWave_own {a : MergeArrival} {w : Wave} (own : a.wave = w.uid) (result : MergeArrival → List RegWrite) (bad : Bool) :
    answerWave a result bad w = { w with pending := w.pending.map (answer a (result a) bad) } := by
  have found : [a].find? (fun b => b.wave == w.uid) = some a := List.find?_cons_of_pos (beq_iff_eq.mpr own)
  rw [answerWave, found]

theorem answerWave_other {a : MergeArrival} {w : Wave} (other : w.uid ≠ a.wave) (result : MergeArrival → List RegWrite) (bad : Bool) :
    answerWave a result bad w = w := by
  have absent : [a].find? (fun b => b.wave == w.uid) = none := by simp [Ne.symm other]
  rw [answerWave, absent]

theorem finishMerge_one (a : MergeArrival) (result : MergeArrival → List RegWrite) (bad : Bool) (u : State) :
    finishMerge [a] result bad u =
      { u.mapGroups fun g => g.mapWaves (answerWave a result bad) with merges := u.merges.filter fun b => !([a].contains b) } := rfl

/-- A group alone finds its own arrival and no other. -/
theorem arrivalsOf_sole {u : State} {a : MergeArrival} (sole : u.merges = [a]) (small : a.core < 12) (ctx : Nat) :
    arrivalsOf u ctx false a.launch a.group a.pick a.n = [a] := by
  have one (c : Nat) : [a].filter (fun b => b.core == c) = if a.core == c then [a] else [] := by rw [List.filter_cons, List.filter_nil]
  rw [arrivalsOf, sole]
  simp only [Bool.false_eq_true, if_false, List.filter_cons, List.filter_nil, beq_self_eq_true, Bool.and_self, if_true]
  exact flatMap_own a.core small a

section
variable {u : State} {a : MergeArrival} {ps : List Pending} {p : Pending} (sole : SoleArrival u a ps p)
include sole

theorem SoleArrival.arrivalWave : Machine.arrivalWave u a = some u.w := by
  simp [Machine.arrivalWave, State.groups, sole.live, sole.group, sole.wave, Group.all]

/-- Of the arrival's wave the merge is answered, and nothing else changes. -/
theorem SoleArrival.finishMerge (result : MergeArrival → List RegWrite) (bad : Bool) :
    Machine.finishMerge [a] result bad u = answeredBy ps (answer a (result a) bad p) u := by
  have others {w : Wave} (other : w.uid ≠ u.w.uid) : answerWave a result bad w = w := answerWave_other (sole.wave ▸ other) result bad
  have kept : ps.map (answer a (result a) bad) = ps := (List.map_congr_left fun q mem => by
    rw [answer, if_neg (by rw [sole.timed q mem]; exact nofun)]).trans ps.map_id'
  have group : u.grp.mapWaves (answerWave a result bad) = { u.grp with wave := { u.w with pending := ps ++ [answer a (result a) bad p] } } := by
    rw [WaveControl.mapWaves_of_fixed fun w mem => others (sole.waves w mem), answerWave_own sole.wave, sole.pending, List.map_append, kept]
    rfl
  have groups : u.rest.map (fun g => g.mapWaves (answerWave a result bad)) = u.rest :=
    (List.map_congr_left fun g mem => WaveControl.mapWaves_fixed fun w member => others (sole.rest g mem w member)).trans u.rest.map_id'
  rw [finishMerge_one, State.mapGroups, group, groups, sole.merges]
  simp [State.modW, answeredBy]

/-- No other group takes part, so that the merge completes (R228, R255). -/
theorem SoleArrival.settleMerge (ctx : Nat) : Machine.settleMerge ctx false a.launch u.grp.uid a.pick a.n u =
    answeredBy ps (answer a (soleWrites (u.w.tile (Fin.ofNat 16 a.tile)) a) (decide (Refused a)) p) u := by
  have arrivals : arrivalsOf u ctx false a.launch u.grp.uid a.pick a.n = [a] := sole.group ▸ arrivalsOf_sole sole.merges sole.core ctx
  unfold Machine.settleMerge
  simp only [arrivals]
  rw [if_neg]
  case hnc =>
    rintro (none_ | kept | ⟨clus, -⟩ | missing)
    · cases none_
    · refine kept (List.filter_eq_nil_iff.mpr fun g mem part => ?_)
      obtain ⟨v, saved, rfl⟩ := List.mem_map.mp mem
      simp only [Bool.false_eq_true, if_false, Bool.and_eq_true, beq_iff_eq] at part
      exact sole.saved v saved part.1.2
    · cases clus
    · simp only [Bool.not_eq_true', List.all_eq_false, List.mem_filter, Bool.false_eq_true, if_false, Bool.and_eq_true, beq_iff_eq] at missing
      obtain ⟨g, ⟨-, ⟨-, own⟩, -⟩, absent⟩ := missing
      simp [sole.group, own] at absent
  simp only [sole.finishMerge, sole.arrivalWave, List.flatMap_cons, List.flatMap_nil, List.append_nil, List.map_cons, List.map_nil,
    columnMask_bestColumns, List.all_cons, List.all_nil, List.any_cons, List.any_nil, beq_self_eq_true, Bool.and_self, Bool.not_true, Bool.or_false,
    Bool.false_or, soleWrites]
  by_cases pick : a.mode = 3
  · have accepted : decide (Refused a) = false := decide_eq_false fun ⟨merge, _⟩ => merge pick
    rw [if_pos pick, if_pos pick, accepted]
  · have refused : (a.one && !a.core == a.root) = decide (Refused a) := by
      rw [Bool.eq_iff_iff]
      simp [pick]
    rw [if_neg pick, if_neg pick, refused]
    cases bad : decide (Refused a)
    · rw [bne, refused, bad, if_neg Bool.false_ne_true]
    · simp only [answer, if_true]

end

/-! ## Joining -/

/-- What a merge does once its arrival has been settled: with lookahead 0 its results stand at once (R56). -/
def concludeMerge (look : Nat) (p : Pending) (t : State) : State :=
  match t.w.pending.find? fun q => q.id == p.id && q.on == .time with
  | some q => if look = 0 then completePending q t else t
  | none => t

theorem joinMerge_eq (g : Sig) (tile mode root dest : Nat) (one : Bool) (before : Wave) (s : State) :
    joinMerge g tile mode root dest one ⟨s.iss.run, s.iss.run, before⟩ s =
      let a := arrivalOf tile mode root dest one s
      concludeMerge g.lookahead (waitingAt g.lookahead g.writes a s)
        (settleMerge s.grp.task.ctx s.grp.task.clus a.launch s.grp.uid a.pick a.n (joinedBy g.lookahead g.writes a s)) := by
  cases pick : mode == 3
  · simp only [joinMerge, arrivalOf, joinedBy, waitingAt, MergeArrival.pick, concludeMerge, pick, countArrival_merge pick, Bool.false_eq_true, if_false]
    rfl
  · simp only [joinMerge, arrivalOf, joinedBy, waitingAt, MergeArrival.pick, concludeMerge, pick, countArrival_pick pick, if_true]
    rfl

section
variable {s : State} (alone : AloneAtMerge s) (look : Nat) (dests : List Reg) (tile mode root dest : Nat) (one : Bool)

theorem joined_frame (a : MergeArrival) : (joinedBy look dests a s).grp.live = s.grp.live ∧ (joinedBy look dests a s).grp.uid = s.grp.uid ∧
    (joinedBy look dests a s).grp.waves = s.grp.waves ∧
    (joinedBy look dests a s).w = { s.w with pending := s.w.pending ++ [waitingAt look dests a s] } := by
  have count (g : Group) : (countArrival a.mode g).live = g.live ∧ (countArrival a.mode g).uid = g.uid ∧ (countArrival a.mode g).waves = g.waves ∧
      (countArrival a.mode g).wave = g.wave := by
    unfold countArrival
    split <;> exact ⟨rfl, rfl, rfl, rfl⟩
  exact count _

include alone in
/-- The arrival of a group that is alone at merges is the only one. -/
theorem soleArrival_joined : SoleArrival (joinedBy look dests (arrivalOf tile mode root dest one s) s) (arrivalOf tile mode root dest one s) s.w.pending
    (waitingAt look dests (arrivalOf tile mode root dest one s) s) := by
  obtain ⟨⟨live, -, -, -, saved⟩, merges, pending, waves, rest⟩ := alone
  obtain ⟨sameLive, uid, sameWaves, wave⟩ := joined_frame (s := s) look dests (arrivalOf tile mode root dest one s)
  exact {
    merges := by simp only [joinedBy, merges, List.nil_append]
    core := Nat.mod_lt _ (by decide)
    live := sameLive.trans live
    group := uid.symm
    wave := by rw [wave]; rfl
    pending := by rw [wave]
    timed := fun q mem => (pending q mem).1
    waits := rfl
    waves := by rw [sameWaves, wave]; exact waves
    rest := by rw [wave]; exact rest
    saved := by rw [uid]; exact saved }

theorem concludeMerge_answered {ps : List Pending} {p q : Pending} {u : State} (apart : ∀ r ∈ ps, r.id ≠ p.id) (id : q.id = p.id) (timed : q.on = .time) :
    concludeMerge look p (answeredBy ps q u) = if look = 0 then completePending q (answeredBy ps q u) else answeredBy ps q u := by
  have absent : ps.find? (fun r => r.id == p.id && r.on == .time) = none := List.find?_eq_none.mpr fun r mem found =>
    apart r mem (beq_iff_eq.mp (Bool.and_eq_true_iff.mp found).1)
  have found : (answeredBy ps q u).w.pending.find? (fun r => r.id == p.id && r.on == .time) = some q := by
    show (ps ++ [q]).find? _ = some q
    rw [List.find?_append, absent, Option.none_or, List.find?_cons_of_pos (by simp [id, timed])]
  rw [concludeMerge, found]

/-- Pending beside what else is pending for the wave. -/
def alsoPending (q : Pending) (s : State) : State := s.modW fun w => { w with pending := w.pending ++ [q] }

theorem setMerges_none {t : State} (none_ : t.merges = []) : { t with merges := [] } = t := by rw [← none_]

theorem answeredBy_joined (none_ : s.merges = []) (a : MergeArrival) (q : Pending) :
    answeredBy s.w.pending q (joinedBy look dests a s) = (alsoPending q (s.modG (countArrival a.mode))).fresh := by
  have counted : (alsoPending q (s.modG (countArrival a.mode))).fresh.merges = [] := none_
  refine Eq.trans ?_ (setMerges_none counted)
  cases pick : a.mode == 3
  · rw [joinedBy, countArrival_merge pick]
    rfl
  · rw [joinedBy, countArrival_pick pick]
    rfl

include alone in
/-- The merge of a group that is alone is answered as it joins: its results are pending, or with lookahead 0 it is complete. -/
theorem joinMerge_sole (g : Sig) (before : Wave) : joinMerge g tile mode root dest one ⟨s.iss.run, s.iss.run, before⟩ s =
    let a := arrivalOf tile mode root dest one s
    let q := answer a (soleWrites (s.w.tile (Fin.ofNat 16 tile)) a) (decide (Refused a)) (waitingAt g.lookahead g.writes a s)
    let t := (alsoPending q (s.modG (countArrival mode))).fresh
    if g.lookahead = 0 then completePending q t else t := by
  obtain ⟨⟨-, clus, -⟩, merges, own, -⟩ := id alone
  have sole := soleArrival_joined alone g.lookahead g.writes tile mode root dest one
  obtain ⟨-, uid, -, wave⟩ := joined_frame (s := s) g.lookahead g.writes (arrivalOf tile mode root dest one s)
  have tiles : (joinedBy g.lookahead g.writes (arrivalOf tile mode root dest one s) s).w.tile (Fin.ofNat 16 tile) = s.w.tile (Fin.ofNat 16 tile) := by
    rw [wave]; rfl
  have settled := sole.settleMerge s.grp.task.ctx
  rw [uid, show (arrivalOf tile mode root dest one s).tile = tile from rfl, tiles] at settled
  have waits := answer_waiting (soleWrites (s.w.tile (Fin.ofNat 16 tile)) (arrivalOf tile mode root dest one s))
    (decide (Refused (arrivalOf tile mode root dest one s))) g.lookahead g.writes (arrivalOf tile mode root dest one s) s
  rw [joinMerge_eq]
  dsimp only
  rw [clus, settled, concludeMerge_answered _ (fun r mem => (own r mem).2) waits.1 waits.2, answeredBy_joined _ _ merges]
  rfl

end

/-! ## Completing -/

/-- An identity given beside results changes none of them. -/
theorem applyAll_nextUid (ws : List RegWrite) (n : Nat) (s : State) :
    applyAll { s with nextUid := n } ws = { applyAll s ws with nextUid := n } := by
  induction ws generalizing s with
  | nil => rfl
  | cons w ws ih =>
    have one : RegWrite.apply { s with nextUid := n } w = { RegWrite.apply s w with nextUid := n } := by
      cases w with
      | s r x =>
        show State.wrS { s with nextUid := n } r x = { s.wrS r x with nextUid := n }
        unfold State.wrS
        dsimp only
        cases s.w.own <;> rfl
      | v | p | retcode | rows | header => rfl
    exact (congrArg (applyAll · ws) one).trans (ih _)

/-- Lanes of an ordinary wave that run no handler park with their records. -/
theorem parkAt_outside {n : Nat} {m : Mask} {r : Fin 32 → TrapRecord} {s : State} (some_ : m ≠ 0) (normal : s.w.mode = .normal)
    (outside : m &&& s.w.handlerLanes = 0) : (parkAt n m r s).w.tiles = s.w.tiles ∧
      ∀ j, bit m j = true → (parkAt n m r s).w.st[j] = .parked ∧ (parkAt n m r s).w.recs[j] = r j := by
  rcases parkAt_cases n m r s with ⟨none_, -⟩ | ⟨-, midge, -⟩ | ⟨-, -, inside, -⟩ | ⟨-, -, -, parks⟩
  · exact absurd none_ some_
  · rw [normal] at midge
    cases midge
  · exact absurd outside inside
  · rw [parks]
    refine ⟨rfl, fun j mem => ?_⟩
    simp only [State.modW_grp_wave, Wave.setPc, Wave.setState, Lanes.ofFn_get, mem, if_true, and_self]

section
variable {q : Pending} {s : State} (apart : ∀ r ∈ s.w.pending, r.id ≠ q.id)
include apart

/-- What is pending once the instruction pending last is so no more. -/
theorem withoutLast : ((alsoPending q s).fresh.modW fun w => { w with pending := w.pending.filter fun r => r.id != q.id }) = s.fresh := by
  have kept : (s.w.pending ++ [q]).filter (fun r => r.id != q.id) = s.w.pending := by
    rw [List.filter_append, List.filter_eq_self.mpr fun r mem => bne_iff_ne.mpr (apart r mem)]
    simp
  show { s with grp := { s.grp with wave := { s.w with pending := (s.w.pending ++ [q]).filter fun r => r.id != q.id } }, nextUid := s.nextUid + 1 } = _
  rw [kept]
  rfl

/-- A completion without a fault delivers its results. -/
theorem completePending_noFault (sound : q.faults = []) :
    completePending q (alsoPending q s).fresh = { applyAll s q.writes with nextUid := s.nextUid + 1 } := by
  unfold completePending
  rw [withoutLast apart, sound, faultLanes_nil]
  exact (if_pos rfl).trans (applyAll_nextUid q.writes (s.nextUid + 1) s)

/-- Lanes of a completion's faults leave the halted lanes and the queued sub-waves (R282, R408). -/
def leaveQueues (m : Mask) (w : Wave) : Wave :=
  { w with halted := w.halted &&& ~~~m, subs := (w.subs.map fun b => { b with lanes := b.lanes &&& ~~~m }).filter fun b => b.lanes != 0 }

/-- A completion without results whose faults are all of one run, outside a handler, parks the run and changes no tile. -/
theorem completePending_faults {m : Mask} {code : Nat} {addr : DWord} (none_ : q.writes = []) (faults : q.faults = allLanes m code addr)
    (restart : q.restart = false) (some_ : m ≠ 0) (normal : s.w.mode = .normal) (outside : m &&& s.w.handlerLanes = 0) :
    let u := completePending q (alsoPending q s).fresh
    u.w.tiles = s.w.tiles ∧ ∀ j, bit m j = true → u.w.st[j] = .parked ∧ u.w.recs[j].cause = causeWord code 0 false ∧ u.w.recs[j].pc = q.pc := by
  have lanes : faultLanes (allLanes m code addr) = m := ControlAndMasks.faultLanes_lanes m code fun _ => addr
  have parks : completePending q (alsoPending q s).fresh =
      parkAt q.issue m (fun l => pendingRecord q s.w ⟨l, code, addr⟩) (s.fresh.modW (leaveQueues m)) := by
    unfold completePending
    rw [withoutLast apart, none_, faults, lanes]
    refine (if_neg some_).trans (CodesAndHandlers.parkAt_congr _ _ fun l mem => ?_)
    rw [allLanes, ControlAndMasks.faultOf_lanes m code (fun _ => addr), if_pos mem]
    rfl
  intro u
  obtain ⟨tiles, parked⟩ := parkAt_outside (n := q.issue) (r := fun l => pendingRecord q s.w ⟨l, code, addr⟩) (s := s.fresh.modW (leaveQueues m))
    some_ normal outside
  rw [← parks] at tiles parked
  refine ⟨tiles, fun j mem => ?_⟩
  obtain ⟨state, record⟩ := parked j mem
  refine ⟨state, ?_, ?_⟩
  · simp only [u, record, pendingRecord, restart, Bool.false_eq_true, if_false]
  · rw [record]
    rfl

end

end Sys2Proof.Proofs.MatrixUnit
end

section
/-! The obligation on merges and selections: what each instruction issues, and what its run receives. -/
namespace Sys2Proof.Proofs.MatrixUnit
open Sys2Proof Sys2Proof.Machine Sys2Proof.Claims Sys2Proof.Proofs.MachineState

/-! ## What the run receives (R56, R228, R230) -/

/-- The wave is that of the state before, whatever its group counts. -/
theorem counted_wave (mode : Nat) (s : State) : (s.modG (countArrival mode)).w = s.w := by
  show (countArrival mode s.grp).wave = s.grp.wave
  unfold countArrival
  split <;> rfl

section
variable {s : State} (alone : AloneAtMerge s) (g : Sig) (tile mode root dest : Nat) (one : Bool)

/-- A merge that has been refused: a fault of each lane of its run. -/
def refusal (s : State) : Pending := { waitingAt g.lookahead g.writes (arrivalOf tile mode root dest one s) (past false s) with
  on := .time, restart := false, faults := allLanes s.iss.run 0x26 (at_ s) }

include alone

/-- Nothing else pending bears the identity of the instruction. -/
theorem own_identity {q : Pending} (identity : q.id = s.nextUid) : ∀ r ∈ ((past false s).modG (countArrival mode)).w.pending, r.id ≠ q.id := by
  obtain ⟨-, -, own, -⟩ := alone
  rw [counted_wave, identity]
  exact fun r mem => (own r mem).2

/-- A merge or selection that names no other core as its root is answered with its results. -/
theorem joinMerge_accepted (accepted : ¬ Refused (arrivalOf tile mode root dest one s)) :
    joinMerge g tile mode root dest one (execOf false s) (past false s) =
      answered g.lookahead g.writes (soleWrites (s.w.tile (Fin.ofNat 16 tile)) (arrivalOf tile mode root dest one s)) s
        ((past false s).modG (countArrival mode)) := by
  have joined := joinMerge_sole (s := past false s) alone tile mode root dest one g s.w
  dsimp only at joined
  rw [show decide (Refused (arrivalOf tile mode root dest one (past false s))) = false from decide_eq_false accepted, answer_accepted] at joined
  refine joined.trans ?_
  unfold answered delivered deliveredAs
  by_cases now : g.lookahead = 0
  · rw [if_pos now, if_pos now, completePending_noFault (own_identity alone mode rfl) rfl]
    rfl
  · rw [if_neg now, if_neg now]
    rfl

/-- A merge that names another core as its root is refused: its faults are pending, or with lookahead 0 delivered. -/
theorem joinMerge_refused (refused : Refused (arrivalOf tile mode root dest one s)) :
    joinMerge g tile mode root dest one (execOf false s) (past false s) =
      let t := (alsoPending (refusal g tile mode root dest one s) ((past false s).modG (countArrival mode))).fresh
      if g.lookahead = 0 then completePending (refusal g tile mode root dest one s) t else t := by
  have joined := joinMerge_sole (s := past false s) alone tile mode root dest one g s.w
  dsimp only at joined
  rw [show decide (Refused (arrivalOf tile mode root dest one (past false s))) = true from decide_eq_true refused, answer_refused] at joined
  exact joined

/-- The run of a refused merge that is complete stands parked (R230). -/
theorem refusal_complete (h : CanIssue s) (outside : Outside s) :
    let q := refusal g tile mode root dest one s
    let u := completePending q (alsoPending q ((past false s).modG (countArrival mode))).fresh
    u.w.tiles = s.w.tiles ∧ ∀ j, bit s.iss.run j = true → u.w.st[j] = .parked ∧ u.w.recs[j].cause = 0x26 ∧ u.w.recs[j].pc = at_ s := by
  obtain ⟨normal, run, -⟩ := h
  have wave := counted_wave mode (past false s)
  have parks := completePending_faults (q := refusal g tile mode root dest one s) (own_identity alone mode rfl) rfl rfl rfl run
    (by rw [wave]; exact normal) (by rw [wave]; exact outside)
  rw [wave] at parks
  exact parks

end

/-! ## The instructions (R227, R255) -/

section
variable {s : State} (h : CanIssue s)
include h

/-- An instruction of the group set with nothing pending for the registers that it waits for, outside a handler if it may not issue in one. -/
theorem issue_settled {g : Sig} {body : Exec → State → State} {t : State} (once : g.perLane = false) (within : Within (g.reads ++ g.writes) s)
    (fence : g.fence = false) (settled : ∀ r ∈ g.waitsFor, Settled r (fun _ => True) s) (unprivileged : g.privileged = false)
    (anywhere : g.handlerOnly = false) (outside : g.notInHandler = true → Outside s) (acts : body (execOf false s) (past false s) = t)
    (stores : t.stores = []) (mem : t.mem = s.mem) : issue g body s = .next t := by
  rw [issue_ready g body s h within (by simp [fence]) (clearOf_settled settled _) (by simp [unprivileged]) (by simp [anywhere]) outside]
  refine next_of _ s t ?_ stores mem
  obtain ⟨-, run, -⟩ := h
  rw [once, if_neg (show enabled false s ≠ 0 from run), acts]

variable (outside : Outside s)
include outside

variable (alone : AloneAtMerge s) {t : Fin 16} (within : Within [.tile t.val] s) (mode : Nat) (root : Fin 16) (o : Fin 2) (l : Fin 16)
include alone within

/-- A cmerge that no other root is named for. -/
theorem issue_cmerge_accepted (merge : mode ≠ 3) (accepted : ¬ Refused (arrivalOf t.val mode root.val 0 (o == 1) s)) {rows : Lanes Row}
    (writes : soleWrites s.w.tiles[t] (arrivalOf t.val mode root.val 0 (o == 1) s) = [.rows t (~~~0#32) rows]) :
    issue (cmergeSig t l) (joinMerge (cmergeSig t l) t.val mode root.val 0 (o == 1)) s =
      .next (answered l.val [.tile t.val] [.rows t (~~~0#32) rows] s ((past false s).modG fun g => { g with merges := g.merges + 1 })) := by
  have acts := joinMerge_accepted alone (cmergeSig t l) t.val mode root.val 0 (o == 1) accepted
  rw [Fin.ofNat_val_eq_self, show s.w.tile t = s.w.tiles[t] from rfl, writes, countArrival_merge (beq_eq_false_iff_ne.mpr merge)] at acts
  exact issue_settled h rfl (within_append within within) rfl nofun rfl rfl (fun _ => outside) acts
    ((deliveredAs_frame ..).2.trans (stores_of_canIssue (s := s) h)) (deliveredAs_frame ..).1

/-- A cmerge for which another root is named (R230). -/
theorem issue_cmerge_refused (refused : Refused (arrivalOf t.val mode root.val 0 (o == 1) s)) :
    let q := refusal (cmergeSig t l) t.val mode root.val 0 (o == 1) s
    let i := issue (cmergeSig t l) (joinMerge (cmergeSig t l) t.val mode root.val 0 (o == 1)) s
    (l ≠ 0 → i = .next (alsoPending q ((past false s).modG fun g => { g with merges := g.merges + 1 })).fresh) ∧
    (l = 0 → ∃ u, i = .next u ∧ u.w.tiles = s.w.tiles ∧
      ∀ j, bit s.iss.run j = true → u.w.st[j] = .parked ∧ u.w.recs[j].cause = 0x26 ∧ u.w.recs[j].pc = at_ s) := by
  have acts := joinMerge_refused alone (cmergeSig t l) t.val mode root.val 0 (o == 1) refused
  have counts := countArrival_merge (mode := mode) (beq_eq_false_iff_ne.mpr refused.1)
  have issues {u : State} (same : joinMerge (cmergeSig t l) t.val mode root.val 0 (o == 1) (execOf false s) (past false s) = u) (stores : u.stores = [])
      (mem : u.mem = s.mem) : issue (cmergeSig t l) (joinMerge (cmergeSig t l) t.val mode root.val 0 (o == 1)) s = .next u :=
    issue_settled h rfl (within_append within within) rfl nofun rfl rfl (fun _ => outside) same stores mem
  dsimp only at acts
  refine ⟨fun later => ?_, fun now => ?_⟩
  · have look : (cmergeSig t l).lookahead ≠ 0 := fun none_ => later (Fin.ext none_)
    rw [if_neg look, counts] at acts
    have stores := stores_of_canIssue h
    refine issues acts ?_ ?_
    · simp only [alsoPending, State.fresh_stores, State.modW_stores, State.modG_stores, past_stores, stores]
    · simp only [alsoPending, State.fresh_mem, State.modW_mem, State.modG_mem, past_mem]
  · have parks := refusal_complete alone (cmergeSig t l) t.val mode root.val 0 (o == 1) h outside
    exact ⟨_, issues (acts.trans (if_pos (congrArg Fin.val now))) ((completePending_stores ..).trans (stores_of_canIssue (s := s) h))
      (completePending_mem ..), parks⟩

end

/-! ## Rows merged with no others (R229) -/

/-- A row weighed against its own maximum. -/
def softRow (r : Row) : Row :=
  let w : Word := if r.max = 0xFF800000 then 0 else 0x3F800000
  { cells := Lanes.ofFn fun j => fmul .nearest w r.cells[j], max := r.max, sum := fmul .nearest w r.sum }

theorem mergeRow_soft (r : Row) : mergeRow 0 [r] = softRow r := rfl

theorem ofFn_eta {α : Type} (x : Lanes α) : Lanes.ofFn (fun j => x[j]) = x := Vector.ext fun i hi => by simp

/-- A sum over one row is the row. -/
theorem mergeRow_sum {mode : Nat} (sums : mode = 1 ∨ mode = 2) (r : Row) : (mergeRow mode [r]).cells = r.cells := by
  rcases sums with rfl | rfl <;> exact ofFn_eta r.cells

section
variable (own : Tile) (t : Fin 16) (root : Nat) (one : Bool) (s : State)

theorem soleWrites_soft : soleWrites own (arrivalOf t.val 0 root 0 one s) = [.rows t (~~~0#32) (Lanes.ofFn fun i => softRow own.rows[i])] := by
  show [RegWrite.rows (Fin.ofNat 16 t.val) (~~~0#32) (Lanes.ofFn fun i => mergeRow 0 [own.rows[i]])] = _
  simp only [Fin.ofNat_val_eq_self, mergeRow_soft]

theorem soleWrites_sum {mode : Nat} (sums : mode = 1 ∨ mode = 2) : soleWrites own (arrivalOf t.val mode root 0 one s) = [.rows t (~~~0#32) own.rows] := by
  have notPick : mode ≠ 3 := by omega
  have notSoft : mode ≠ 0 := by omega
  simp only [soleWrites, arrivalOf, notPick, notSoft, if_false, mergeRow_sum sums, ofFn_eta, Fin.ofNat_val_eq_self]
  rfl

theorem soleWrites_pick (d : Fin 128) (k : Nat) : soleWrites own (arrivalOf t.val 3 k d.val one s) = [.s d (bestMask own s.iss.run k)] := by
  show [RegWrite.s (Fin.ofNat 128 d.val) (bestMask own s.iss.run k)] = _
  rw [Fin.ofNat_val_eq_self]

end

/-! ## topk and topk.c (R255) -/

section
variable {s : State} (h : CanIssue s) {t : Fin 16} (within : Within [.tile t.val] s) (settled : Settled (.tile t.val) (fun _ => True) s)
  (d : Fin 128) (k : Fin 32) (l : Fin 16)
include settled

theorem settled_tile : ∀ r ∈ tReg t, Settled r (fun _ => True) s := fun r mem => by
  obtain rfl := List.mem_singleton.mp mem
  exact settled

include h within

theorem exec_topk : exec (.topk d k t l) s = .next (delivered l.val [.s d.val] [.s d (bestMask s.w.tiles[t] s.iss.run (k.val + 1))] s.iss.run false s
    (past false s)) := by
  rw [← columnMask_bestColumns 0]
  exact issue_settled (g := topkSig d t l false) h rfl (within_append within (within_sReg d s)) rfl (settled_tile settled) rfl rfl
    (absurd · Bool.false_ne_true) (IntegerAndLanes.deliver_once (g := { topkSig d t l false with kind := .plain }) h rfl rfl _)
    ((deliveredAs_frame ..).2.trans (stores_of_canIssue (s := s) h)) (deliveredAs_frame ..).1

theorem exec_topkC (outside : Outside s) (alone : AloneAtMerge s) : exec (.topkC d k t l) s = .next (answered l.val [.s d.val]
    [.s d (bestMask s.w.tiles[t] s.iss.run (k.val + 1))] s ((past false s).modG fun g => { g with picks := g.picks + 1 })) := by
  have acts := joinMerge_accepted alone (topkSig d t l true) t.val 3 (k.val + 1) d.val false fun ⟨merge, _⟩ => merge rfl
  rw [soleWrites_pick, Fin.ofNat_val_eq_self] at acts
  exact issue_settled h rfl (within_append within (within_sReg d s)) rfl (settled_tile settled) rfl rfl (fun _ => outside) acts
    ((deliveredAs_frame ..).2.trans (stores_of_canIssue (s := s) h)) (deliveredAs_frame ..).1

end

/-! ## The obligation -/

/-- Whether a cmerge is refused turns on its ROOT field (R230). -/
theorem refused_iff {mode : Nat} (merge : mode ≠ 3) (t : Fin 16) (root : Fin 16) (o : Fin 2) (s : State) :
    Refused (arrivalOf t.val mode root.val 0 (o == 1) s) ↔ (o == 0 || root.val == s.grp.core % 12) = false := by
  have field : (o == 1) = true ↔ (o == 0) = false := by revert o; decide
  show mode ≠ 3 ∧ (o == 1) = true ∧ s.grp.core % 12 ≠ root.val ↔ _
  rw [field, Bool.or_eq_false_iff, beq_eq_false_iff_ne (a := root.val), ne_comm (a := root.val)]
  exact and_iff_right merge

/-- Settles O27: the merge of a group that is alone is settled as it joins (`SoleArrival.settleMerge`), and the columns chosen one after another are
those with fewer than k better ones (`columnMask_bestColumns`). -/
theorem mergesAndSelections : Obligations.MergesAndSelections := by
  unfold Obligations.MergesAndSelections
  intro s d t k l h within counted chosen
  refine ⟨fun alone outside o root => ⟨fun here => ?_, fun away => ?_⟩, fun settled => ⟨exec_topk h within settled d k l, fun alone outside => ?_⟩⟩
  · have accepted {mode : Nat} {rows : Lanes Row} (merge : mode ≠ 3) := issue_cmerge_accepted (rows := rows) h outside alone within mode root o l merge
      fun refused => Bool.false_ne_true (((refused_iff merge t root o s).mp refused).symm.trans here)
    exact ⟨accepted (mode := 0) (by decide) (soleWrites_soft ..), accepted (mode := 1) (by decide) (soleWrites_sum _ _ _ _ _ (.inl rfl)),
      accepted (mode := 2) (by decide) (soleWrites_sum _ _ _ _ _ (.inr rfl))⟩
  · have refused {mode : Nat} (merge : mode ≠ 3) := issue_cmerge_refused h outside alone within mode root o l ((refused_iff merge t root o s).mpr away)
    simp only [List.forall_mem_cons]
    exact ⟨refused (mode := 0) (by decide), refused (mode := 1) (by decide), refused (mode := 2) (by decide), nofun⟩
  · exact exec_topkC h within settled d k l outside alone

end Sys2Proof.Proofs.MatrixUnit
end
